-- ==== Sys2Proof/Word.lean ====
section
/-! DEFINITION. The word types of the BW6400 and the index types that name its instances (R1, R5, R12 to R14). -/

namespace Sys2Proof

/-- One byte. -/
abbrev Byte := BitVec 8
/-- A 32-bit data word (R5). -/
abbrev Word := BitVec 32
/-- A 64-bit issue word (R81). -/
abbrev IssueWord := BitVec 64
/-- A 14-bit owner ID (R12). -/
abbrev OwnerId := BitVec 14
/-- A P-die: 0 West, 1 East (R258). -/
abbrev PDie := Fin 2
/-- A slice of a P-die. -/
abbrev Slice := Fin 8
/-- A port ID (R261): [6] P-die, [5:3] slice, [2:0] port context. -/
abbrev PortId := Fin 128
/-- A device cluster (R14). -/
abbrev ClusterId := Fin 64
/-- A device region (R14). -/
abbrev RegionId := Fin 16
/-- A hardware thread: device core × 8 + thread (R14). -/
abbrev ThreadId := Fin 4096
/-- A device DRAM channel (R425). -/
abbrev ChannelId := Fin 32
/-- A sparse array: strictly rising keys, and no entry equal to what an unlisted key reads as. -/
abbrev Tbl (α : Type) := List (Nat × α)

end Sys2Proof
end

