-- ==== Sys2Proof/Machine/Tbl.lean ====
section
/-! DEFINITION. Sparse arrays (Tbl): reading, and writing in canonical form. Every array of the part whose entries are few
beside its size is one: registers, memories, tables of threads, locks, queues. -/

namespace Sys2Proof.Machine

/-- The entry listed at `i`, if any. -/
def tFind : Tbl α → Nat → Option α
  | [], _ => none
  | (k, v) :: r, i => if k = i then some v else tFind r i

/-- The array without the entry at `i`. -/
def tDel : Tbl α → Nat → Tbl α
  | [], _ => []
  | (k, v) :: r, i => if k = i then tDel r i else (k, v) :: tDel r i

/-- The array with an entry put before the first larger key. -/
def tIns : Tbl α → Nat → α → Tbl α
  | [], i, v => [(i, v)]
  | (k, w) :: r, i, v => if i < k then (i, v) :: (k, w) :: r else (k, w) :: tIns r i v

/-- The value at `i`: the listed one, or what an unlisted index reads as. -/
def tGet (d : Nat → α) (t : Tbl α) (i : Nat) : α := (tFind t i).getD (d i)

/-- Write `v` at `i`, keeping the canonical form: a value equal to what an unlisted index reads as is not listed. -/
def tSet [DecidableEq α] (d : Nat → α) (t : Tbl α) (i : Nat) (v : α) : Tbl α :=
  if v = d i then tDel t i else tIns (tDel t i) i v

/-- Write with no default: every entry is listed. -/
def tPut (t : Tbl α) (i : Nat) (v : α) : Tbl α := tIns (tDel t i) i v

/-- Put or remove the entry at `i`. -/
def tOpt (t : Tbl α) (i : Nat) (v : Option α) : Tbl α :=
  match v with
  | some x => tPut t i x
  | none => tDel t i

/-- Change the value at `i`. -/
def tUpd [DecidableEq α] (d : Nat → α) (t : Tbl α) (i : Nat) (f : α → α) : Tbl α := tSet d t i (f (tGet d t i))

/-- The keys rise strictly. -/
def tSorted : Tbl α → Bool
  | [] => true
  | [_] => true
  | (k, _) :: (j, w) :: r => decide (k < j) && tSorted ((j, w) :: r)

/-- The canonical form: the keys rise strictly and no entry equals what an unlisted index reads as. -/
def tWf [DecidableEq α] (d : Nat → α) (t : Tbl α) : Bool :=
  tSorted t && t.all fun e => decide (e.2 ≠ d e.1)

/-- Apply `f` to every listed value. -/
def tMap (f : Nat → α → β) (t : Tbl α) : Tbl β := t.map fun e => (e.1, f e.1 e.2)

/-- The `n` values from `i` on. -/
def tRange (d : Nat → α) (t : Tbl α) (i n : Nat) : List α := (List.range n).map fun j => tGet d t (i + j)

/-- Write a list of values at `i` and the indices after it. -/
def tPutAll [DecidableEq α] (d : Nat → α) : Tbl α → Nat → List α → Tbl α
  | t, _, [] => t
  | t, i, v :: vs => tPutAll d (tSet d t i v) (i + 1) vs

/-- The keys of the listed values that satisfy `p`, in rising order. -/
def tKeys (p : α → Bool) (t : Tbl α) : List Nat := (t.filter fun e => p e.2).map (·.1)

end Sys2Proof.Machine
end

