-- ==== Sys2Proof/Machine/Bits.lean ====
section
/-! DEFINITION. Bit fields of words, signed views, and the byte orders of R5 and of the wire. -/

namespace Sys2Proof.Machine

/-- Bits [hi:lo] of a number. -/
def bitsOf (n hi lo : Nat) : Nat := (n >>> lo) % 2 ^ (hi + 1 - lo)

/-- Field [hi:lo] of a word, as a number. -/
def fld (w : Word) (hi lo : Nat) : Nat := bitsOf w.toNat hi lo

/-- Bit `i` of a word. -/
def bit (w : Word) (i : Nat) : Bool := w.toNat.testBit i

/-- The word whose bits [hi:lo] are 1. -/
def maskOf (hi lo : Nat) : Word := BitVec.ofNat 32 ((2 ^ (hi + 1 - lo) - 1) <<< lo)

/-- The word with field [hi:lo] replaced. -/
def setFld (w : Word) (hi lo v : Nat) : Word :=
  (w &&& ~~~ maskOf hi lo) ||| (BitVec.ofNat 32 (v <<< lo) &&& maskOf hi lo)

/-- The word with bit `i` replaced. -/
def setBit (w : Word) (i : Nat) (b : Bool) : Word := setFld w i i (if b then 1 else 0)

/-- A Bool as a bit. -/
def b2n (b : Bool) : Nat := if b then 1 else 0

/-- A Bool as a word 0 or 1. -/
def b2w (b : Bool) : Word := if b then 1 else 0

/-- A number as a word. -/
def nw (n : Nat) : Word := BitVec.ofNat 32 n

/-- The signed value of a number's low `n` bits. -/
def toSigned (n : Nat) (v : Nat) : Int :=
  if v % 2 ^ n ≥ 2 ^ (n - 1) then (v % 2 ^ n : Int) - (2 ^ n : Nat) else (v % 2 ^ n : Nat)

/-- A signed number as a word (modulo 2^32). -/
def iw (i : Int) : Word := BitVec.ofInt 32 i

/-- The `n` bytes of a number, least significant first. -/
def leBytes : Nat → Nat → List Byte
  | 0, _ => []
  | k + 1, v => BitVec.ofNat 8 v :: leBytes k (v / 256)

/-- The number that bytes spell, least significant first. -/
def leNat : List Byte → Nat
  | [] => 0
  | b :: r => b.toNat + 256 * leNat r

/-- The `n` bytes of a number, most significant first. -/
def beBytes (n v : Nat) : List Byte := (leBytes n v).reverse

/-- The number that bytes spell, most significant first. -/
def beNat (l : List Byte) : Nat := l.foldl (fun a b => a * 256 + b.toNat) 0

/-- The little-endian word that bytes spell (R5). -/
def leWord (l : List Byte) : Word := nw (leNat (l.take 4))

/-- The `n` bytes of a list from offset `o`, with 0x00 beyond its end. -/
def bytesAt (l : List Byte) (o n : Nat) : List Byte := (List.range n).map fun i => l.getD (o + i) 0

/-- A list with the bytes at `o` replaced, extended with 0x00 where it is too short. -/
def putBytes (l : List Byte) (o : Nat) (b : List Byte) : List Byte :=
  bytesAt l 0 o ++ b ++ l.drop (o + b.length)

/-- Big-endian field of `n` bytes at offset `o`. -/
def beAt (l : List Byte) (o n : Nat) : Nat := beNat (bytesAt l o n)

/-- Little-endian field of `n` bytes at offset `o`. -/
def leAt (l : List Byte) (o n : Nat) : Nat := leNat (bytesAt l o n)

/-- Byte-wise exclusive or, as long as the shorter list. -/
def xorBytes (a b : List Byte) : List Byte := List.zipWith (· ^^^ ·) a b

/-- A list cut or filled with 0x00 to `n` bytes. -/
def padTo (n : Nat) (l : List Byte) : List Byte := bytesAt l 0 n

/-- Replace the element at `i`. -/
def listSet (l : List α) (i : Nat) (v : α) : List α := l.set i v

/-- The least number ≥ `lo` that is `r` modulo `m`. -/
def nextCongr (lo r m : Nat) : Nat := lo + (r + m - lo % m) % m

/-- Add with saturation at `mx`. -/
def satAdd (mx a b : Nat) : Nat := min mx (a + b)

/-- The number of 1 bits among the low `n` bits. -/
def popCount : Nat → Nat → Nat
  | 0, _ => 0
  | k + 1, v => v % 2 + popCount k (v / 2)

/-- The lowest 1 bit below `n`, if any. -/
def lowBit? (n v : Nat) : Option Nat := (List.range n).find? fun i => v.testBit i

/-- b^e modulo m; the fuel is the number of bits of the exponent. -/
def powModGo (m : Nat) : Nat → Nat → Nat → Nat
  | 0, _, _ => 1 % m
  | k + 1, b, e => (if e % 2 = 1 then b else 1) * powModGo m k (b * b % m) (e / 2) % m

/-- b^e modulo m, for exponents below 2^512. -/
def powMod (b e m : Nat) : Nat := powModGo m 512 b e

/-- The low `n` bits of a number in reverse order. -/
def bitRev : Nat → Nat → Nat
  | 0, _ => 0
  | k + 1, v => v % 2 * 2 ^ k + bitRev k (v / 2)

end Sys2Proof.Machine
end

