-- ==== Sys2Proof/Machine/RegMap.lean ====
section
/-! DEFINITION. The register map: the pages of R522 to R527, and every register with the access types of R7 and the field
classes of R9. Bits that a row does not list are reserved: they read as 0 and writes to them are ignored (R8). -/

namespace Sys2Proof.Machine

/-- A register or an array of registers: its first offset, count and stride, the masks of its RW bits of class L, G and S,
of its W1C, RC and write-only (WO or W1S) bits, and its reset value. -/
structure RegDef where
  off    : Nat
  count  : Nat
  stride : Nat
  rwL    : Word
  rwG    : Word
  rwS    : Word
  w1c    : Word
  rc     : Word
  wo     : Word
  reset  : Word
  deriving DecidableEq, Repr

/-- The blocks of R527. -/
inductive Kind where
  | core | clu | cmem | cdc | esc | cpx | lx | sp | ec | kw | tel | pol | rsw | dsv
  | mac | prs | cph | sds | cls | frg | lrn | sat | vlt | bpm | tm | xlk | dmc
  | epc | pwr | clk | fmg | sec | hst | dbg | otp | mbx | dma
  deriving DecidableEq, Repr

/-- The type code of a block (R527). -/
def Kind.code : Kind → Nat
  | .core => 0x0101 | .clu => 0x0102 | .cmem => 0x0103 | .cdc => 0x0104 | .esc => 0x0105 | .cpx => 0x0106
  | .lx => 0x0107 | .sp => 0x0108 | .ec => 0x0109 | .kw => 0x010A | .tel => 0x010B | .pol => 0x010C | .rsw => 0x010D
  | .dsv => 0x010E | .prs => 0x0201 | .cls => 0x0202 | .frg => 0x0203 | .lrn => 0x0204 | .sat => 0x0205 | .cph => 0x0206
  | .vlt => 0x0207 | .bpm => 0x0208 | .tm => 0x0209 | .mac => 0x020A | .sds => 0x020B | .dmc => 0x020C | .xlk => 0x020D
  | .epc => 0x0301 | .pwr => 0x0302 | .clk => 0x0303 | .fmg => 0x0304 | .sec => 0x0305 | .hst => 0x0306 | .dma => 0x0307
  | .dbg => 0x0308 | .otp => 0x0309 | .mbx => 0x030A

/-- PG_CAP.HAS_ECC_LOG: the pages of R445. -/
def Kind.hasEcc : Kind → Bool
  | .dmc | .bpm | .cls | .sat | .vlt | .frg | .tm | .cmem => true
  | _ => false

/-- PG_CAP.HAS_CTRL: 0 for the pages that R530 names. -/
def Kind.hasCtrl : Kind → Bool
  | .lx | .sp | .ec | .kw | .rsw | .dsv | .sds | .xlk | .otp => false
  | _ => true

/-- PG_CAP.HAS_GEN: the page holds G fields. -/
def Kind.hasGen : Kind → Bool
  | .prs | .frg | .cls | .lrn | .cph | .bpm | .tm | .epc | .hst => true
  | _ => false

/-- The number of a page: BAR0 [27:12] (R522). -/
def pageNo (die g f p : Nat) : Nat := die * 4096 + g * 256 + f * 16 + p

/-- The pages of device cluster `c` (R14, R523): 0 CLU, 1 CMEM, 2 CDC, 3 ESC, 4 CPX, 5 LX, 6 SP, 7 EC, 8 KW. -/
def cluPage (c p : Nat) : Nat := pageNo (c / 16) (c / 4 % 4) (c % 4) p

/-- The CORE page of a device core. -/
def corePage (core : Nat) : Nat := pageNo (core / 128) (core / 32 % 4) (4 + core / 8 % 4) (core % 8)

/-- The pages of device region `r`: 0 TEL, 1 POL, 2 RSW, 3 region ESC. -/
def rgnPage (r p : Nat) : Nat := pageNo (r / 4) (r % 4) 15 p

/-- The pages of a slice: 0 MAC, 1 PRS, 2 CPH, 3 SDS (R524). -/
def slicePage (d s p : Nat) : Nat := pageNo (4 + d) s 0 p

/-- The die pages of a P-die: 0 CLS, 1 FRG, 2 LRN, 3 SAT, 4 VLT, 5 BPM, 6 TM, 7 XLK. -/
def pdPage (d p : Nat) : Nat := pageNo (4 + d) 15 0 p

/-- The DMC page of a device channel. -/
def dmcPage (ch : Nat) : Nat := pageNo (4 + ch / 16) 15 1 (ch % 16)

/-- The pages of the M-die (R525): 0 EPC, 1 PWR, 2 CLK, 3 FMG, 4 SEC, 5 HST, 6 DBG, 7 OTP, 8 MBX. -/
def mPage (p : Nat) : Nat := pageNo 6 0 0 p

/-- The page of DMA queue pair `q`. -/
def dmaPage (q : Nat) : Nat := pageNo 6 0 1 q

/-- The DSV page of a C-die. -/
def dsvPage (c : Nat) : Nat := pageNo c 15 0 0

/-- What stands at a page number: the block and its INSTANCE (R522 to R527). -/
def pageKind (pg : Nat) : Option (Kind × Nat) :=
  let die := pg / 4096
  let g := pg / 256 % 16
  let f := pg / 16 % 16
  let p := pg % 16
  if pg ≥ 65536 then none
  else if die < 4 then
    if g < 4 then
      if f < 4 then
        ([Kind.clu, .cmem, .cdc, .esc, .cpx, .lx, .sp, .ec, .kw][p]?).map fun k => (k, g * 4 + f)
      else if f < 8 then (if p < 8 then some (.core, g * 32 + (f - 4) * 8 + p) else none)
      else if f = 15 then
        match p with
        | 0 => some (.tel, g) | 1 => some (.pol, g) | 2 => some (.rsw, g) | 3 => some (.esc, 16 + g) | _ => none
      else none
    else if g = 15 ∧ f = 0 ∧ p = 0 then some (.dsv, 0) else none
  else if die < 6 then
    if g < 8 then
      if f = 0 then ([Kind.mac, .prs, .cph, .sds][p]?).map fun k => (k, g) else none
    else if g = 15 then
      if f = 0 then ([Kind.cls, .frg, .lrn, .sat, .vlt, .bpm, .tm, .xlk][p]?).map fun k => (k, 0)
      else if f = 1 then some (.dmc, p)
      else none
    else none
  else if die = 6 then
    if g = 0 ∧ f = 0 then ([Kind.epc, .pwr, .clk, .fmg, .sec, .hst, .dbg, .otp, .mbx][p]?).map fun k => (k, 0)
    else if g = 0 ∧ f = 1 then some (.dma, p)
    else none
  else none

/-- The event source under which a page reports (R540). -/
def eventSource (pg : Nat) : Nat :=
  let die := pg / 4096
  let g := pg / 256 % 16
  let f := pg / 16 % 16
  let p := pg % 16
  if die < 4 then
    if g = 15 then 64 * die + 60
    else if f < 4 then 64 * die + 3 * (g * 4 + f) + (if p < 4 then 1 else 2)
    else if f < 8 then 64 * die + 3 * (g * 4 + (f - 4))
    else 64 * die + 48 + 3 * g + (if p = 0 then 0 else if p = 3 then 2 else 1)
  else if die < 6 then
    if g < 8 then 256 + 64 * (die - 4) + 4 * g + p
    else if f = 0 then 256 + 64 * (die - 4) + 32 + p
    else 256 + 64 * (die - 4) + 40 + p
  else if f = 0 then 384 + p
  else 400 + p

/-- The common header of every page (R528). -/
def headerRegs : List RegDef := [
  ⟨0x000, 1, 4, 0x0, 0x0, 0x0, 0x0, 0x0, 0x0, 0x1⟩,  -- PG_ID, R529
  ⟨0x004, 1, 4, 0x0, 0x0, 0x0, 0x0, 0x0, 0x0, 0x0⟩,  -- PG_CAP, R530
  ⟨0x008, 1, 4, 0x3, 0x0, 0x0, 0x0, 0x0, 0x4, 0x0⟩,  -- PG_CTRL, R531
  ⟨0x00C, 1, 4, 0x0, 0x0, 0x0, 0x0, 0x0, 0x0, 0x0⟩,  -- PG_STAT, R532
  ⟨0x010, 1, 4, 0x0, 0x0, 0x0, 0xFFFFFFFF, 0x0, 0x0, 0x0⟩,  -- EVT_STAT, R534
  ⟨0x014, 1, 4, 0xFFFFFFFF, 0x0, 0x0, 0x0, 0x0, 0x0, 0x0⟩,  -- EVT_EN, R534
  ⟨0x018, 1, 4, 0x0, 0x0, 0x0, 0x0, 0x0, 0xFFFFFFFF, 0x0⟩,  -- EVT_SET, R534
  ⟨0x01C, 1, 4, 0xC0001FFF, 0x0, 0x0, 0x0, 0x0, 0x0, 0x0⟩,  -- EVT_ROUTE, R536
  ⟨0x020, 1, 4, 0x0, 0x0, 0x0, 0x80000000, 0x0, 0x0, 0x0⟩,  -- ERR_FIRST, R504
  ⟨0x024, 1, 4, 0x0, 0x0, 0x0, 0x0, 0x0, 0x0, 0x0⟩,  -- ERR_DETAIL, R504
  ⟨0x028, 1, 4, 0x0, 0x0, 0x0, 0x0, 0x0, 0x0, 0x0⟩,  -- ERR_ADDR_LO, R504
  ⟨0x02C, 1, 4, 0x0, 0x0, 0x0, 0x0, 0x0, 0x0, 0x0⟩,  -- ERR_ADDR_HI, R504
  ⟨0x030, 1, 4, 0x0, 0x0, 0x0, 0x0, 0xFFFF, 0x0, 0x0⟩,  -- ERR_COUNT, R505
  ⟨0x034, 1, 4, 0x0, 0x0, 0x0, 0x0, 0x0, 0x0, 0x0⟩,  -- GEN_STAT, R537
  ⟨0x038, 1, 4, 0x0, 0x0, 0x0, 0x0, 0x0, 0x0, 0x0⟩,  -- TALLY_LO, R493
  ⟨0x03C, 1, 4, 0x0, 0x0, 0x0, 0x0, 0x0, 0x0, 0x0⟩  -- TALLY_HI, R493
]

/-- The correctable-error log of the pages of R449. -/
def eccRegs : List RegDef := [
  ⟨0x700, 1, 4, 0x0, 0x0, 0x0, 0x0, 0xFFFFFFFF, 0x0, 0x0⟩,  -- ECC_CE_CNT, R449
  ⟨0x704, 1, 4, 0x0, 0x0, 0x0, 0x0, 0xFFFFFFFF, 0x0, 0x0⟩,  -- ECC_UE_CNT, R449
  ⟨0x708, 1, 4, 0x0, 0x0, 0x0, 0x0, 0xFFFF0000, 0x0, 0x0⟩,  -- ECC_LOG_PTR, R449
  ⟨0x70C, 1, 4, 0x0, 0x0, 0x0, 0x0, 0x0, 0x0, 0x0⟩,  -- ECC_SPARES, R449
  ⟨0x740, 8, 8, 0x0, 0x0, 0x0, 0x80000000, 0x0, 0x0, 0x0⟩,  -- ECC_LOG_W0, R449
  ⟨0x744, 8, 8, 0x0, 0x0, 0x0, 0x0, 0x0, 0x0, 0x0⟩  -- ECC_LOG_W1, R449
]

/-- The registers of a CORE page. -/
def coreRegs : List RegDef := [
  ⟨0x100, 8, 4, 0x0, 0x0, 0x0, 0x0, 0x0, 0x0, 0x0⟩,  -- CORE_THR_STAT, R147
  ⟨0x120, 8, 4, 0x0, 0x0, 0x0, 0x0, 0x0, 0x0, 0x0⟩,  -- CORE_TRAP, R150
  ⟨0x140, 8, 4, 0x0, 0x0, 0x0, 0x0, 0x0, 0x0, 0x0⟩,  -- CORE_TRAP_PC, R150
  ⟨0x160, 1, 4, 0x0, 0x0, 0x0, 0x0, 0xFFFF, 0x0, 0x0⟩,  -- CORE_TRAP_CNT, R150
  ⟨0x164, 1, 4, 0x0, 0x0, 0x0, 0x0, 0x0, 0xFF, 0x0⟩  -- CORE_THR_KILL, R151
]

/-- The registers of a CLU page. -/
def cluRegs : List RegDef := [
  ⟨0x180, 1, 4, 0x1, 0x0, 0x0, 0x0, 0x0, 0x0, 0x0⟩,  -- CLU_STALL_BREAK, R180
  ⟨0x184, 1, 4, 0x0, 0x0, 0x0, 0x80000000, 0x0, 0x0, 0x0⟩,  -- CLU_STALL_STAT, R180
  ⟨0x190, 1, 4, 0x0, 0x0, 0x0, 0x0, 0xFFFFFFFF, 0x0, 0x0⟩,  -- DLV_LATE, R539
  ⟨0x194, 1, 4, 0x0, 0x0, 0x0, 0x0, 0xFFFFFFFF, 0x0, 0x0⟩  -- EVT_DISCARD, R539
]

/-- The registers of a CMEM page. -/
def cmemRegs : List RegDef := [
  ⟨0x100, 1, 4, 0xFFFFF, 0x0, 0x0, 0x0, 0x0, 0x0, 0x0⟩,  -- CMEM_FILL_ADDR, R257
  ⟨0x104, 1, 4, 0x1FFFFF, 0x0, 0x0, 0x0, 0x0, 0x0, 0x0⟩,  -- CMEM_FILL_LEN, R257
  ⟨0x108, 1, 4, 0xFFFFFFFF, 0x0, 0x0, 0x0, 0x0, 0x0, 0x0⟩,  -- CMEM_FILL_PAT_LO, R257
  ⟨0x10C, 1, 4, 0xFFFFFFFF, 0x0, 0x0, 0x0, 0x0, 0x0, 0x0⟩,  -- CMEM_FILL_PAT_HI, R257
  ⟨0x110, 1, 4, 0x0, 0x0, 0x0, 0x40000000, 0x0, 0x1, 0x0⟩,  -- CMEM_FILL_CTRL, R257
  ⟨0x114, 1, 4, 0xFF800, 0x0, 0x0, 0x0, 0x0, 0x0, 0x0⟩,  -- CMEM_WIN_BASE, R257
  ⟨0x118, 1, 4, 0x0, 0x0, 0x0, 0x0, 0xFFFF, 0x0, 0x0⟩,  -- CMEM_KEY_DENY, R257
  ⟨0x11C, 1, 4, 0x0, 0x0, 0x0, 0x0, 0xFFFF, 0x0, 0x0⟩,  -- CMEM_PROG_WR_REFUSED, R257
  ⟨0x800, 512, 4, 0xFFFFFFFF, 0x0, 0x0, 0x0, 0x0, 0x0, 0x0⟩  -- CMEM_WIN, R240
]

/-- The registers of a CDC page. -/
def cdcRegs : List RegDef := [
  ⟨0x100, 1, 4, 0x0, 0x0, 0x71, 0x0, 0x0, 0x0, 0x1⟩,  -- CDC_CTRL, R256
  ⟨0x104, 1, 4, 0x0, 0x0, 0x0, 0x0, 0x0, 0x0, 0x80000000⟩,  -- CDC_STAT, R256
  ⟨0x108, 1, 4, 0x0, 0x0, 0xFFFFF, 0x0, 0x0, 0x0, 0x0⟩,  -- CDC_APER_BASE, R256
  ⟨0x10C, 1, 4, 0x0, 0x0, 0xFFFF, 0x0, 0x0, 0x0, 0x0⟩,  -- CDC_APER_LIMIT, R256
  ⟨0x110, 1, 4, 0x0, 0x0, 0xFFFF, 0x0, 0x0, 0x0, 0x0⟩,  -- CDC_SPM_BASE, R256
  ⟨0x114, 1, 4, 0xFFFFFFFF, 0x0, 0x0, 0x0, 0x0, 0x0, 0x0⟩,  -- CDC_MAINT_ADDR, R256
  ⟨0x118, 1, 4, 0x0, 0x0, 0x0, 0x40000000, 0x0, 0xF, 0x0⟩,  -- CDC_MAINT, R256
  ⟨0x130, 1, 4, 0x0, 0x0, 0x0, 0x0, 0xFFFFFFFF, 0x0, 0x0⟩,  -- CDC_HIT_CNT, R256
  ⟨0x134, 1, 4, 0x0, 0x0, 0x0, 0x0, 0xFFFFFFFF, 0x0, 0x0⟩,  -- CDC_MISS_CNT, R256
  ⟨0x138, 1, 4, 0x0, 0x0, 0x0, 0x0, 0xFFFFFFFF, 0x0, 0x0⟩,  -- CDC_VREC_CNT, R256
  ⟨0x13C, 1, 4, 0x0, 0x0, 0x0, 0x0, 0xFFFF, 0x0, 0x0⟩  -- CDC_PAR_CNT, R256
]

/-- The registers of a ESC page. -/
def escRegs : List RegDef := [
  ⟨0x100, 1, 4, 0x3FF, 0x0, 0x0, 0x0, 0x0, 0x0, 0x0⟩,  -- ESC_LOCK_SEL, R170
  ⟨0x104, 1, 4, 0x0, 0x0, 0x0, 0x0, 0x0, 0x0, 0x0⟩,  -- ESC_LOCK_STAT, R171
  ⟨0x108, 1, 4, 0x0, 0x0, 0x0, 0x0, 0x0, 0x3FF, 0x0⟩,  -- ESC_FORCE_REL, R170
  ⟨0x10C, 1, 4, 0x0, 0x0, 0x0, 0x0, 0xFFFF0000, 0x0, 0x0⟩,  -- ESC_ABANDON_PTR, R173
  ⟨0x110, 1, 4, 0x0, 0x0, 0x0, 0x0, 0xFFFF, 0x0, 0x0⟩,  -- ESC_REL_FREE, R170
  ⟨0x200, 16, 8, 0x0, 0x0, 0x0, 0x80000000, 0x0, 0x0, 0x0⟩,  -- ESC_ABANDON_LOG_W0, R172
  ⟨0x204, 16, 8, 0x0, 0x0, 0x0, 0x0, 0x0, 0x0, 0x0⟩  -- ESC_ABANDON_LOG_W1, R170
]

/-- The registers of a CPX page. -/
def cpxRegs : List RegDef := [
  ⟨0x100, 4, 4, 0x0, 0x0, 0x0, 0x0, 0x0, 0x0, 0x0⟩,  -- CPX_CP_STAT, R211
  ⟨0x110, 1, 4, 0xF, 0x0, 0x0, 0x0, 0x0, 0x0, 0x0⟩,  -- CPX_CTRL, R211
  ⟨0x114, 1, 4, 0x0, 0x0, 0x0, 0x0, 0xFFFF, 0x0, 0x0⟩,  -- CPX_ABORT_CNT, R211
  ⟨0x118, 1, 4, 0x0, 0x0, 0x0, 0x0, 0x0, 0x0, 0x0⟩,  -- CPX_ABORT_LAST, R211
  ⟨0x120, 4, 4, 0x0, 0x0, 0x0, 0x0, 0xFFFFFFFF, 0x0, 0x0⟩  -- CPX_CMD_CNT, R211
]

/-- The registers of a TEL page. -/
def telRegs : List RegDef := [
  ⟨0x100, 1, 4, 0x3, 0x0, 0x0, 0x0, 0x0, 0x0, 0x0⟩,  -- TEL_CTRL, R231
  ⟨0x104, 1, 4, 0x0, 0x0, 0xFFFFF000, 0x0, 0x0, 0x0, 0x0⟩,  -- TEL_TCB_BASE_LO, R231
  ⟨0x108, 1, 4, 0x0, 0x0, 0xFFFFFFFF, 0x0, 0x0, 0x0, 0x0⟩,  -- TEL_TCB_BASE_HI, R231
  ⟨0x10C, 1, 4, 0x0, 0x0, 0x0, 0x0, 0x0, 0x0, 0x0⟩,  -- TEL_STAGE, R231
  ⟨0x110, 1, 4, 0x0, 0x0, 0xFFFFF000, 0x0, 0x0, 0x0, 0x0⟩,  -- TEL_HCMD_BASE_LO, R231
  ⟨0x114, 1, 4, 0x0, 0x0, 0xFFFFFFFF, 0x0, 0x0, 0x0, 0x0⟩,  -- TEL_HCMD_BASE_HI, R231
  ⟨0x118, 1, 4, 0x0, 0x0, 0x1F, 0x0, 0x0, 0x0, 0x0⟩,  -- TEL_HCMD_SIZE, R231
  ⟨0x11C, 1, 4, 0xFFFF, 0x0, 0x0, 0x0, 0x0, 0x0, 0x0⟩,  -- TEL_HCMD_PROD, R231
  ⟨0x120, 1, 4, 0x0, 0x0, 0x0, 0x0, 0x0, 0x0, 0x0⟩,  -- TEL_HCMD_CONS, R231
  ⟨0x130, 1, 4, 0x0, 0x0, 0xFFFFF000, 0x0, 0x0, 0x0, 0x0⟩,  -- TEL_LDG_BASE_LO, R231
  ⟨0x134, 1, 4, 0x0, 0x0, 0xFFFFFFFF, 0x0, 0x0, 0x0, 0x0⟩,  -- TEL_LDG_BASE_HI, R231
  ⟨0x138, 1, 4, 0x0, 0x0, 0x1F, 0x0, 0x0, 0x0, 0x0⟩,  -- TEL_LDG_SIZE, R231
  ⟨0x13C, 1, 4, 0x0, 0x0, 0x0, 0x0, 0x0, 0x0, 0x0⟩,  -- TEL_LDG_WR, R231
  ⟨0x140, 1, 4, 0xFFFFF, 0x0, 0x0, 0x0, 0x0, 0x0, 0x0⟩,  -- TEL_LDG_RD, R231
  ⟨0x144, 1, 4, 0x0, 0x0, 0x0, 0x0, 0xFFFFFFFF, 0x0, 0x0⟩,  -- TEL_LDG_LOST, R231
  ⟨0x148, 1, 4, 0x0, 0x0, 0x0, 0x0, 0xFFFF, 0x0, 0x0⟩,  -- TEL_BADCMD, R231
  ⟨0x14C, 1, 4, 0x0, 0x0, 0x0, 0x0, 0xFFFF, 0x0, 0x0⟩,  -- TEL_NOPLACE_CNT, R231
  ⟨0x800, 512, 4, 0x80000FFF, 0x0, 0x0, 0x0, 0x0, 0x0, 0x0⟩  -- TEL_BIND, R231
]

/-- The registers of a POL page. -/
def polRegs : List RegDef := [
  ⟨0x100, 1, 4, 0x0, 0x0, 0x0, 0x0, 0x0, 0xFFFFF, 0x0⟩,  -- POL_WR_CMD, R326
  ⟨0x120, 8, 4, 0xFFFFFFFF, 0x0, 0x0, 0x0, 0x0, 0x0, 0x0⟩,  -- POL_WR_DATA, R326
  ⟨0x140, 1, 4, 0x80003FFF, 0x0, 0x0, 0x40000000, 0x0, 0x0, 0x0⟩,  -- POL_WLOCK, R326
  ⟨0x144, 1, 4, 0xFFFF, 0x0, 0x0, 0x0, 0x0, 0x0, 0x32⟩,  -- POL_WLOCK_TMO, R326
  ⟨0x148, 1, 4, 0x0, 0x0, 0x0, 0x0, 0x0, 0x0, 0x0⟩,  -- POL_GSHADOW_OCC, R326
  ⟨0x150, 4, 4, 0x0, 0x0, 0x0, 0x0, 0x0, 0x0, 0x0⟩  -- POL_CNT, R326
]

/-- The registers of a MAC page. -/
def macRegs : List RegDef := [
  ⟨0x100, 1, 4, 0x0, 0x0, 0xC3, 0x0, 0x0, 0x0, 0x0⟩,  -- MAC_SLICE_CFG, R290
  ⟨0x110, 8, 4, 0x80000000, 0x0, 0xFC03FFF, 0x0, 0x0, 0x0, 0x5F2⟩,  -- MAC_PORT_CFG, R290
  ⟨0x140, 1, 4, 0x0, 0x0, 0x0, 0x0, 0x80FF0007, 0x0, 0x0⟩,  -- MAC_TS_INFO, R290
  ⟨0x144, 1, 4, 0x0, 0x0, 0x0, 0x0, 0x0, 0x0, 0x0⟩,  -- MAC_TS_LO, R290
  ⟨0x148, 1, 4, 0x0, 0x0, 0x0, 0x0, 0x0, 0x0, 0x0⟩,  -- MAC_TS_HI, R290
  ⟨0x160, 8, 4, 0xFFFFFFFF, 0x0, 0x0, 0x0, 0x0, 0x0, 0x0⟩,  -- MAC_TS_ADJ, R290
  ⟨0x200, 128, 4, 0x0, 0x0, 0x0, 0x0, 0xFFFFFFFF, 0x0, 0x0⟩  -- MAC_CNT, R291
]

/-- The registers of a PRS page. -/
def prsRegs : List RegDef := [
  ⟨0x100, 1, 4, 0x0, 0xE000000, 0xC0000000, 0x0, 0x0, 0x0, 0xC000000⟩,  -- PRS_CTRL, R292
  ⟨0x110, 5, 4, 0x0, 0x0, 0x0, 0x0, 0xFFFFFFFF, 0x0, 0x0⟩  -- PRS_CNT, R292
]

/-- The registers of a CPH page. -/
def cphRegs : List RegDef := [
  ⟨0x100, 1, 4, 0x0, 0xFFFF, 0x0, 0x0, 0x0, 0x0, 0x88B5⟩,  -- CPH_CTRL, R358
  ⟨0x104, 1, 4, 0x0, 0x0, 0x0, 0x80000000, 0x0, 0x0, 0x0⟩,  -- CPH_LAST_DROP, R358
  ⟨0x110, 19, 4, 0x0, 0x0, 0x0, 0x0, 0xFFFFFFFF, 0x0, 0x0⟩  -- CPH_CNT, R356
]

/-- The registers of a CLS page. -/
def clsRegs : List RegDef := [
  ⟨0x100, 1, 4, 0x0, 0x0, 0x0, 0x0, 0x0, 0x0, 0x0⟩,  -- CLS_CAL_STAT, R80
  ⟨0x110, 1, 4, 0x38F00000, 0x0, 0xC0000000, 0x0, 0x0, 0x0, 0x18100000⟩,  -- CLS_FT_CTRL, R326
  ⟨0x114, 1, 4, 0x0, 0x0, 0xFFFFFFFF, 0x0, 0x0, 0x0, 0xFFFFFFFF⟩,  -- CLS_FT_SEED0, R326
  ⟨0x118, 1, 4, 0x0, 0x0, 0xFFFFFFFF, 0x0, 0x0, 0x0, 0xFFFFFFFF⟩,  -- CLS_FT_SEED1, R326
  ⟨0x11C, 1, 4, 0x0, 0x0, 0xC0000000, 0x0, 0x0, 0x0, 0x0⟩,  -- CLS_FT_DRAM_BASE_LO, R326
  ⟨0x120, 1, 4, 0x0, 0x0, 0xFFFFFFFF, 0x0, 0x0, 0x0, 0x0⟩,  -- CLS_FT_DRAM_BASE_HI, R326
  ⟨0x124, 1, 4, 0x0, 0x0, 0x0, 0x0, 0x0, 0x0, 0x0⟩,  -- CLS_FT_OCC, R326
  ⟨0x128, 1, 4, 0x0, 0x0, 0x0, 0x0, 0x0, 0x0, 0x0⟩,  -- CLS_FT_DOCC, R326
  ⟨0x130, 1, 4, 0x80003FFF, 0x0, 0x0, 0x40000000, 0x0, 0x0, 0x0⟩,  -- CLS_WLOCK, R326
  ⟨0x134, 1, 4, 0xFFFF, 0x0, 0x0, 0x0, 0x0, 0x0, 0x32⟩,  -- CLS_WLOCK_TMO, R326
  ⟨0x140, 1, 4, 0x0, 0x0, 0x0, 0x0, 0x0, 0xFFFFFFFF, 0x0⟩,  -- CLS_FT_CMD, R326
  ⟨0x144, 1, 4, 0x0, 0x0, 0x0, 0x0, 0x0, 0x0, 0x0⟩,  -- CLS_FT_STAT, R326
  ⟨0x148, 1, 4, 0xFFFFFFFF, 0x0, 0x0, 0x0, 0x0, 0x0, 0x0⟩,  -- CLS_FT_LOC, R326
  ⟨0x14C, 1, 4, 0x3FFF, 0x0, 0x0, 0x0, 0x0, 0x0, 0x0⟩,  -- CLS_FT_OWNER, R326
  ⟨0x150, 1, 4, 0x0, 0x0, 0x0, 0x0, 0xFFFFFFFF, 0x0, 0x0⟩,  -- CLS_FT_UE, R326
  ⟨0x154, 1, 4, 0x0, 0x0, 0x0, 0x0, 0xFFFFFFFF, 0x0, 0x0⟩,  -- CLS_FT_LATE, R326
  ⟨0x158, 1, 4, 0x0, 0x0, 0x0, 0x0, 0xFFFFFFFF, 0x0, 0x0⟩,  -- CLS_FT_CMD_LOST, R326
  ⟨0x15C, 1, 4, 0x0, 0x0, 0x0, 0x0, 0xFFFFFFFF, 0x0, 0x0⟩,  -- CLS_NO_MATCH, R326
  ⟨0x180, 16, 4, 0xFFFFFFFF, 0x0, 0x0, 0x0, 0x0, 0x0, 0x0⟩,  -- CLS_FT_ENTRY, R326
  ⟨0x200, 4, 16, 0x0, 0x0, 0xFFFFFFFF, 0x0, 0x0, 0x0, 0x0⟩,  -- CLS_FT_RING_BASE_LO, R326
  ⟨0x204, 4, 16, 0x0, 0x0, 0xFFFFFFFF, 0x0, 0x0, 0x0, 0x0⟩,  -- CLS_FT_RING_BASE_HI, R326
  ⟨0x208, 4, 16, 0x0, 0x0, 0x1F, 0x0, 0x0, 0x0, 0x0⟩,  -- CLS_FT_RING_SIZE, R326
  ⟨0x300, 64, 4, 0x0, 0xC00000FF, 0x0, 0x0, 0x0, 0x0, 0x0⟩,  -- CLS_FT_PORT_CFG, R326
  ⟨0x400, 32, 8, 0x0, 0xFFFFFF, 0x0, 0x0, 0x0, 0x0, 0x80⟩,  -- CLS_PUNT_RATE, R294
  ⟨0x404, 32, 8, 0x0, 0xFFFFFF, 0x0, 0x0, 0x0, 0x0, 0x4000⟩,  -- CLS_PUNT_BURST, R294
  ⟨0x500, 1, 4, 0x0, 0x0, 0x0, 0x0, 0xFFFFFFFF, 0x0, 0x0⟩,  -- CAL_LOST, R539
  ⟨0x504, 1, 4, 0x0, 0x0, 0x0, 0x0, 0xFFFFFFFF, 0x0, 0x0⟩,  -- SEAM_SKIP, R539
  ⟨0x508, 1, 4, 0x0, 0x0, 0x0, 0x0, 0xFFFFFFFF, 0x0, 0x0⟩,  -- RET_LATE, R539
  ⟨0x50C, 4, 4, 0x0, 0x0, 0x0, 0x0, 0xFFFFFFFF, 0x0, 0x0⟩,  -- LINK_SKIP, R539
  ⟨0x51C, 1, 4, 0x0, 0x0, 0x0, 0x0, 0xFFFFFFFF, 0x0, 0x0⟩,  -- RECIRC_LIMIT, R539
  ⟨0x520, 1, 4, 0x0, 0x0, 0x0, 0x0, 0xFFFFFFFF, 0x0, 0x0⟩,  -- RESULT_BAD, R539
  ⟨0x524, 1, 4, 0x0, 0x0, 0x0, 0x0, 0xFFFFFFFF, 0x0, 0x0⟩,  -- REC_UE, R539
  ⟨0x528, 1, 4, 0x0, 0x0, 0x0, 0x0, 0xFFFFFFFF, 0x0, 0x0⟩,  -- DBG_DROP, R539
  ⟨0x52C, 1, 4, 0x0, 0x0, 0x0, 0x0, 0xFFFFFFFF, 0x0, 0x0⟩,  -- TRAP_DROP, R539
  ⟨0x600, 32, 8, 0x0, 0x0, 0x0, 0x0, 0xFFFFFFFF, 0x0, 0x0⟩,  -- CLS_PUNT_PASS, R294
  ⟨0x604, 32, 8, 0x0, 0x0, 0x0, 0x0, 0xFFFFFFFF, 0x0, 0x0⟩  -- CLS_PUNT_DROP, R294
]

/-- The registers of a FRG page. -/
def frgRegs : List RegDef := [
  ⟨0x100, 1, 4, 0x0, 0x8000FFFF, 0x0, 0x0, 0x0, 0x0, 0x7D0⟩,  -- FRG_CTRL, R293
  ⟨0x110, 1, 4, 0x0, 0x0, 0x0, 0x0, 0xFFFFFFFF, 0x0, 0x0⟩,  -- FRG_FULL, R293
  ⟨0x114, 1, 4, 0x0, 0x0, 0x0, 0x0, 0xFFFFFFFF, 0x0, 0x0⟩,  -- FRG_ORPHAN, R293
  ⟨0x118, 1, 4, 0x0, 0x0, 0x0, 0x0, 0x0, 0x0, 0x0⟩  -- FRG_WAIT_OCC, R293
]

/-- The registers of a LRN page. -/
def lrnRegs : List RegDef := [
  ⟨0x100, 1, 4, 0x0, 0xC000FFFF, 0x0, 0x0, 0x0, 0x0, 0x3E8⟩,  -- LRN_CTRL, R326
  ⟨0x104, 1, 4, 0x0, 0x0, 0x0, 0x0, 0xFFFFFFFF, 0x0, 0x0⟩,  -- LRN_OVF, R326
  ⟨0x108, 1, 4, 0x0, 0x0, 0x0, 0x0, 0xFFFFFFFF, 0x0, 0x0⟩,  -- LRN_FULL, R326
  ⟨0x10C, 1, 4, 0x0, 0x0, 0x0, 0x0, 0xFFFFFFFF, 0x0, 0x0⟩,  -- LRN_STATIC_MISMATCH, R326
  ⟨0x110, 1, 4, 0x0, 0x0, 0x0, 0x0, 0xFFFFFFFF, 0x0, 0x0⟩,  -- LRN_MOVES, R326
  ⟨0x114, 1, 4, 0x0, 0x0, 0x0, 0x0, 0xFFFF0000, 0x0, 0x0⟩,  -- LRN_LOG_PTR, R326
  ⟨0x200, 16, 16, 0x0, 0x0, 0x0, 0x80000000, 0x0, 0x0, 0x0⟩,  -- LRN_LOG_W0, R326
  ⟨0x204, 16, 16, 0x0, 0x0, 0x0, 0x0, 0x0, 0x0, 0x0⟩,  -- LRN_LOG_W1, R326
  ⟨0x208, 16, 16, 0x0, 0x0, 0x0, 0x0, 0x0, 0x0, 0x0⟩,  -- LRN_LOG_W2, R326
  ⟨0x20C, 16, 16, 0x0, 0x0, 0x0, 0x0, 0x0, 0x0, 0x0⟩,  -- LRN_LOG_W3, R326
  ⟨0x400, 128, 4, 0x0, 0xFFFF7FFF, 0x0, 0x0, 0x0, 0x0, 0x0⟩,  -- LRN_TMPL, R326
  ⟨0x600, 128, 4, 0x0, 0xFFFFF, 0x0, 0x0, 0x0, 0x0, 0x0⟩  -- LRN_TMPL_SA, R326
]

/-- The registers of a SAT page. -/
def satRegs : List RegDef := [
  ⟨0x100, 1, 4, 0x0, 0x0, 0x0, 0x0, 0x0, 0xF, 0x0⟩,  -- SAT_CMD, R357
  ⟨0x104, 1, 4, 0xFFFFF, 0x0, 0x0, 0x0, 0x0, 0x0, 0x0⟩,  -- SAT_INDEX, R357
  ⟨0x108, 1, 4, 0x3FFF, 0x0, 0x0, 0x0, 0x0, 0x0, 0x0⟩,  -- SAT_OWNER, R357
  ⟨0x110, 1, 4, 0x0, 0x0, 0x0, 0x0, 0xC00FFFFF, 0x0, 0x0⟩,  -- SAT_LIFE_FIFO, R357
  ⟨0x114, 1, 4, 0x0, 0x0, 0x0, 0x0, 0xFFFF, 0x0, 0x0⟩,  -- SAT_LIFE_LOST, R357
  ⟨0x130, 1, 4, 0x80003FFF, 0x0, 0x0, 0x40000000, 0x0, 0x0, 0x0⟩,  -- SAT_WLOCK, R326
  ⟨0x134, 1, 4, 0xFFFF, 0x0, 0x0, 0x0, 0x0, 0x0, 0x32⟩,  -- SAT_WLOCK_TMO, R326
  ⟨0x150, 3, 4, 0x0, 0x0, 0x0, 0x0, 0xFFFFFFFF, 0x0, 0x0⟩,  -- SA_CNT, R357
  ⟨0x180, 24, 4, 0xFFFFFFFF, 0x0, 0x0, 0x0, 0x0, 0x0, 0x0⟩  -- SAT_DATA, R357
]

/-- The registers of a VLT page. -/
def vltRegs : List RegDef := [
  ⟨0x100, 1, 4, 0x0, 0x0, 0x0, 0x0, 0x0, 0x8007FFFF, 0x0⟩,  -- VLT_CLR, R359
  ⟨0x104, 1, 4, 0x0, 0x0, 0x0, 0x40000000, 0x0, 0x0, 0x0⟩,  -- VLT_STAT, R359
  ⟨0x108, 1, 4, 0x0, 0x0, 0x0, 0x0, 0xFFFFFFFF, 0x0, 0x0⟩,  -- VLT_WR_CNT, R359
  ⟨0x10C, 1, 4, 0x0, 0x0, 0x0, 0x0, 0xFFFF, 0x0, 0x0⟩  -- VLT_REFUSED, R359
]

/-- The registers of a BPM page. -/
def bpmRegs : List RegDef := [
  ⟨0x100, 1, 4, 0x0, 0x0, 0x0, 0x0, 0x0, 0xFFFFFFFF, 0x0⟩,  -- BPM_CMD, R378
  ⟨0x104, 1, 4, 0xFC03FFFF, 0x0, 0x0, 0x0, 0x0, 0x0, 0x0⟩,  -- BPM_HANDLE, R361, R378
  ⟨0x108, 1, 4, 0x3FFF, 0x0, 0x0, 0x0, 0x0, 0x0, 0x0⟩,  -- BPM_OWNER, R378
  ⟨0x10C, 1, 4, 0x0, 0x0, 0xFC000000, 0x0, 0x0, 0x0, 0x0⟩,  -- BPM_DRING_BASE_LO, R378
  ⟨0x110, 1, 4, 0x0, 0x0, 0xFFFFFFFF, 0x0, 0x0, 0x0, 0x0⟩,  -- BPM_DRING_BASE_HI, R378
  ⟨0x114, 1, 4, 0x3FFF, 0x0, 0x0, 0x20000000, 0x0, 0x80000000, 0x0⟩,  -- BPM_SWEEP, R378
  ⟨0x118, 1, 4, 0x3FFF, 0x0, 0x0, 0x0, 0x0, 0x0, 0x0⟩,  -- BPM_SWEEP_MASK, R378
  ⟨0x11C, 9, 4, 0x0, 0x0, 0x0, 0x0, 0xFFFFFFFF, 0x0, 0x0⟩,  -- BPM_CNT, R378
  ⟨0x140, 4, 16, 0x0, 0x0, 0xFFFFFFFF, 0x0, 0x0, 0x0, 0x0⟩,  -- BPM_RING_BASE_LO, R378
  ⟨0x144, 4, 16, 0x0, 0x0, 0xFFFFFFFF, 0x0, 0x0, 0x0, 0x0⟩,  -- BPM_RING_BASE_HI, R378
  ⟨0x148, 4, 16, 0x0, 0x0, 0x1F, 0x0, 0x0, 0x0, 0x0⟩,  -- BPM_RING_SIZE, R378
  ⟨0x180, 8, 8, 0x0, 0x0, 0x0, 0x80000000, 0x0, 0x0, 0x0⟩,  -- BPM_BADFREE_LOG_W0, R378
  ⟨0x184, 8, 8, 0x0, 0x0, 0x0, 0x0, 0x0, 0x0, 0x0⟩,  -- BPM_BADFREE_LOG_W1, R378
  ⟨0x1C0, 1, 4, 0x0, 0x0, 0x0, 0x0, 0xFFFF, 0x0, 0x0⟩,  -- BPM_BADFREE_LOST, R378
  ⟨0x200, 138, 8, 0x0, 0x3FFFFFF, 0xFC000000, 0x0, 0x0, 0x0, 0x0⟩,  -- BPM_ACCT_W0, R378
  ⟨0x204, 138, 8, 0x0, 0x0, 0x0, 0x0, 0x0, 0x0, 0x0⟩,  -- BPM_ACCT_W1, R378
  ⟨0x800, 64, 32, 0x0, 0xFFFFFF, 0xB8000000, 0x0, 0x0, 0x0, 0xFFFF⟩,  -- BPM_POOL_CFG, R378
  ⟨0x804, 64, 32, 0x0, 0x0, 0x3FFFF, 0x0, 0x0, 0x0, 0x0⟩,  -- BPM_POOL_BASE, R378
  ⟨0x808, 64, 32, 0x0, 0x0, 0x3FFFF, 0x0, 0x0, 0x0, 0x0⟩,  -- BPM_POOL_SIZE, R378
  ⟨0x80C, 64, 32, 0x0, 0xFFFFFFFF, 0x0, 0x0, 0x0, 0x0, 0xFFFFFFFF⟩,  -- BPM_POOL_THR_LO, R378
  ⟨0x810, 64, 32, 0x0, 0xFFFFFFFF, 0x0, 0x0, 0x0, 0x0, 0xFFFFFFFF⟩,  -- BPM_POOL_THR_HI, R378
  ⟨0x814, 64, 32, 0x0, 0x1FFC0000, 0x0, 0x0, 0x0, 0x0, 0x800000⟩,  -- BPM_POOL_STAT, R378
  ⟨0x818, 64, 32, 0x0, 0x0, 0x0, 0x0, 0x0, 0x0, 0x0⟩,  -- BPM_POOL_FREE, R378
  ⟨0x81C, 64, 32, 0x0, 0x0, 0x3FFFF, 0x0, 0x0, 0x0, 0x0⟩  -- BPM_POOL_RING_CELL, R378
]

/-- The registers of a TM page. -/
def tmRegs : List RegDef := [
  ⟨0x100, 1, 4, 0x0, 0x0, 0x0, 0x0, 0x0, 0x3707FFF, 0x0⟩,  -- TM_IND_CMD, R398
  ⟨0x120, 8, 4, 0xFFFFFFFF, 0x0, 0x0, 0x0, 0x0, 0x0, 0x0⟩,  -- TM_IND_DATA, R398
  ⟨0x140, 1, 4, 0x3FF, 0x0, 0x0, 0x0, 0x0, 0x0, 0x0⟩,  -- TM_TPL_SEL, R398
  ⟨0x150, 8, 4, 0x0, 0x0, 0x0, 0x0, 0xFFFFFFFF, 0x0, 0x0⟩,  -- TM_CNT, R398
  ⟨0x400, 64, 4, 0xFF0000, 0x80007FFF, 0x0, 0x0, 0x0, 0x0, 0x140000⟩,  -- TM_PORT_CFG, R398
  ⟨0x800, 64, 4, 0xFFFFFFFF, 0x0, 0x0, 0x0, 0x0, 0x0, 0x0⟩  -- TM_TPL, R398
]

/-- The registers of a DMC page. -/
def dmcRegs : List RegDef := [
  ⟨0x100, 1, 4, 0x0, 0x0, 0x0, 0x0, 0x0, 0x1, 0x0⟩,  -- DMC_CTRL, R453
  ⟨0x104, 1, 4, 0x0, 0x0, 0x0, 0x0, 0x0, 0x0, 0x0⟩,  -- DMC_STAT, R453
  ⟨0x108, 1, 4, 0x0, 0x0, 0x0, 0x0, 0x0, 0x0, 0x0⟩,  -- DMC_REF_STAT, R453
  ⟨0x10C, 1, 4, 0x0, 0x0, 0x0, 0x0, 0x0, 0x0, 0x0⟩,  -- DMC_MR4, R453
  ⟨0x110, 6, 4, 0x0, 0x0, 0x0, 0x0, 0xFFFFFFFF, 0x0, 0x0⟩,  -- DMC_CNT, R453
  ⟨0x130, 1, 4, 0xFFFFF, 0x0, 0x0, 0x0, 0x0, 0x0, 0x0⟩,  -- DMC_FILL_START, R453
  ⟨0x134, 1, 4, 0x1FFFFF, 0x0, 0x0, 0x0, 0x0, 0x0, 0x0⟩,  -- DMC_FILL_LEN, R453
  ⟨0x138, 1, 4, 0xFFFFFFFF, 0x0, 0x0, 0x0, 0x0, 0x0, 0x0⟩,  -- DMC_FILL_PAT_LO, R453
  ⟨0x13C, 1, 4, 0xFFFFFFFF, 0x0, 0x0, 0x0, 0x0, 0x0, 0x0⟩,  -- DMC_FILL_PAT_HI, R453
  ⟨0x140, 1, 4, 0x0, 0x0, 0x0, 0x40000000, 0x0, 0x1, 0x0⟩,  -- DMC_FILL_CTRL, R453
  ⟨0x180, 1, 4, 0xFFFFFFFF, 0x0, 0x0, 0x0, 0x0, 0x0, 0x0⟩,  -- DMC_TRN_CTRL, R453
  ⟨0x184, 1, 4, 0xFFFFFFFF, 0x0, 0x0, 0x0, 0x0, 0x0, 0x0⟩,  -- DMC_TRN_SEED, R453
  ⟨0x1C0, 16, 4, 0xFFFFFFFF, 0x0, 0x0, 0x0, 0x0, 0x0, 0x0⟩,  -- DMC_TRN_PAT, R453
  ⟨0x200, 18, 4, 0x0, 0x0, 0x0, 0x0, 0xFFFF, 0x0, 0x0⟩,  -- DMC_TRN_ERR, R453
  ⟨0x300, 64, 4, 0x0, 0x0, 0x0, 0x0, 0x0, 0x0, 0x0⟩,  -- DMC_REMAP, R451
  ⟨0x400, 4, 8, 0x0, 0x0, 0x8000001F, 0x0, 0x0, 0x20000000, 0x0⟩,  -- DMC_MIR_W0, R453
  ⟨0x404, 4, 8, 0x0, 0x0, 0x1F, 0x0, 0x0, 0x0, 0x0⟩  -- DMC_MIR_W1, R453
]

/-- The registers of a EPC page. -/
def epcRegs : List RegDef := [
  ⟨0x100, 1, 4, 0xF0000000, 0x0, 0x0, 0x0, 0x0, 0x0, 0x0⟩,  -- EPC_CTRL, R424
  ⟨0x104, 1, 4, 0x0, 0x3FFFFFF, 0x0, 0x0, 0x0, 0x0, 0xF4240⟩,  -- EPC_LEN, R424
  ⟨0x108, 1, 4, 0x0, 0x0, 0x3FFFFFF, 0x0, 0x0, 0x0, 0x0⟩,  -- EPC_PHASE, R424
  ⟨0x10C, 1, 4, 0xFFFF, 0x0, 0x0, 0x0, 0x0, 0x0, 0x0⟩,  -- EPC_SYNC_COMP, R424
  ⟨0x110, 1, 4, 0x0, 0x0, 0x0, 0x0, 0x0, 0x0, 0x0⟩,  -- EPC_EPOCH, R424
  ⟨0x114, 1, 4, 0x0, 0x0, 0x0, 0x0, 0x0, 0x0, 0x0⟩,  -- EPC_NEXT_LO, R424
  ⟨0x118, 1, 4, 0x0, 0x0, 0x0, 0x0, 0x0, 0x0, 0x0⟩,  -- EPC_NEXT_HI, R424
  ⟨0x11C, 1, 4, 0x0, 0x0, 0x0, 0x0, 0x0, 0x0, 0x0⟩,  -- EPC_GEN, R424
  ⟨0x120, 1, 4, 0x0, 0x0, 0x0, 0x40000000, 0x0, 0x0, 0x0⟩,  -- EPC_COMMIT_STAT, R424
  ⟨0x124, 1, 4, 0x0, 0x0, 0x0, 0x0, 0x0, 0x0, 0x0⟩,  -- EPC_SYNC_LAST, R424
  ⟨0x128, 7, 4, 0x0, 0x0, 0x0, 0x0, 0xFFFFFFFF, 0x0, 0x0⟩,  -- EPC_CNT, R424
  ⟨0x144, 1, 4, 0xFFFF, 0x0, 0x0, 0x0, 0x0, 0x0, 0x2710⟩,  -- EPC_DRAIN_TMO, R424
  ⟨0x148, 1, 4, 0x0, 0x3, 0x0, 0x0, 0x0, 0x0, 0x0⟩,  -- EPC_CAL, R424
  ⟨0x150, 1, 4, 0x0, 0x0, 0x0, 0x0, 0x0, 0x0, 0x0⟩,  -- EPC_TB_LO, R424
  ⟨0x154, 1, 4, 0x0, 0x0, 0x0, 0x0, 0x0, 0x0, 0x0⟩,  -- EPC_TB_HI, R424
  ⟨0x158, 1, 4, 0xFFFFFFFF, 0x0, 0x0, 0x0, 0x0, 0x0, 0x0⟩,  -- EPC_TB_RATE, R424
  ⟨0x15C, 1, 4, 0x0, 0x0, 0x0, 0x0, 0x0, 0xFFFFFFFF, 0x0⟩,  -- EPC_TB_STEP_LO, R424
  ⟨0x160, 1, 4, 0x0, 0x0, 0x0, 0x0, 0x0, 0xFFFFFFFF, 0x0⟩,  -- EPC_TB_STEP_HI, R424
  ⟨0x164, 1, 4, 0x0, 0x0, 0x0, 0x0, 0x0, 0x0, 0x0⟩,  -- EPC_PPS_CAP_LO, R424
  ⟨0x168, 1, 4, 0x0, 0x0, 0x0, 0x0, 0x0, 0x0, 0x0⟩,  -- EPC_PPS_CAP_HI, R424
  ⟨0x170, 1, 4, 0x0, 0x0, 0x0, 0x0, 0x0, 0x0, 0x0⟩  -- EPC_PROFILE, R424
]

/-- The registers of a PWR page. -/
def pwrRegs : List RegDef := [
  ⟨0x100, 1, 4, 0x0, 0x0, 0x0, 0x0, 0x0, 0x0, 0x0⟩,  -- PWR_FEED_STAT, R500
  ⟨0x104, 1, 4, 0x8000FFFF, 0x0, 0x0, 0x0, 0x0, 0x0, 0x64⟩,  -- PWR_RETURN_HOLD, R500
  ⟨0x108, 1, 4, 0x0, 0x0, 0x0, 0x0, 0x0, 0x0, 0x0⟩,  -- PWR_VIN, R500
  ⟨0x10C, 1, 4, 0x0, 0x0, 0x0, 0x0, 0xFFFFFFFF, 0x0, 0x0⟩,  -- PWR_SWITCH_CNT, R500
  ⟨0x110, 1, 4, 0x0, 0x0, 0x0, 0x0, 0xFFFF, 0x0, 0x0⟩,  -- PWR_RET_DEFER, R500
  ⟨0x114, 1, 4, 0x0, 0x0, 0x0, 0x0, 0x0, 0x0, 0x0⟩,  -- PWR_STAT, R500
  ⟨0x120, 1, 4, 0x3, 0x0, 0x0, 0x0, 0x0, 0x0, 0x33⟩,  -- PWR_DVFS, R500
  ⟨0x130, 1, 4, 0x0, 0x0, 0x0, 0x0, 0x0, 0x37F, 0x0⟩,  -- PWR_DOM_CMD, R500
  ⟨0x134, 1, 4, 0x0, 0x0, 0x0, 0x0, 0xFFFF, 0x0, 0x0⟩,  -- PWR_DOM_DENY, R500
  ⟨0x140, 7, 4, 0x0, 0x0, 0x0, 0x0, 0x0, 0x0, 0x0⟩,  -- PWR_DOM_STAT, R500
  ⟨0x160, 1, 4, 0xFF, 0x0, 0x0, 0x0, 0x0, 0x0, 0x64⟩,  -- PWR_THERM, R500
  ⟨0x200, 46, 4, 0x0, 0x0, 0x0, 0x0, 0x0, 0x0, 0x0⟩  -- PWR_TEMP, R500
]

/-- The registers of a CLK page. -/
def clkRegs : List RegDef := [
  ⟨0x100, 1, 4, 0x0, 0x0, 0x0, 0x0, 0x0, 0x0, 0x0⟩  -- CLK_STAT, R501
]

/-- The registers of a FMG page. -/
def fmgRegs : List RegDef := [
  ⟨0x100, 1, 4, 0xC0000000, 0x0, 0x0, 0x0, 0x0, 0x0, 0x40000000⟩,  -- FMG_CTRL, R521
  ⟨0x104, 1, 4, 0x0, 0x0, 0x0, 0x0, 0x0, 0x0, 0x0⟩,  -- FMG_STAT, R521
  ⟨0x10C, 1, 4, 0x0, 0x0, 0x0, 0x0, 0xFFFF, 0x0, 0x0⟩,  -- FMG_Q_LOST, R521
  ⟨0x110, 1, 4, 0x0, 0x0, 0x0, 0x0, 0x0, 0x0, 0x0⟩,  -- FMG_CAL_MAP, R521
  ⟨0x118, 2, 4, 0x0, 0x0, 0x0, 0x0, 0x0, 0x0, 0x0⟩,  -- FMG_RETIRED, R521
  ⟨0x120, 4, 4, 0x0, 0x0, 0x0, 0x0, 0x0, 0x0, 0x0⟩,  -- FMG_Q_HEAD, R521
  ⟨0x130, 1, 4, 0x0, 0x0, 0x0, 0x0, 0x0, 0x1, 0x0⟩,  -- FMG_Q_POP, R521
  ⟨0x140, 16, 4, 0x0, 0x0, 0x0, 0xFFFFFFFF, 0x0, 0x0, 0x0⟩  -- FMG_FATAL_PEND, R521
]

/-- The registers of a SEC page. -/
def secRegs : List RegDef := [
  ⟨0x100, 1, 4, 0x0, 0x0, 0x0, 0x0, 0x0, 0x0, 0x0⟩,  -- SEC_STAT, R477
  ⟨0x104, 1, 4, 0x0, 0x0, 0x0, 0x0, 0x0, 0x0, 0x0⟩,  -- SEC_BOOT_STAT, R477
  ⟨0x108, 1, 4, 0x0, 0x0, 0x0, 0x0, 0x0, 0x0, 0x0⟩,  -- SEC_ZERO_CNT, R477
  ⟨0x10C, 1, 4, 0x0, 0x0, 0x0, 0x0, 0x0, 0x0, 0x0⟩,  -- SEC_DBG_PERM, R477
  ⟨0x110, 1, 4, 0x0, 0x0, 0x0, 0x0, 0x0, 0x0, 0x0⟩  -- SEC_KEK_OCC, R477
]

/-- The registers of a HST page. -/
def hstRegs : List RegDef := [
  ⟨0x100, 4, 4, 0x0, 0xFFFFFFFF, 0x0, 0x0, 0x0, 0x0, 0x0⟩,  -- HST_PUNT_MAP, R561
  ⟨0x110, 1, 4, 0x0, 0x0, 0x0, 0x0, 0xFFFFFFFF, 0x0, 0x0⟩,  -- HST_ACC_CNT, R561
  ⟨0x114, 1, 4, 0x0, 0x0, 0x0, 0x0, 0xFFFFFFFF, 0x0, 0x0⟩,  -- HST_BAR2_DENY, R561
  ⟨0x120, 1, 4, 0xFFFFFFFF, 0x0, 0x0, 0x0, 0x0, 0x0, 0x0⟩,  -- HST_BOOT_ADDR_LO, R561
  ⟨0x124, 1, 4, 0xFFFFFFFF, 0x0, 0x0, 0x0, 0x0, 0x0, 0x0⟩,  -- HST_BOOT_ADDR_HI, R561
  ⟨0x128, 1, 4, 0xFFFFFFFF, 0x0, 0x0, 0x0, 0x0, 0x0, 0x0⟩,  -- HST_BOOT_LEN, R561
  ⟨0x12C, 1, 4, 0x0, 0x0, 0x0, 0x2, 0x0, 0x1, 0x0⟩,  -- HST_BOOT_CTRL, R561
  ⟨0x140, 1, 4, 0x1, 0x0, 0x0, 0x0, 0x0, 0x0, 0x0⟩,  -- HST_FILL_DIE, R561
  ⟨0x144, 1, 4, 0xFFFFF, 0x0, 0x0, 0x0, 0x0, 0x0, 0x0⟩,  -- HST_FILL_START, R561
  ⟨0x148, 1, 4, 0x1FFFFF, 0x0, 0x0, 0x0, 0x0, 0x0, 0x0⟩,  -- HST_FILL_LEN, R561
  ⟨0x14C, 1, 4, 0xFFFFFFFF, 0x0, 0x0, 0x0, 0x0, 0x0, 0x0⟩,  -- HST_FILL_PAT_LO, R561
  ⟨0x150, 1, 4, 0xFFFFFFFF, 0x0, 0x0, 0x0, 0x0, 0x0, 0x0⟩,  -- HST_FILL_PAT_HI, R561
  ⟨0x154, 1, 4, 0x0, 0x0, 0x0, 0x40000000, 0x0, 0x1, 0x0⟩,  -- HST_FILL_CTRL, R561
  ⟨0x160, 1, 4, 0x0, 0x0, 0x0, 0x0, 0x0, 0x3, 0x0⟩,  -- HST_XSPI_CMD, R561
  ⟨0x164, 1, 4, 0xFFFFFFFF, 0x0, 0x0, 0x0, 0x0, 0x0, 0x0⟩,  -- HST_XSPI_FADDR, R561
  ⟨0x168, 1, 4, 0xFFFFFFFF, 0x0, 0x0, 0x0, 0x0, 0x0, 0x0⟩,  -- HST_XSPI_DADDR_LO, R561
  ⟨0x16C, 1, 4, 0xFFFFFFFF, 0x0, 0x0, 0x0, 0x0, 0x0, 0x0⟩,  -- HST_XSPI_DADDR_HI, R561
  ⟨0x170, 1, 4, 0xFFFFFFFF, 0x0, 0x0, 0x0, 0x0, 0x0, 0x0⟩,  -- HST_XSPI_LEN, R561
  ⟨0x180, 1, 4, 0xFFFF, 0x0, 0x0, 0x0, 0x0, 0x0, 0x0⟩,  -- HST_GPIO_DIR, R561
  ⟨0x184, 1, 4, 0xFFFF, 0x0, 0x0, 0x0, 0x0, 0x0, 0x0⟩,  -- HST_GPIO_OUT, R561
  ⟨0x188, 1, 4, 0xFFFF, 0x0, 0x0, 0x0, 0x0, 0x0, 0x0⟩,  -- HST_GPIO_EVT, R561
  ⟨0x18C, 1, 4, 0x0, 0x0, 0x0, 0x0, 0x0, 0x0, 0x0⟩  -- HST_GPIO_IN, R561
]

/-- The registers of a MBX page. -/
def mbxRegs : List RegDef := [
  ⟨0x100, 1, 4, 0x0, 0x0, 0x0, 0x40000000, 0x0, 0xFF, 0x0⟩,  -- MBX_CMD, R542
  ⟨0x104, 1, 4, 0x1, 0x0, 0x0, 0x0, 0x0, 0x0, 0x0⟩,  -- MBX_SEL, R542
  ⟨0x108, 1, 4, 0xFFFFFFC0, 0x0, 0x0, 0x0, 0x0, 0x0, 0x0⟩,  -- MBX_DADDR_LO, R542
  ⟨0x10C, 1, 4, 0xFFFFFFFF, 0x0, 0x0, 0x0, 0x0, 0x0, 0x0⟩,  -- MBX_DADDR_HI, R542
  ⟨0x110, 1, 4, 0xFFFF, 0x0, 0x0, 0x0, 0x0, 0x0, 0x0⟩,  -- MBX_DLEN, R542
  ⟨0x114, 1, 4, 0x0, 0x0, 0x0, 0x0, 0xFFFF, 0x0, 0x0⟩,  -- MBX_REJECT, R542
  ⟨0x120, 8, 4, 0xFFFFFFFF, 0x0, 0x0, 0x0, 0x0, 0x0, 0x0⟩,  -- MBX_ARG, R542
  ⟨0x140, 8, 4, 0x0, 0x0, 0x0, 0x0, 0x0, 0x0, 0x0⟩,  -- MBX_RSP, R542
  ⟨0x800, 512, 4, 0xFFFFFFFF, 0x0, 0x0, 0x0, 0x0, 0x0, 0x0⟩  -- MBX_BUF, R542
]

/-- The registers of a DMA page. -/
def dmaRegs : List RegDef := [
  ⟨0x100, 1, 4, 0x201FFFFF, 0x0, 0xDF800000, 0x0, 0x0, 0x0, 0x0⟩,  -- DMA_CTRL, R555
  ⟨0x104, 1, 4, 0xFFFF, 0x0, 0x0, 0x0, 0x0, 0x0, 0x0⟩,  -- DMA_HOLDOFF, R555
  ⟨0x110, 1, 4, 0x0, 0x0, 0xFFFFFFC0, 0x0, 0x0, 0x0, 0x0⟩,  -- DMA_PRING_BASE_LO, R555
  ⟨0x114, 1, 4, 0x0, 0x0, 0xFFFFFFFF, 0x0, 0x0, 0x0, 0x0⟩,  -- DMA_PRING_BASE_HI, R555
  ⟨0x118, 1, 4, 0x0, 0x0, 0x1F, 0x0, 0x0, 0x0, 0x0⟩,  -- DMA_PRING_SIZE, R555
  ⟨0x11C, 1, 4, 0xFFFF, 0x0, 0x0, 0x0, 0x0, 0x0, 0x0⟩,  -- DMA_P_TAIL, R555
  ⟨0x120, 1, 4, 0x0, 0x0, 0x0, 0x0, 0x0, 0x0, 0x0⟩,  -- DMA_P_HEAD, R555
  ⟨0x130, 1, 4, 0x0, 0x0, 0xFFFFFFC0, 0x0, 0x0, 0x0, 0x0⟩,  -- DMA_IRING_BASE_LO, R555
  ⟨0x134, 1, 4, 0x0, 0x0, 0xFFFFFFFF, 0x0, 0x0, 0x0, 0x0⟩,  -- DMA_IRING_BASE_HI, R555
  ⟨0x138, 1, 4, 0x0, 0x0, 0x1F, 0x0, 0x0, 0x0, 0x0⟩,  -- DMA_IRING_SIZE, R555
  ⟨0x13C, 1, 4, 0xFFFF, 0x0, 0x0, 0x0, 0x0, 0x0, 0x0⟩,  -- DMA_I_TAIL, R555
  ⟨0x140, 1, 4, 0x0, 0x0, 0x0, 0x0, 0x0, 0x0, 0x0⟩,  -- DMA_I_HEAD, R555
  ⟨0x150, 6, 4, 0x0, 0x0, 0x0, 0x0, 0xFFFFFFFF, 0x0, 0x0⟩  -- DMA_CNT, R555
]

/-- The block-specific registers of a page, by block (R527). -/
def blockRegs : Kind → List RegDef
  | .core => coreRegs
  | .clu => cluRegs
  | .cmem => cmemRegs ++ eccRegs
  | .cdc => cdcRegs
  | .esc => escRegs
  | .cpx => cpxRegs
  | .lx => []
  | .sp => []
  | .ec => []
  | .kw => []
  | .tel => telRegs
  | .pol => polRegs
  | .rsw => []
  | .dsv => []
  | .mac => macRegs
  | .prs => prsRegs
  | .cph => cphRegs
  | .sds => []
  | .cls => clsRegs ++ eccRegs
  | .frg => frgRegs ++ eccRegs
  | .lrn => lrnRegs
  | .sat => satRegs ++ eccRegs
  | .vlt => vltRegs ++ eccRegs
  | .bpm => bpmRegs ++ eccRegs
  | .tm => tmRegs ++ eccRegs
  | .xlk => []
  | .dmc => dmcRegs ++ eccRegs
  | .epc => epcRegs
  | .pwr => pwrRegs
  | .clk => clkRegs
  | .fmg => fmgRegs
  | .sec => secRegs
  | .hst => hstRegs
  | .dbg => []
  | .otp => []
  | .mbx => mbxRegs
  | .dma => dmaRegs

/-- The row that stands at a page offset. -/
def regDefAt (rows : List RegDef) (off : Nat) : Option RegDef :=
  rows.find? fun r => decide (r.off ≤ off ∧ (off - r.off) % r.stride = 0 ∧ (off - r.off) / r.stride < r.count)

/-- The row of a BAR0 word address: page × 4,096 + offset (R522). -/
def regDef? (a : Nat) : Option RegDef :=
  match pageKind (a / 4096) with
  | none => none
  | some (k, _) => if a % 4096 < 256 then regDefAt headerRegs (a % 4096) else regDefAt (blockRegs k) (a % 4096)

/-- The reset value of the register at a BAR0 word address. -/
def regReset (a : Nat) : Word := ((regDef? a).map (·.reset)).getD 0

/-- The BAR0 word address of an offset of a page. -/
def ra (pg off : Nat) : Nat := pg * 4096 + off

end Sys2Proof.Machine
end

