-- ==== Sys2Proof/Syntax.lean ====
section
/-! DEFINITION. The commands of the block: one constructor per row of the opcode table, with the row's operands. -/

namespace Sys2Proof

/-- A short move (R83): guard, immediate bit, source field, destination socket, modifier. -/
structure ShortMove where
  g   : BitVec 4
  i   : BitVec 1
  src : BitVec 12
  dst : BitVec 10
  x   : BitVec 4
  deriving DecidableEq, Repr

/-- How the move that a row names stands in its issue word: as one half of a paired word with the other half given
(R82), or as a long immediate move of kind 0 (R84, R96). The destination socket and the modifier come from the row. -/
inductive MoveForm where
  | slotA (g : BitVec 4) (i : BitVec 1) (src : BitVec 12) (other : ShortMove)
  | slotB (g : BitVec 4) (i : BitVec 1) (src : BitVec 12) (other : ShortMove)
  | long  (g : BitVec 4) (imm : Word)
  deriving DecidableEq, Repr

/-- A calendar set of the profile (R47, R50, R55, R60, R63): the number of round tables, and the calendars, sparse: entry (round table × 16,384 + slot) to its 16 bits. -/
structure CalSet where
  tables   : Nat
  dispatch : List (Tbl (BitVec 16))
  ret      : List (Tbl (BitVec 16))
  region   : List (Tbl Byte)
  deriving DecidableEq, Repr

/-- What a profile image and its schedule image hold (R420, R458): the span and the cycle length; the spare of each C-die and the
packet-mode clusters (device clusters); the packet entry address; the program words (cluster × 16,384 + address) and the bank-phase
maps (cluster × 8 + row); the calendar tiers, the fallback sets by lost cluster, the cross-die sets by C-die; the initial values
by BAR0 word address; the pages that it leaves RUNNING and the power domains that it needs ON. -/
structure Profile where
  span      : Nat
  cycle     : Nat
  spares    : List Nat
  packet    : List Nat
  entry     : Nat
  program   : Tbl IssueWord
  bankMap   : Tbl Word
  tiers     : List CalSet
  fallback  : List (Nat × CalSet)
  cross     : List (Nat × CalSet)
  fields    : List (Nat × Word)
  running   : List Nat
  domains   : List Nat
  deriving DecidableEq, Repr

/-- Where a table or buffer command comes from: the page's command register, or a command ring (R304, R377). -/
inductive CmdVia where
  | reg
  | ring (n : Fin 4)
  deriving DecidableEq, Repr

/-- The table that a write lock guards (R311). -/
inductive LockTable where
  | cls (d : PDie)
  | sat (d : PDie)
  | pol (r : RegionId)
  deriving DecidableEq, Repr

/-- A die-to-die link (R17). -/
inductive Link where
  | cp (c : Fin 4) (d : PDie)
  | cross
  | mdie (die : Fin 6)
  deriving DecidableEq, Repr

/-- What a scan of the TAP's two debug instructions carries (R562): a read or a write of BAR0 under DBG_ACCESS, or one of the operations of
R475 under DBG_UNLOCK. -/
inductive TapScan where
  | read
  | write (v : Word)
  | challenge
  | unlock (token : List Byte)
  | lock
  deriving DecidableEq, Repr

/-- What the refresh logic of a channel does (R436). -/
inductive RefreshOp where
  | issue | postpone | pullIn
  deriving DecidableEq, Repr

/-- A command: one operation or event of the part, whole and indivisible. The constructors stand in the table's order. -/
inductive Instr where
  -- ports, parser, dispatch path
  | frameReceive (port : PortId) (bytes : List Byte) (fcsOk : Bool)
  | ingressRelease (d : PDie) (s : Slice)
  | fragmentWaitRelease (d : PDie)
  | fragOrphan (d : PDie)
  | fragEntryAge (d : PDie)
  | classifierHoldEnd (d : PDie) (ftLate : Bool)
  | holdQueueRelease (d : PDie)
  | dispatch (d : PDie) (slot : Fin 16384)
  | recordDelivery (t : ThreadId) (buf : Bool) (late : Bool)
  | returnSlot (d : PDie) (slot : Fin 16384) (late : Bool)
  | resultTake (d : PDie)
  | xlinkSend (d : PDie)
  | xlinkArrival (d : PDie)
  | portSelect (port : PortId)
  | egressCipher (d : PDie) (s : Slice)
  | frameTransmit (d : PDie) (s : Slice)
  | pfcFrameReceive (port : PortId) (enable : BitVec 8) (quanta : BitVec 128)
  | pfcPauseExpiry (port : PortId) (pri : Fin 8)
  | pfcXoffRepeat (d : PDie) (pool : Fin 64)
  | linkLoss (port : PortId)
  | portEnable (port : PortId) (value : Word)
  | macTsInfoRead (d : PDie) (s : Slice)
  | prsRoleWrite (d : PDie) (s : Slice) (value : Word)
  -- the move set and the units
  | move (t : ThreadId) (w : IssueWord)
  | repeat_ (t : ThreadId) (g : BitVec 4) (n : BitVec 16)
  | repeatRc (t : ThreadId) (g : BitVec 4) (cap : BitVec 16)
  | repeatBodyIssue (t : ThreadId)
  | spanMarker (t : ThreadId)
  | spanOverrun (t : ThreadId)
  | aluOp (t : ThreadId) (f : MoveForm) (ib : Bool) (x : BitVec 4)
  | bfOp (t : ThreadId) (f : MoveForm) (x : BitVec 4)
  | muOp (t : ThreadId) (f : MoveForm) (x : BitVec 4)
  | dvOp (t : ThreadId) (f : MoveForm) (x : BitVec 4)
  | ckOp (t : ThreadId) (f : MoveForm) (x : BitVec 4)
  | guCompare (t : ThreadId) (f : MoveForm) (p : Fin 8) (x : BitVec 4)
  | pwLoad (t : ThreadId) (f : MoveForm) (x : Fin 4)
  | pwStore (t : ThreadId) (f : MoveForm) (x : Fin 4)
  | lsLoad (t : ThreadId) (f : MoveForm) (x : Fin 5)
  | lsStore (t : ThreadId) (f : MoveForm) (x : Fin 3)
  | tbGet (t : ThreadId) (f : MoveForm)
  | tbCnt (t : ThreadId) (f : MoveForm)
  | tbTaskDone (t : ThreadId)
  | dmLd (t : ThreadId) (f : MoveForm) (sb : Fin 16)
  | dmSt (t : ThreadId) (f : MoveForm) (sb : Fin 16)
  | dmLoadDone (t : ThreadId) (sb : Fin 16)
  | dmStoreAck (t : ThreadId) (sb : Fin 16)
  | lkAcq (t : ThreadId) (f : MoveForm)
  | lkTry (t : ThreadId) (f : MoveForm)
  | lkArm (t : ThreadId) (f : MoveForm)
  | lkRel (t : ThreadId) (f : MoveForm)
  | chSend (t : ThreadId) (f : MoveForm) (n : Fin 8)
  | chTrySend (t : ThreadId) (f : MoveForm) (n : Fin 8)
  | chTry (t : ThreadId) (f : MoveForm)
  | chRecv (t : ThreadId) (f : MoveForm)
  | chArm (t : ThreadId) (f : MoveForm)
  | cuJmp (t : ThreadId) (f : MoveForm) (rel : Bool)
  | cuCall (t : ThreadId) (f : MoveForm) (rel : Bool)
  | cuRet (t : ThreadId) (f : MoveForm)
  | cuEnd (t : ThreadId) (f : MoveForm)
  | cuTrap (t : ThreadId) (f : MoveForm)
  | tuFork (t : ThreadId) (f : MoveForm) (detached : Bool)
  | tuJoin (t : ThreadId) (f : MoveForm)
  | tuYield (t : ThreadId) (f : MoveForm)
  | tuWait (t : ThreadId) (f : MoveForm)
  | tuEvent (t : ThreadId) (f : MoveForm)
  | eventLatch (target : ThreadId) (e : Fin 16)
  | waitTimeout (t : ThreadId)
  | tuExit (t : ThreadId) (f : MoveForm)
  | sbWait (t : ThreadId) (f : MoveForm)
  | sbClr (t : ThreadId) (f : MoveForm)
  | thFclr (t : ThreadId) (f : MoveForm)
  | cpGo (t : ThreadId) (f : MoveForm) (n : Fin 4) (sb : Fin 16)
  | cpCsave (t : ThreadId) (f : MoveForm) (n : Fin 4) (sb : Fin 16)
  | cpCrest (t : ThreadId) (f : MoveForm) (n : Fin 4) (sb : Fin 16)
  -- coprocessor commands, at the fetch
  | csave (c : ClusterId) (n : Fin 4)
  | crestore (c : ClusterId) (n : Fin 4)
  | ntt (c : ClusterId)
  | intt (c : ClusterId)
  | pmul (c : ClusterId)
  | padd (c : ClusterId)
  | psub (c : ClusterId)
  | mlkemKeygen (c : ClusterId)
  | mlkemEncaps (c : ClusterId)
  | mlkemDecaps (c : ClusterId)
  | falconVerify (c : ClusterId)
  | init (c : ClusterId)
  | absorb (c : ClusterId)
  | squeeze (c : ClusterId)
  | hash (c : ClusterId)
  | permute (c : ClusterId)
  | rand (c : ClusterId)
  | x25519 (c : ClusterId)
  | p384Mul (c : ClusterId)
  | fmul (c : ClusterId)
  | fadd (c : ClusterId)
  | fsub (c : ClusterId)
  | finv (c : ClusterId)
  | keyset (c : ClusterId)
  | wrap (c : ClusterId)
  | unwrap (c : ClusterId)
  | vaultUnwrap (c : ClusterId)
  | gmac (c : ClusterId)
  | aesBlock (c : ClusterId)
  | cpCommandDone (c : ClusterId) (n : Fin 4)
  | coreThrKill (core : Fin 512) (mask : BitVec 8)
  | threadResetDone (t : ThreadId)
  | escForceRel (page : Nat) (lock : BitVec 10)
  | stallAll (c : ClusterId)
  | trapStorm (c : ClusterId)
  -- the Teller
  | tellerStage (r : RegionId)
  | telHcmdProd (r : RegionId) (idx : BitVec 16)
  | activate (r : RegionId)
  | wake (r : RegionId)
  | park (r : RegionId)
  | setprio (r : RegionId)
  | kill (r : RegionId)
  | bindingFire (r : RegionId) (source : Fin 512)
  | deadlineWake (r : RegionId)
  | placement (r : RegionId)
  | quantumExpiry (r : RegionId)
  | save (t : ThreadId)
  | restore (t : ThreadId)
  -- cluster memory and cache
  | cmemFill (c : ClusterId)
  | cmemFillDone (c : ClusterId)
  | cmemWinAccess (c : ClusterId) (off : Fin 512) (write : Option Word)
  | clean (c : ClusterId) (src : Option ThreadId)
  | inval (c : ClusterId) (src : Option ThreadId)
  | flush (c : ClusterId) (src : Option ThreadId)
  | flushAll (c : ClusterId) (src : Option ThreadId)
  | invalAll (c : ClusterId) (src : Option ThreadId)
  | sync (c : ClusterId) (src : Option ThreadId)
  | maintDone (c : ClusterId) (src : Option ThreadId)
  | spmWaysChange (c : ClusterId) (value : Word)
  | cacheDisable (c : ClusterId)
  | apertureChange (c : ClusterId) (limit : Bool) (value : Word)
  | requiredFlushDone (c : ClusterId)
  | invalidationDone (c : ClusterId)
  -- classification tables
  | ftRingPoll (d : PDie)
  | ftInsert (d : PDie) (via : CmdVia) (dram : Bool)
  | relocationStep (d : PDie)
  | ftDelete (d : PDie) (via : CmdVia)
  | ftModify (d : PDie) (via : CmdVia)
  | ftRead (d : PDie) (via : CmdVia) (clrHit : Bool)
  | ftReadLoc (d : PDie) (via : CmdVia) (dram : Bool) (clrHit : Bool)
  | wlockTake (l : LockTable) (owner : OwnerId)
  | wlockFree (l : LockTable)
  | wlockExpiry (l : LockTable)
  | learnApply (d : PDie)
  | learnRemoteWrite (d : PDie)
  | polWrite (r : RegionId) (index : BitVec 16)
  | gsa (r : RegionId) (index : BitVec 16)
  | polRead (r : RegionId) (index : BitVec 16)
  | cntRead (r : RegionId) (index : BitVec 16)
  | cntReadClr (r : RegionId) (index : BitVec 16)
  | satWrite (d : PDie)
  | satRead (d : PDie)
  | satInvalidate (d : PDie)
  | modifyLife (d : PDie)
  | setPn (d : PDie)
  | clrDrops (d : PDie)
  | satLifeFifoRead (d : PDie)
  | vltClr (d : PDie) (value : Word)
  -- buffers
  | alloc (d : PDie) (via : CmdVia) (acct : BitVec 8)
  | free (d : PDie) (via : CmdVia)
  | retag (d : PDie) (via : CmdVia)
  | bpmRingPoll (d : PDie)
  | poolEnable (d : PDie) (pool : Fin 64) (cfg : Word)
  | poolReady (d : PDie) (pool : Fin 64)
  | tillRefill (d : PDie) (pool : Fin 64)
  | tillSpill (d : PDie) (pool : Fin 64)
  | sweepRequest (d : PDie) (owner : OwnerId)
  | sweepStart (d : PDie)
  | sweepDone (d : PDie)
  -- traffic manager
  | tmIndRead (d : PDie) (table : Fin 4) (index : BitVec 15)
  | tmIndWrite (d : PDie) (table : Fin 4) (index : BitVec 15)
  | tmIndReadClr (d : PDie) (table : Fin 4) (index : BitVec 15)
  | tmIndFlush (d : PDie) (table : Fin 4) (index : BitVec 15)
  -- epochs, generations, profiles, calendars
  | epcEnable (ctrl : Word)
  | tbStep (hi : Word)
  | tbRead
  | ppsInEdge
  | ppsOutPulse
  | clearingNotice
  | clearing
  | syncEdge
  | syncWindowClose
  | genRetire
  | genCommit (notBefore : BitVec 24)
  | genDiscard
  | profileSelectWarm (p : Fin 4)
  | profileSelectCold (p : Fin 4)
  | calSwitch (arg : Word)
  | calSwitchApply
  | seamClose (d : PDie)
  | clusterFatal (c : ClusterId) (cause : BitVec 16)
  | spareReady (cdie : Fin 4)
  | clusterReset (c : ClusterId)
  | clusterResetDone (c : ClusterId)
  -- DRAM, ECC
  | dramTracking (ch : ChannelId) (inRange : Bool)
  | refresh (ch : ChannelId) (op : RefreshOp)
  | mr4Poll (ch : ChannelId) (mr4 : Byte)
  | commandParityAlert (ch : ChannelId) (failedReplays : Fin 4)
  | channelFatal (ch : ChannelId) (kind : BitVec 2)
  | channelReset (ch : ChannelId)
  | channelResetDone (ch : ChannelId) (trained : Bool)
  | mirrorResync (d : PDie) (win : Fin 4)
  | resyncDone (d : PDie) (win : Fin 4)
  | dmcFill (ch : ChannelId)
  | dmcFillDone (ch : ChannelId)
  | hstFill
  | hstFillDone
  | scrub (kind : BitVec 4) (inst : BitVec 6) (start : BitVec 36) (length : Word)
  | retireDram (kind : BitVec 4) (ch : BitVec 5) (page : BitVec 20)
  | retireSram (kind : BitVec 4) (inst : BitVec 6) (bank : Word)
  | sramRetireDone (kind : BitVec 4) (inst : BitVec 6)
  -- security and boot
  | boot (hostBoot : Bool) (profileSel : Fin 4)
  | hostBootGo
  | burnOwner
  | attest (nonceLen : BitVec 7) (cert : Bool) (ek : Bool)
  | keyLoad (slot : BitVec 6) (klen32 : Bool) (kwSlot : BitVec 4) (mask : BitVec 64)
  | keyPush (slot : BitVec 6) (kwSlot : BitVec 4) (mask : BitVec 64)
  | keyClear (slot : BitVec 6)
  | zeroize
  | zeroizePin (lowNs : Nat)
  | tamperPin (lowNs : Nat)
  | zeroizationDone
  | debugChallenge
  | debugUnlock
  | debugLock
  | challengeExpiry
  | rngHealthFail (test : Word)
  | drbgReseed
  -- power, clocks, reset
  | feedFail (bkp : Bool)
  | feedOk (bkp : Bool)
  | returnHoldEnd
  | returnDeferEnd
  | holdupExpiry
  | vinSample (main : BitVec 16) (bkp : BitVec 16)
  | tempSample (readings : List (BitVec 10))
  | thermalTrip
  | pwrDvfsWrite (value : Word)
  | dvfsRailSettled
  | dvfsApply
  | domainOn (dom : Fin 128)
  | domainIdle (dom : Fin 128)
  | domainOff (dom : Fin 128)
  | domainSwitchDone (fault : Bool)
  | tallyUpdate
  | tallyRead (page : Nat) (master : Fin 2)
  | powerOnReset (lowNs : Nat)
  | pcieReset
  | flr
  | perstRelease
  | refclkLoss
  -- faults and pages
  | fmgQPop
  | laneFailure (l : Link) (spareLane : Bool)
  | laneRepairDone (l : Link) (ok : Bool)
  | sliceFatal (d : PDie) (s : Slice)
  | sliceRestored (d : PDie) (s : Slice)
  | dieFatal (die : Fin 7)
  | softRst (page : Nat)
  | pageEnable (page : Nat) (en : Bool)
  | pageStop (page : Nat) (req : Bool)
  | pageDrainDone (page : Nat)
  | evtSet (page : Nat) (bits : Word)
  | evtClear (page : Nat) (bits : Word)
  | errClear (page : Nat)
  -- host interface and debug
  | bar2Read (addr : BitVec 36) (len : Nat)
  | bar2Write (addr : BitVec 36) (bytes : List Byte)
  | dmaPuntTail (q : Fin 16) (idx : BitVec 16)
  | puntDelivery (q : Fin 16)
  | puntInterrupt (q : Fin 16)
  | dmaInjectTail (q : Fin 16) (idx : BitVec 16)
  | inject (q : Fin 16)
  | xspiRead
  | xspiProgram
  | xspiErase
  | i2cAccess (addr : BitVec 28) (write : Option Word)
  | jtagBypass (bit : Bool)
  | jtagIdcode
  | jtagSamplePreload (load : Option (List Bool))
  | jtagExtest
  | dbgAccess (addr : BitVec 28) (scan : TapScan)
  | tapReset
  | dbgStop (owner : OwnerId)
  | dbgResume (owner : OwnerId)
  | dbgStep (owner : OwnerId)
  | dbgKill (owner : OwnerId)
  | runRecord (owner : OwnerId)
  | counterReadClear (addr : BitVec 28)
  | registerWrite (addr : BitVec 28) (value : Word) (be : BitVec 4)
  | linkUp (port : PortId)
  | zeroizePinRelease (tamper : Bool)
  | writebackAck (c : ClusterId)
  | gpioSample (pins : BitVec 16)
  deriving DecidableEq, Repr

end Sys2Proof
end

