-- ==== Sys2Proof/WellFormed.lean ====
section
/-! DEFINITION. Which commands are well formed: their operands name something that the part has. -/

namespace Sys2Proof

/-- The page that a command's operand numbers, with the block that must stand there where only one kind will do. -/
def Instr.pageOperand : Instr → Option (Nat × Option Machine.Kind)
  | .escForceRel page _ => some (page, some .esc)
  | .tallyRead page _ => some (page, none)
  | .softRst page => some (page, none)
  | .pageEnable page _ => some (page, none)
  | .pageStop page _ => some (page, none)
  | .pageDrainDone page => some (page, none)
  | .evtSet page _ => some (page, none)
  | .evtClear page _ => some (page, none)
  | .errClear page => some (page, none)
  | _ => none

/-- The page named is populated (R522 to R527), by the block asked for. -/
def pageNamed (x : Nat × Option Machine.Kind) : Bool :=
  match Machine.pageKind x.1, x.2 with
  | none, _ => false
  | some _, none => true
  | some (k, _), some j => decide (k = j)

/-- TEMP_SAMPLE carries the 46 sensors of R500; a BAR2 access carries at least one byte. -/
def Instr.listsOk : Instr → Bool
  | .tempSample readings => decide (readings.length = 46)
  | .bar2Read _ len => decide (0 < len)
  | .bar2Write _ bytes => decide (bytes ≠ [])
  | _ => true

/-- A command is well formed. -/
def Instr.wellFormed (i : Instr) : Bool := (i.pageOperand.all pageNamed) && i.listsOk

end Sys2Proof
end

