-- ==== Sys2Proof/Machine/Aes.lean ====
section
/-! DEFINITION. AES-128 and AES-256, GHASH and GCM, and the key wrapping of RFC 3394 and RFC 5649: what KW computes (R209), and
what the cipher engines compute (R336). -/

namespace Sys2Proof.Machine

/-! ## AES -/

/-- Multiplication by x in GF(2^8). -/
def gfX (a : Byte) : Byte := (a <<< 1) ^^^ (if a.getLsbD 7 then 0x1B else 0)

/-- Multiplication in GF(2^8), over the bits of `b` from the lowest. -/
def gfMulGo : Nat → Byte → Byte → Byte
  | 0, _, _ => 0
  | k + 1, a, b => (if b.getLsbD 0 then a else 0) ^^^ gfMulGo k (gfX a) (b >>> 1)

/-- Multiplication in GF(2^8). -/
def gfMul (a b : Byte) : Byte := gfMulGo 8 a b

/-- The inverse in GF(2^8), a^254; 0 for 0. -/
def gfInv (a : Byte) : Byte :=
  let a2 := gfMul a a
  let a4 := gfMul a2 a2
  let a8 := gfMul a4 a4
  let a16 := gfMul a8 a8
  let a32 := gfMul a16 a16
  let a64 := gfMul a32 a32
  let a128 := gfMul a64 a64
  gfMul (gfMul (gfMul a2 a4) (gfMul a8 a16)) (gfMul (gfMul a32 a64) a128)

/-- The substitution of AES. -/
def aesSub (a : Byte) : Byte :=
  let b := gfInv a
  b ^^^ b.rotateLeft 1 ^^^ b.rotateLeft 2 ^^^ b.rotateLeft 3 ^^^ b.rotateLeft 4 ^^^ 0x63

/-- The inverse substitution. -/
def aesInvSub (b : Byte) : Byte := gfInv (b.rotateLeft 1 ^^^ b.rotateLeft 3 ^^^ b.rotateLeft 6 ^^^ 0x05)

/-- The substitution tables, each computed once. -/
def aesSbox : List Byte := (List.range 256).map fun i => aesSub (BitVec.ofNat 8 i)
def aesInvSbox : List Byte := (List.range 256).map fun i => aesInvSub (BitVec.ofNat 8 i)

/-- A byte through a table. -/
def aesS (b : Byte) : Byte := aesSbox.getD b.toNat 0
def aesIS (b : Byte) : Byte := aesInvSbox.getD b.toNat 0

/-- The words of the expanded key beyond the first `nk`, newest first: `i` counts them, `rc` is the next round constant. -/
def aesExpandGo (nk : Nat) : Nat → Nat → Byte → List (List Byte) → List (List Byte)
  | 0, _, _, ws => ws
  | k + 1, i, rc, ws =>
    let t := ws.getD 0 []
    let t' :=
      if i % nk = 0 then xorBytes ((t.drop 1 ++ t.take 1).map aesS) [rc, 0, 0, 0]
      else if nk > 6 ∧ i % nk = 4 then t.map aesS
      else t
    aesExpandGo nk k (i + 1) (if i % nk = 0 then gfX rc else rc) (xorBytes (ws.getD (nk - 1) []) t' :: ws)

/-- The round keys of a key of 16 or 32 bytes. -/
def aesKeys (key : List Byte) : List (List Byte) :=
  let nk := key.length / 4
  let first := ((List.range nk).map fun i => bytesAt key (4 * i) 4).reverse
  let ws := (aesExpandGo nk (4 * (nk + 7) - nk) nk 1 first).reverse
  (List.range (nk + 7)).map fun r => ((List.range 4).map fun j => ws.getD (4 * r + j) []).flatten

/-- ShiftRows and its inverse: the byte at row r, column c comes from column c + r or c - r. -/
def aesShift (b : List Byte) : List Byte := (List.range 16).map fun i => b.getD ((i + 4 * (i % 4)) % 16) 0
def aesInvShift (b : List Byte) : List Byte := (List.range 16).map fun i => b.getD ((i + 16 - 4 * (i % 4)) % 16) 0

/-- MixColumns with the coefficients of the first row. -/
def aesMix (m : List Byte) (b : List Byte) : List Byte :=
  (List.range 16).map fun i =>
    ((List.range 4).map fun j => gfMul (m.getD ((j + 4 - i % 4) % 4) 0) (b.getD (i / 4 * 4 + j) 0)).foldl (· ^^^ ·) 0

/-- The rounds after the first key addition. -/
def aesRounds : List (List Byte) → List Byte → List Byte
  | [], b => b
  | [k], b => xorBytes (aesShift (b.map aesS)) k
  | k :: ks, b => aesRounds ks (xorBytes (aesMix [2, 3, 1, 1] (aesShift (b.map aesS))) k)

/-- Encrypt a block under a key. -/
def aesEnc (key b : List Byte) : List Byte :=
  match aesKeys key with
  | [] => b
  | k :: ks => aesRounds ks (xorBytes b k)

/-- The inverse rounds, over the round keys from the last to the first. -/
def aesInvRounds : List (List Byte) → List Byte → List Byte
  | [], b => b
  | [k], b => xorBytes ((aesInvShift b).map aesIS) k
  | k :: ks, b => aesInvRounds ks (aesMix [14, 11, 13, 9] (xorBytes ((aesInvShift b).map aesIS) k))

/-- Decrypt a block under a key. -/
def aesDec (key b : List Byte) : List Byte :=
  match (aesKeys key).reverse with
  | [] => b
  | k :: ks => aesInvRounds ks (xorBytes b k)

/-! ## GCM -/

/-- Multiplication in the field of GHASH: the highest bit of a number is the coefficient of 1. -/
def ghMulGo : Nat → Nat → Nat → Nat → Nat
  | 0, _, _, z => z
  | k + 1, x, v, z =>
    ghMulGo k x ((v >>> 1) ^^^ (if v % 2 = 1 then 0xE1 <<< 120 else 0)) (if x.testBit k then z ^^^ v else z)

/-- Multiplication in the field of GHASH. -/
def ghMul (x y : Nat) : Nat := ghMulGo 128 x y 0

/-- Absorb bytes, in 16-byte blocks the last of which is filled with zeros. -/
def ghAbsorb (h acc : Nat) (b : List Byte) : Nat :=
  (List.range ((b.length + 15) / 16)).foldl (fun y i => ghMul (y ^^^ beAt b (16 * i) 16) h) acc

/-- GHASH of AAD and ciphertext. -/
def ghash (h : Nat) (aad ct : List Byte) : Nat :=
  ghMul (ghAbsorb h (ghAbsorb h 0 aad) ct ^^^ (8 * aad.length * 2 ^ 64 + 8 * ct.length)) h

/-- The counter block of a 12-byte IV. -/
def gcmCtr (iv : List Byte) (n : Nat) : List Byte := padTo 12 iv ++ beBytes 4 n

/-- Encrypt or decrypt bytes in counter mode, from counter 2 on. -/
def gcmCrypt (key iv b : List Byte) : List Byte :=
  ((List.range ((b.length + 15) / 16)).map fun i =>
    xorBytes ((b.drop (16 * i)).take 16) (aesEnc key (gcmCtr iv (i + 2)))).flatten

/-- The tag of AAD and ciphertext. -/
def gcmTag (key iv aad ct : List Byte) : List Byte :=
  xorBytes (beBytes 16 (ghash (beNat (aesEnc key (List.replicate 16 0))) aad ct)) (aesEnc key (gcmCtr iv 1))

/-! ## Key wrapping -/

/-- The 8-byte semiblocks of bytes. -/
def semis (b : List Byte) : List (List Byte) := (List.range (b.length / 8)).map fun i => bytesAt b (8 * i) 8

/-- The steps of RFC 3394 from step `t` on, over the register A and the semiblocks. -/
def kwWrapGo (key : List Byte) : Nat → Nat → List Byte → List (List Byte) → List Byte × List (List Byte)
  | 0, _, a, r => (a, r)
  | k + 1, t, a, r =>
    let i := t % r.length
    let b := aesEnc key (a ++ r.getD i [])
    kwWrapGo key k (t + 1) (xorBytes (b.take 8) (beBytes 8 (t + 1))) (r.set i (b.drop 8))

/-- Wrap semiblocks under an initial value. -/
def kwWrap (key iv p : List Byte) : List Byte :=
  let n := p.length / 8
  let r := kwWrapGo key (6 * n) 0 iv (semis p)
  r.1 ++ r.2.flatten

/-- The inverse steps, from step `t` down. -/
def kwUnwrapGo (key : List Byte) : Nat → List Byte → List (List Byte) → List Byte × List (List Byte)
  | 0, a, r => (a, r)
  | t + 1, a, r =>
    let i := t % r.length
    let b := aesDec key (xorBytes a (beBytes 8 (t + 1)) ++ r.getD i [])
    kwUnwrapGo key t (b.take 8) (r.set i (b.drop 8))

/-- Unwrap: the value of A, and the plaintext. -/
def kwUnwrap (key c : List Byte) : List Byte × List Byte :=
  let n := c.length / 8 - 1
  let r := kwUnwrapGo key (6 * n) (c.take 8) (semis (c.drop 8))
  (r.1, r.2.flatten)

/-- The initial value of RFC 3394, and the constant of RFC 5649. -/
def kwIv : List Byte := List.replicate 8 0xA6
def kwpIv (len : Nat) : List Byte := [0xA6, 0x59, 0x59, 0xA6] ++ beBytes 4 len

/-- RFC 5649 wrapping. -/
def kwpWrap (key p : List Byte) : List Byte :=
  let q := padTo ((p.length + 7) / 8 * 8) p
  if q.length = 8 then aesEnc key (kwpIv p.length ++ q) else kwWrap key (kwpIv p.length) q

/-- RFC 5649 unwrapping: the value of A and the padded plaintext. -/
def kwpUnwrapRaw (key c : List Byte) : List Byte × List Byte :=
  if c.length = 16 then
    let b := aesDec key c
    (b.take 8, b.drop 8)
  else kwUnwrap key c

/-- RFC 5649 unwrapping: the plaintext where the integrity check passes. -/
def kwpUnwrap (key c : List Byte) : Option (List Byte) :=
  let r := kwpUnwrapRaw key c
  let n := beAt r.1 4 4
  if r.1.take 4 = [0xA6, 0x59, 0x59, 0xA6] ∧ r.2.length < n + 8 ∧ 0 < n ∧ n ≤ r.2.length ∧ (r.2.drop n).all (· = 0) then
    some (r.2.take n)
  else none

/-- RFC 3394 unwrapping: the plaintext where the integrity check passes. -/
def kwUnwrapOk (key c : List Byte) : Option (List Byte) :=
  let r := kwUnwrap key c
  if r.1 = kwIv then some r.2 else none

end Sys2Proof.Machine
end

