-- ==== Sys2Proof/Machine/Curve.lean ====
section
/-! DEFINITION. What EC computes (R207): X25519 by RFC 7748, the P-384 group, and the two fields. -/

namespace Sys2Proof.Machine

/-- The field that VAR [0] selects: its prime and the bytes of an element. -/
def ecPrime (var : Nat) : Nat :=
  if var % 2 = 0 then 2 ^ 255 - 19 else 2 ^ 384 - 2 ^ 128 - 2 ^ 96 + 2 ^ 32 - 1
def ecBytes (var : Nat) : Nat := if var % 2 = 0 then 32 else 48

/-- Field operations. -/
def fMul (p a b : Nat) : Nat := a * b % p
def fAdd (p a b : Nat) : Nat := (a + b) % p
def fSub (p a b : Nat) : Nat := (a % p + p - b % p) % p
def fInv (p a : Nat) : Nat := powMod (a % p) (p - 2) p

/-! ## X25519 -/

/-- The Montgomery ladder over the bits of the scalar from bit `t` down: x2, z2, x3, z3. -/
def ladder (k u : Nat) : Nat → Nat × Nat × Nat × Nat → Nat × Nat × Nat × Nat
  | 0, v => v
  | t + 1, (x2, z2, x3, z3) =>
    let p := ecPrime 0
    let sw := k.testBit t
    let a2 := if sw then (x3, z3) else (x2, z2)
    let a3 := if sw then (x2, z2) else (x3, z3)
    let a := fAdd p a2.1 a2.2
    let b := fSub p a2.1 a2.2
    let aa := fMul p a a
    let bb := fMul p b b
    let e := fSub p aa bb
    let c := fAdd p a3.1 a3.2
    let d := fSub p a3.1 a3.2
    let da := fMul p d a
    let cb := fMul p c b
    let s := fAdd p da cb
    let f := fSub p da cb
    let r2 := (fMul p aa bb, fMul p e (fAdd p aa (121665 * e)))
    let r3 := (fMul p s s, fMul p u (fMul p f f))
    if sw then ladder k u t (r3.1, r3.2, r2.1, r2.2) else ladder k u t (r2.1, r2.2, r3.1, r3.2)

/-- The scalar with RFC 7748's clamping. -/
def clamp25519 (n : Nat) : Nat := (n % 2 ^ 254 + 2 ^ 254) / 8 * 8

/-- X25519 of a scalar and a u-coordinate, both 32 bytes little-endian, bit 255 of u ignored. -/
def x25519Fn (scalar u : Nat) : Nat :=
  let p := ecPrime 0
  let k := clamp25519 scalar
  let x := u % 2 ^ 255 % p
  let r := ladder k x 255 (1, 0, x, 1)
  fMul p r.1 (fInv p r.2.1)

/-! ## P-384 -/

/-- The curve constant b and the base point. -/
def p384B : Nat :=
  0xB3312FA7E23EE7E4988E056BE3F82D19181D9C6EFE8141120314088F5013875AC656398D8A2ED19D2A85C8EDD3EC2AEF
def p384G : Nat × Nat :=
  (0xAA87CA22BE8B05378EB1C71EF320AD746E1D3B628BA79B9859F741E082542A385502F25DBF55296C3A545E3872760AB7,
   0x3617DE4A96262C6F5D9E98BF9292DC29F8F41DBD289A147CE9DA3113B5F0B8C00A60B1CE1D7E819D7A431D7C90EA0E5F)

/-- The point is on the curve y² = x³ - 3x + b, its coordinates below the prime. -/
def p384On (x y : Nat) : Bool :=
  let p := ecPrime 1
  decide (x < p) && decide (y < p) && decide (fMul p y y = fAdd p (fSub p (fMul p (fMul p x x) x) (3 * x)) p384B)

/-- The sum of two points; none is the point at infinity. -/
def p384Add (a b : Option (Nat × Nat)) : Option (Nat × Nat) :=
  let p := ecPrime 1
  match a, b with
  | none, b => b
  | a, none => a
  | some (x1, y1), some (x2, y2) =>
    if x1 = x2 ∧ (y1 + y2) % p = 0 then none
    else
      let l :=
        if x1 = x2 then fMul p (fSub p (3 * x1 * x1) 3) (fInv p (2 * y1)) else fMul p (fSub p y2 y1) (fInv p (fSub p x2 x1))
      let x3 := fSub p (fSub p (l * l) x1) x2
      some (x3, fSub p (fMul p l (fSub p x1 x3)) y1)

/-- Double and add, over the bits of the scalar from bit `t` down. -/
def p384MulGo (k : Nat) (pt : Option (Nat × Nat)) : Nat → Option (Nat × Nat) → Option (Nat × Nat)
  | 0, acc => acc
  | t + 1, acc =>
    let d := p384Add acc acc
    p384MulGo k pt t (if k.testBit t then p384Add d pt else d)

/-- The multiple of a point by a 384-bit scalar. -/
def p384Mult (k : Nat) (x y : Nat) : Option (Nat × Nat) := p384MulGo k (some (x, y)) 384 none

end Sys2Proof.Machine
end

