-- ==== Sys2Proof/Machine/Keccak.lean ====
section
/-! DEFINITION. Keccak-f[1600] and the sponge functions of SP (R205), which LX uses in its composite commands too (R204). A
sponge is its 200-byte state and the byte position within the rate. -/

namespace Sys2Proof.Machine

/-- The next content of the 8-bit register from whose lowest bits the round constants are made: x^8 + x^6 + x^5 + x^4 + 1. -/
def keccakStep (r : Nat) : Nat := if r < 128 then 2 * r else (2 * r) ^^^ 0x171

/-- The next `n` lowest bits of that register. -/
def keccakBits : Nat → Nat → List Bool
  | 0, _ => []
  | n + 1, r => r.testBit 0 :: keccakBits n (keccakStep r)

/-- The constant that round `i` adds to the first lane: seven of those bits, at the places 2^j - 1. -/
def keccakConst (i : Nat) : BitVec 64 :=
  BitVec.ofNat 64 (((keccakBits 168 1).drop (7 * i)).take 7 |>.zipIdx.foldl (fun n e => n + b2n e.1 * 2 ^ (2 ^ e.2 - 1)) 0)

/-- The five planes of a state of 25 lanes: plane y holds the lanes of x = 0 to 4. -/
def planesOf (a : List (BitVec 64)) : List (List (BitVec 64)) := (List.range 5).map fun y => (a.drop (5 * y)).take 5

/-- A plane turned by `n` lanes: its lane x is lane x + n. -/
def planeTurn (n : Nat) (p : List (BitVec 64)) : List (BitVec 64) := p.drop n ++ p.take n

/-- Exclusive or of planes. -/
def planeXor : List (BitVec 64) → List (BitVec 64) → List (BitVec 64) := List.zipWith fun a b => a ^^^ b

/-- Theta: every plane takes up the parities of the columns beside it. -/
def keccakMix (a : List (BitVec 64)) : List (BitVec 64) :=
  let par := (planesOf a).foldl planeXor (List.replicate 5 0)
  ((planesOf a).map (planeXor (planeXor (planeTurn 4 par) ((planeTurn 1 par).map (·.rotateLeft 1))))).flatten

/-- Rho and pi together: the walk from (1, 0) that goes on from (x, y) to (y, 2x + 3y). The lane at its place `t` is turned by the triangular
number of t + 1 and moves one place on; `n` places are left. -/
def keccakWalk (a : List (BitVec 64)) : Nat → Nat → Nat × Nat → List (BitVec 64) → List (BitVec 64)
  | 0, _, _, out => out
  | n + 1, t, (x, y), out =>
    let dst := (y, (2 * x + 3 * y) % 5)
    keccakWalk a n (t + 1) dst (out.set (5 * dst.2 + dst.1) ((a.getD (5 * y + x) 0).rotateLeft ((t + 1) * (t + 2) / 2 % 64)))

/-- Chi: within a plane each lane takes up its two successors. -/
def keccakBend (a : List (BitVec 64)) : List (BitVec 64) :=
  ((planesOf a).map fun p => planeXor p (List.zipWith (fun b c => ~~~ b &&& c) (planeTurn 1 p) (planeTurn 2 p))).flatten

/-- Round `i`; iota comes last. -/
def keccakRound (a : List (BitVec 64)) (i : Nat) : List (BitVec 64) :=
  let m := keccakMix a
  (keccakBend (keccakWalk m 24 0 (1, 0) m)).modify 0 fun l => l ^^^ keccakConst i

/-- Keccak-f[1600] on 200 bytes. -/
def keccakF (b : List Byte) : List Byte :=
  let r := (List.range 24).foldl keccakRound ((List.range 25).map fun i => BitVec.ofNat 64 (leAt b (8 * i) 8))
  ((List.range 25).map fun i => leBytes 8 (r.getD i 0).toNat).flatten

/-- The rate of an algorithm of SP (R205). -/
def spRate (alg : Nat) : Nat :=
  match alg with
  | 0 => 136
  | 1 => 104
  | 2 => 72
  | 3 => 168
  | _ => 136

/-- The digest length of a SHA3 algorithm; the SHAKEs have none (R205). -/
def spDigest (alg : Nat) : Option Nat :=
  match alg with
  | 0 => some 32
  | 1 => some 48
  | 2 => some 64
  | _ => none

/-- The first padding byte: the domain bits and the first padding bit. -/
def spSuffix (alg : Nat) : Byte := if alg < 3 then 0x06 else 0x1F

/-- Exclusive or of bytes into a state at a position. -/
def xorAt (st : List Byte) (pos : Nat) (b : List Byte) : List Byte :=
  st.take pos ++ xorBytes ((st.drop pos).take b.length) b ++ st.drop (pos + b.length)

/-- Absorb bytes: fuel is the number of blocks that can be completed, plus one. Answers the state, the position and the
permutations performed. -/
def spAbsorbGo (rate : Nat) : Nat → List Byte → Nat → List Byte → Nat → List Byte × Nat × Nat
  | 0, st, pos, _, k => (st, pos, k)
  | fuel + 1, st, pos, b, k =>
    if b.length < rate - pos then (xorAt st pos b, pos + b.length, k)
    else spAbsorbGo rate fuel (keccakF (xorAt st pos (b.take (rate - pos)))) 0 (b.drop (rate - pos)) (k + 1)

/-- Absorb bytes into a sponge. -/
def spAbsorb (rate : Nat) (st : List Byte) (pos : Nat) (b : List Byte) : List Byte × Nat × Nat :=
  spAbsorbGo rate (b.length / rate + 2) st pos b 0

/-- Pad a sponge and permute it: the position is then 0. -/
def spPad (alg : Nat) (st : List Byte) (pos : Nat) : List Byte :=
  keccakF (xorAt (xorAt st pos [spSuffix alg]) (spRate alg - 1) [0x80])

/-- Squeeze `n` bytes: the fuel is the number of blocks, plus two. Answers the bytes, the state, the position and the
permutations performed. -/
def spSqueezeGo (rate : Nat) : Nat → List Byte → Nat → Nat → Nat → List Byte × List Byte × Nat × Nat
  | 0, st, pos, _, k => ([], st, pos, k)
  | fuel + 1, st, pos, n, k =>
    if n = 0 then ([], st, pos, k)
    else if pos = rate then spSqueezeGo rate fuel (keccakF st) 0 n (k + 1)
    else
      let m := min n (rate - pos)
      let r := spSqueezeGo rate fuel st (pos + m) (n - m) k
      ((st.drop pos).take m ++ r.1, r.2)

/-- Squeeze `n` bytes from a padded sponge. -/
def spSqueeze (rate : Nat) (st : List Byte) (pos n : Nat) : List Byte × List Byte × Nat × Nat :=
  spSqueezeGo rate (2 * (n / rate) + 4) st pos n 0

/-- The all-zero state. -/
def spZero : List Byte := List.replicate 200 0

/-- The whole function: `n` bytes of the digest or output of a message. -/
def spHash (alg : Nat) (b : List Byte) (n : Nat) : List Byte :=
  let a := spAbsorb (spRate alg) spZero 0 b
  (spSqueeze (spRate alg) (spPad alg a.1 a.2.1) 0 n).1

end Sys2Proof.Machine
end

