-- ==== Sys2Proof/Machine/Lattice.lean ====
section
/-! DEFINITION. What LX computes (R204): the number-theoretic transforms of ML-KEM and Falcon, ML-KEM-1024 by FIPS 203, and
Falcon-1024 verification with SHAKE256 hash-to-point. A polynomial is the list of its coefficients. -/

namespace Sys2Proof.Machine

/-! ## Transforms -/

/-- The parameters of a VAR: q, n, the root of unity, the bits of its index, the levels of the transform. -/
structure Ring where
  q      : Nat
  n      : Nat
  root   : Nat
  bits   : Nat
  levels : Nat
  deriving DecidableEq, Repr

/-- VAR 0: ML-KEM, 17 a 256th root of unity; VAR 1: Falcon, 7 a 2048th root. -/
def ringOf (var : Nat) : Ring :=
  if var = 0 then { q := 3329, n := 256, root := 17, bits := 7, levels := 7 }
  else { q := 12289, n := 1024, root := 7, bits := 10, levels := 10 }

/-- The root that node `k` of the transform uses. -/
def Ring.zeta (r : Ring) (k : Nat) : Nat := powModGo r.q 12 r.root (bitRev r.bits k)

/-- a + b and a - b modulo q, coefficient by coefficient. -/
def polyAdd (q : Nat) (a b : List Nat) : List Nat := List.zipWith (fun x y => (x + y) % q) a b
def polySub (q : Nat) (a b : List Nat) : List Nat := List.zipWith (fun x y => (x + q - y) % q) a b
def polyScale (q z : Nat) (a : List Nat) : List Nat := a.map fun x => x * z % q

/-- The forward transform: node `k` splits its polynomial into its residues modulo x^m - ζ and x^m + ζ. -/
def nttGo (r : Ring) : Nat → Nat → List Nat → List Nat
  | 0, _, a => a
  | l + 1, k, a =>
    let m := a.length / 2
    let t := polyScale r.q (r.zeta k) (a.drop m)
    nttGo r l (2 * k) (polyAdd r.q (a.take m) t) ++ nttGo r l (2 * k + 1) (polySub r.q (a.take m) t)

/-- The inverse transform, without the final scaling. -/
def inttGo (r : Ring) : Nat → Nat → List Nat → List Nat
  | 0, _, a => a
  | l + 1, k, a =>
    let m := a.length / 2
    let x := inttGo r l (2 * k) (a.take m)
    let y := inttGo r l (2 * k + 1) (a.drop m)
    polyAdd r.q x y ++ polyScale r.q (powModGo r.q 14 (r.zeta k) (r.q - 2)) (polySub r.q x y)

/-- NTT and INTT. -/
def ntt (r : Ring) (a : List Nat) : List Nat := nttGo r r.levels 1 a
def intt (r : Ring) (a : List Nat) : List Nat :=
  polyScale r.q (powModGo r.q 14 (2 ^ r.levels) (r.q - 2)) (inttGo r r.levels 1 a)

/-- The product of two residues modulo x² - γ, pair `i` of an ML-KEM polynomial. -/
def baseMul (r : Ring) (a b : List Nat) (i : Nat) : List Nat :=
  let g := powModGo r.q 12 r.root (2 * bitRev 7 i + 1)
  let a0 := a.getD (2 * i) 0
  let a1 := a.getD (2 * i + 1) 0
  let b0 := b.getD (2 * i) 0
  let b1 := b.getD (2 * i + 1) 0
  [(a0 * b0 + a1 * b1 % r.q * g) % r.q, (a0 * b1 + a1 * b0) % r.q]

/-- The product in the transform domain. -/
def nttMul (r : Ring) (a b : List Nat) : List Nat :=
  if r.levels = 7 then ((List.range 128).map (baseMul r a b)).flatten
  else List.zipWith (fun x y => x * y % r.q) a b

/-- A polynomial in CMEM: little-endian 16-bit coefficients. -/
def polyOf (b : List Byte) : List Nat := (List.range (b.length / 2)).map fun i => leAt b (2 * i) 2
def polyBytes (a : List Nat) : List Byte := (a.map (leBytes 2)).flatten

/-! ## ML-KEM-1024 (FIPS 203) -/

/-- The ring of ML-KEM, and its rank. -/
def kemRing : Ring := ringOf 0
def kemK : Nat := 4

/-- ByteEncode and ByteDecode of a polynomial at `d` bits a coefficient. -/
def kemEncode (d : Nat) (a : List Nat) : List Byte := leBytes (32 * d) (a.foldr (fun x acc => x + 2 ^ d * acc) 0)
def kemDecode (d : Nat) (b : List Byte) : List Nat :=
  let n := leNat (padTo (32 * d) b)
  (List.range 256).map fun i => bitsOf n (d * i + d - 1) (d * i)

/-- Compress and Decompress. -/
def kemCompress (d x : Nat) : Nat := (2 * x * 2 ^ d + 3329) / (2 * 3329) % 2 ^ d
def kemDecompress (d y : Nat) : Nat := (2 * 3329 * y + 2 ^ d) / 2 ^ (d + 1)

/-- The coefficients that SampleNTT takes from a stream, three bytes at a time. -/
def kemReject : List Byte → List Nat
  | a :: b :: c :: r =>
    let x := a.toNat + 256 * (b.toNat % 16)
    let y := b.toNat / 16 + 16 * c.toNat
    (if x < 3329 then [x] else []) ++ (if y < 3329 then [y] else []) ++ kemReject r
  | _ => []

/-- SampleNTT, from the first 24 blocks of the stream. -/
def kemSampleNtt (seed : List Byte) : List Nat := (kemReject (spHash 3 seed (24 * 168))).take 256

/-- SamplePolyCBD with η = 2: two coefficients a byte. -/
def kemCbd (b : List Byte) : List Nat :=
  (b.map fun x =>
    let v := x.toNat
    [(v % 2 + v / 2 % 2 + 3329 - v / 4 % 2 - v / 8 % 2) % 3329,
     (v / 16 % 2 + v / 32 % 2 + 3329 - v / 64 % 2 - v / 128 % 2) % 3329]).flatten

/-- Noise polynomial `i` of a seed. -/
def kemNoise (seed : List Byte) (i : Nat) : List Nat := kemCbd (spHash 4 (seed ++ [BitVec.ofNat 8 i]) 128)

/-- Entry (i, j) of the matrix A. -/
def kemA (rho : List Byte) (i j : Nat) : List Nat := kemSampleNtt (rho ++ [BitVec.ofNat 8 j, BitVec.ofNat 8 i])

/-- The sum of the products of two vectors in the transform domain. -/
def kemDot (a b : List (List Nat)) : List Nat :=
  (List.zipWith (nttMul kemRing) a b).foldl (polyAdd 3329) (List.replicate 256 0)

/-- The vector that bytes encode at 12 bits a coefficient. -/
def kemVec (b : List Byte) : List (List Nat) := (List.range kemK).map fun i => kemDecode 12 (bytesAt b (384 * i) 384)

/-- ML-KEM.KeyGen_internal: ek and dk. -/
def kemKeygen (d z : List Byte) : List Byte × List Byte :=
  let g := spHash 2 (d ++ [4]) 64
  let rho := g.take 32
  let s := (List.range kemK).map fun i => ntt kemRing (kemNoise (g.drop 32) i)
  let e := (List.range kemK).map fun i => ntt kemRing (kemNoise (g.drop 32) (kemK + i))
  let t := (List.range kemK).map fun i =>
    polyAdd 3329 (kemDot ((List.range kemK).map (kemA rho i)) s) (e.getD i [])
  let ek := (t.map (kemEncode 12)).flatten ++ rho
  (ek, (s.map (kemEncode 12)).flatten ++ ek ++ spHash 0 ek 32 ++ z)

/-- K-PKE.Encrypt. -/
def kemEncrypt (ek m r : List Byte) : List Byte :=
  let t := kemVec ek
  let rho := ek.drop 1536
  let y := (List.range kemK).map fun i => ntt kemRing (kemNoise r i)
  let u := (List.range kemK).map fun i =>
    polyAdd 3329 (intt kemRing (kemDot ((List.range kemK).map fun j => kemA rho j i) y)) (kemNoise r (kemK + i))
  let mu := (kemDecode 1 m).map (kemDecompress 1)
  let v := polyAdd 3329 (polyAdd 3329 (intt kemRing (kemDot t y)) (kemNoise r (2 * kemK))) mu
  (u.map fun p => kemEncode 11 (p.map (kemCompress 11))).flatten ++ kemEncode 5 (v.map (kemCompress 5))

/-- K-PKE.Decrypt. -/
def kemDecrypt (dk c : List Byte) : List Byte :=
  let u := (List.range kemK).map fun i => (kemDecode 11 (bytesAt c (352 * i) 352)).map (kemDecompress 11)
  let v := (kemDecode 5 (c.drop 1408)).map (kemDecompress 5)
  let w := polySub 3329 v (intt kemRing (kemDot (kemVec dk) (u.map (ntt kemRing))))
  kemEncode 1 (w.map (kemCompress 1))

/-- The modulus check of FIPS 203 on an encapsulation key. -/
def kemEkOk (ek : List Byte) : Bool := (kemVec ek).all fun p => p.all fun x => decide (x < 3329)

/-- ML-KEM.Encaps_internal: the ciphertext and K. -/
def kemEncaps (ek m : List Byte) : List Byte × List Byte :=
  let g := spHash 2 (m ++ spHash 0 ek 32) 64
  (kemEncrypt ek m (g.drop 32), g.take 32)

/-- ML-KEM.Decaps_internal, with implicit rejection. -/
def kemDecaps (dk c : List Byte) : List Byte :=
  let ek := bytesAt dk 1536 1568
  let m := kemDecrypt dk c
  let g := spHash 2 (m ++ bytesAt dk 3104 32) 64
  if kemEncrypt ek m (g.drop 32) = c then g.take 32 else spHash 4 (bytesAt dk 3136 32 ++ c) 32

/-! ## Falcon-1024 verification -/

/-- The samples of hash-to-point among a stream's 16-bit values: those below 5q, each with the number of values read up to it. -/
def falconReject : Nat → List Byte → List (Nat × Nat)
  | i, a :: b :: r =>
    let t := a.toNat * 256 + b.toNat
    (if t < 61445 then [(t % 12289, i + 1)] else []) ++ falconReject (i + 1) r
  | _, _ => []

/-- Hash-to-point of nonce and message: the polynomial and the number of squeeze blocks it needs, at least 17 (R204), or none beyond 24. -/
def falconPoint (msg : List Byte) : Option (List Nat × Nat) :=
  let l := (falconReject 0 (spHash 4 msg (24 * 136))).take 1024
  if l.length < 1024 then none
  else some (l.map (·.1), max 17 (((l.getLast?.map (·.2)).getD 0 * 2 + 135) / 136))

/-- A public key: header 0x0A and 1,024 coefficients of 14 bits, most significant bit first. -/
def falconKey (pk : List Byte) : Option (List Nat) :=
  let n := beNat (pk.drop 1)
  let h := (List.range 1024).map fun i => bitsOf n (14 * (1023 - i) + 13) (14 * (1023 - i))
  if pk.head? = some 0x0A ∧ h.all (fun x => decide (x < 12289)) then some h else none

/-- The number of zeros before the next 1, with the bits after it; at most `k` bits are read. -/
def unary : Nat → List Bool → Nat → Option (Nat × List Bool)
  | 0, _, _ => none
  | _ + 1, [], _ => none
  | k + 1, b :: r, n => if b then some (n, r) else unary k r (n + 1)

/-- The coefficients of a compressed signature, and the bits that follow them. -/
def falconCoeffs : Nat → List Bool → Option (List Int × List Bool)
  | 0, b => some ([], b)
  | k + 1, b =>
    match b with
    | sg :: b6 :: b5 :: b4 :: b3 :: b2 :: b1 :: b0 :: r =>
      let low := [b6, b5, b4, b3, b2, b1, b0].foldl (fun a x => 2 * a + b2n x) 0
      match unary 16 r 0 with
      | none => none
      | some (hi, r') =>
        let v := 128 * hi + low
        if sg && decide (v = 0) then none
        else
          match falconCoeffs k r' with
          | none => none
          | some (cs, rest) => some ((if sg then -(v : Int) else (v : Int)) :: cs, rest)
    | _ => none

/-- The bits of bytes, most significant first. -/
def msbBits (b : List Byte) : List Bool := (b.map fun x => (List.range 8).map fun i => x.getLsbD (7 - i)).flatten

/-- A signature: header 0x3A, a 40-byte nonce, the compressed polynomial, and zero bits to the end. -/
def falconSig (sig : List Byte) : Option (List Byte × List Int) :=
  if sig.head? = some 0x3A ∧ 41 ≤ sig.length then
    match falconCoeffs 1024 (msbBits (sig.drop 41)) with
    | some (cs, rest) => if rest.all (!·) then some (bytesAt sig 1 40, cs) else none
    | none => none
  else none

/-- The representative of least absolute value. -/
def centred (q x : Nat) : Int := if 2 * x > q then (x : Int) - (q : Int) else (x : Int)

/-- The bound on the squared norm of a Falcon-1024 signature. -/
def falconBound : Nat := 70265242

/-- Verify: whether the signature holds, and the squeeze blocks that hash-to-point needs. A key or a signature that is malformed needs none, and
R204 gives no count for it: the maximum, 24, is taken. DESIGN CHOICE (log entry 195). -/
def falconVerify (pk msg sig : List Byte) : Bool × Nat :=
  match falconKey pk, falconSig sig with
  | some h, some (nonce, s2) =>
    match falconPoint (nonce ++ msg) with
    | none => (false, 24)
    | some (c, n) =>
      let r := ringOf 1
      let s := s2.map fun x => (x % 12289).toNat
      let s1 := polySub 12289 c (intt r (nttMul r (ntt r s) (ntt r h)))
      let norm := (s1.map fun x => (centred 12289 x).natAbs ^ 2).foldl (· + ·) 0 + (s2.map fun x => x.natAbs ^ 2).foldl (· + ·) 0
      (decide (norm ≤ falconBound), n)
  | _, _ => (false, 24)

end Sys2Proof.Machine
end

