-- ==== Sys2Proof/Config.lean ====
section
/-! DEFINITION. The free values: what the spec leaves open. None has a body, so no proof can use what it is. -/

namespace Sys2Proof.Config

/-- What the word at an address of a protected array that nothing has written decodes as: 0 no error, 1 a correctable
error, otherwise an uncorrectable error (R446). The array is numbered as in `Sys2Proof.Machine.Arr` reads. -/
opaque rawState : Nat → Nat → Nat
/-- The byte that an array cell holds which nothing has written (R446). -/
opaque rawByte : Nat → Nat → Byte
/-- A word of a Policy Table replica or an on-chip record that nothing has written (R446). -/
opaque rawWord : Nat → Nat → Word
/-- The bit that the correction of a never-written word flips, 0 to 71 (R449). -/
opaque rawBit : Nat → Nat → Nat
/-- The syndrome of an uncorrectable error of a never-written word, as its place among the bytes that are no column of the code (R444, R449). -/
opaque rawSyndrome : Nat → Nat → Nat
/-- The check matrix: which of the odd-weight bytes still free data bit `i` takes as its column (R444 gives the kind of code and no matrix). -/
opaque eccColumn : Nat → Nat
/-- The mismatches that a channel's compare engine counts on a lane while it is trained, by channel, lane and draw (R433). -/
opaque trainErr : Nat → Nat → Nat → Nat
/-- The ticks of a tracking blackout, by draw; at most 1 µs (R434). -/
opaque blackout : Nat → Nat
/-- The DRAM remap list of the flash's vendor area, as channel and channel page: R461 names it and gives it no place and no layout. -/
opaque remapList : List Byte → List (Nat × Nat)
/-- How many ticks of 1/24 ns before the start of the slot a timebase sample was taken, at most 96 (R108). -/
opaque sampleAge : Nat → Nat
/-- The soft errors that strike while a core cycle passes, by draw: the array, the place in it and the bit or kind, numbered as in
`Sys2Proof.Machine.State.upset` (R241, R252, R352, R361, R438, R445). -/
opaque upsets : Nat → List (Nat × Nat × Nat)
/-- The byte address of a queue's record within the TM state arrays, by queue: R379 and R399 give the arrays no layout. -/
opaque tmAddr : Nat → Nat
/-- What the last transfer of a read decodes as whose replays have all failed: 0 good, 1 a correctable error, otherwise an uncorrectable one,
by draw (R438). -/
opaque lastTransfer : Nat → Nat
/-- Whether a CLEAN that coincides with a recall of its line reports completion at once, by draw (R250, KL-1). -/
opaque cleanEarly : Nat → Bool
/-- KIND of the lifetime entry that a WRITE to ACTIVE leaves, by draw: R336 has every move write an entry, and R357 gives KIND no code for this
one. -/
opaque lifeKind : Nat → Nat
/-- The place of the rotating pointer at core cycle 0: R166 gives its step and no origin. -/
opaque rotOrigin : Nat
/-- The way that pseudo-LRU replacement evicts: cluster, set, draw (R241). -/
opaque victimWay : Nat → Nat → Nat → Nat
/-- A byte of the noise source or the random number generator, by draw (R206, R464). -/
opaque randomByte : Nat → Byte
/-- A byte that an aborted or failed coprocessor command left in its destination, by draw (R200). -/
opaque abortedByte : Nat → Byte
/-- The energy in nanojoules that a page consumed between two updates of its Tally, by page and draw (R492). -/
opaque energy : Nat → Nat → Nat

/-- What the bytes of a save area are masked with, by coprocessor and offset: their format is open beyond word 0 (R196). -/
opaque saveMask : Nat → Nat → Byte
/-- The 16-bit check over words 1 to 63 of a save area (R196). -/
opaque saveCheck : List Byte → BitVec 16
/-- The execution count of a command whose count the spec only bounds, by draw (R194, R203). -/
opaque count : Nat → Nat
/-- The part of a VAULT_UNWRAP's execution count that the spec only bounds, by variant, semiblocks and KEK length (R194, R209). -/
opaque vaultCount : Nat → Nat → Nat → Nat
/-- Which word of a command block holds LEN2: R204 and R209 name the length and R187 gives it no place. -/
opaque len2Word : Nat → Nat

/-- The set of the fragment table in which a key stands (R279 gives the table 16,384 sets and no hash). -/
opaque fragSet : List Byte → Nat
/-- The owner ID that a Policy Table operation presents to POL_WLOCK: R311 names a register of the POL page, and R326 lists none. -/
opaque polOwner : Nat → BitVec 14
/-- What a byte of host memory holds that the part has not written. -/
opaque hostByte : Nat → Byte
/-- The error of a timestamp in ns plus 2, 0 to 4 (R267). -/
opaque stampError : Nat → Nat

/-- The page offset of a register of the DBG page for which R563 and R565 give none: 0 DBG_THR_SEL, 1 DBG_THR_CMD, 2 DBG_CAP_CTRL,
3 and 4 DBG_CAP_BASE low and high, 5 its SIZE, 6 DBG_CAP_RD, 7 DBG_CAP_LOST. -/
opaque dbgOffset : Nat → Nat
/-- Word `i` of a capture record's header for a POINT, PORT and FRAME_LEN: R565 names what word 0 holds and not where, and leaves
words 3 to 7 open. -/
opaque capHeader : Nat → Nat → Nat → Nat → Word

/-- What the payloads of a profile image and of its schedule image hold: R458 says what stands in them and not how (none: the payloads
do not spell a profile). -/
opaque profileOf : List Byte → List Byte → Option Profile
/-- A byte of an OTP field burned at final test (R454): 0 VENDOR_HASH, 1 SERIAL, 2 ID_HASH, 3 ID_WRAPPED, 4 PUF_HELPER. -/
opaque otpByte : Nat → Nat → Byte
/-- The page offset of an OTP register for which the spec gives none: 0 OTP_CMD, 1 OTP_DATA0, 2 the readable fields (R456). -/
opaque otpOffset : Nat → Nat
/-- What OTP_CMD reads as after a command: 0 none yet, 1 done, 2 REFUSED, 3 MISMATCH; and the word whose write is BURN_OWNER: R456 gives
neither. -/
opaque otpStatus : Nat → Word
opaque otpBurn : Word
/-- A byte of the measurement of the boot ROM (R465). -/
opaque romMeasure : Nat → Byte
/-- Byte `i` of the Falcon-1024 signature of a report by the identity key, and its length, by key and report (R465). -/
opaque reportSig : List Byte → List Byte → Nat → Byte
opaque reportSigLen : List Byte → List Byte → Nat
/-- The ticks that the calendar checker takes over a profile, by draw; at most 40 ms (R79). -/
opaque checkTicks : Nat → Nat
/-- Whether a pulse between the filter's two limits is taken, by draw (R470, R497). -/
opaque pulseTaken : Nat → Bool

/-- SLOT as bytes of the key-derivation input of KEY_LOAD: R468 gives it no width. -/
opaque slotBytes : Nat → List Byte
/-- Where the identity certificate stands in the vendor area of the flash, and its length: R461 gives neither. -/
opaque certOffset : Nat
opaque certLength : Nat
/-- CAUSE of CPH_LAST_DROP for a drop that the SAT page counts at an offset: R358's table has no code for it. -/
opaque satCause : Nat → Nat
/-- What a failed calendar check returns in response word `i` for a failing condition, a calendar and an entry: R79 names the three and gives
them no places and no codes. -/
opaque calReport : Nat → Nat → Nat → Nat → Word

/-- Whether the SEC has its engines' domain switched ON, by draw (R485). -/
opaque secEngines : Nat → Bool
/-- The share of the bits of a BURN_OWNER that were burned when the power went, by draw; and the ticks the burn takes, at most 50 ms (R456). -/
opaque burnMask : Nat → Nat → Byte
opaque burnTicks : Nat → Nat
/-- The ticks that an ATTEST or a KEY_LOAD takes, by draw; at most 20 ms and 2 ms (R465, R468). -/
opaque secTicks : Nat → Nat
/-- The key that the PUF and its helper data give after PORST_N; the public key of an identity private key (R454, R465). -/
opaque pufKey : List Byte → List Byte
opaque idPublic : List Byte → List Byte
/-- The CAUSE of a report for which R538 lists none, by draw: a domain that faults while it switches (R486). -/
opaque faultCause : Nat → Nat
/-- The refresh rate that an MR4 value asks for: 0 at most 1×, 1 2×, otherwise above 2×: R437 gives the value no layout. -/
opaque mr4Rate : Nat → Nat

/-- The lane that a degraded link names and the fault kind of a die fatal, by draw: no operand and no rule gives them (R538). -/
opaque faultDetail : Nat → Nat

/-- The vendor's JEP106 code (R562). -/
opaque jep106 : Nat
/-- The number of cells of the boundary register, and what cell `i` captures from its ball, by draw: R562 gives no order and no length. -/
opaque boundaryCells : Nat
opaque boundaryBit : Nat → Nat → Bool

end Sys2Proof.Config
end

