-- ==== Sys2Proof/Machine/State.lean ====
section
/-! DEFINITION. The state of the BW6400: every register, memory, queue, counter and mode that the spec names, as plain data,
the commands waiting, and the state after reset. -/

namespace Sys2Proof.Machine

/-! ## Clocks, outputs, arrays -/

/-- The clocks (R6, R39 to R41). One tick is 1/24 ns, so that a core cycle (12, 15, 20 or 30 ticks), a fabric cycle (16),
a management cycle (48) and a nanosecond (24) are whole. Core cycle `cycNo` began at tick `cycAt`; it stands on a round boundary. -/
structure Clk where
  point : Nat
  cycAt : Nat
  cycNo : Nat
  deriving DecidableEq, Repr

/-- What leaves the part, newest first in `State.out`: the model's own record of what an agent outside observes. -/
inductive Out where
  /-- a frame at a port's transmitter, without preamble and FCS -/
  | frame (port : Nat) (bytes : List Byte)
  /-- a PFC frame: port, class-enable vector, quanta of the eight priorities -/
  | pfc (port : Nat) (enable : Nat) (quanta : List Nat)
  /-- an MSI-X message with its vector (R536) -/
  | msix (vector : Nat)
  /-- an event handed to the resident firmware of the FMG: the page (R536) -/
  | fmgEvent (page : Nat)
  /-- the word that a register read, an I2C read or a debug read returned -/
  | data (value : Word)
  /-- the bytes a BAR2 read returned, and whether the completion carries EP (R448) -/
  | bytes (value : List Byte) (poisoned : Bool)
  /-- a BAR2 read that completed with Unsupported Request (R549) -/
  | unsupported
  /-- bits shifted out at TDO (R562) -/
  | tdo (bits : List Bool)
  /-- a pulse on EPOCH_MARK_OUT -/
  | epochMark
  /-- a pulse on PPS_OUT -/
  | pps
  /-- the SerDes transmitters of a quad (P-die × 8 + quad) go to electrical idle (R514, R515) -/
  | txIdle (quad : Nat)
  deriving DecidableEq, Repr

/-- A soft error in a stored 8-byte word (R444): uncorrectable or correctable, the word within its entry, the bit that the correction
flips, the syndrome. -/
structure Flaw where
  ue   : Bool
  word : Nat
  bit  : Nat
  synd : Nat
  deriving DecidableEq, Repr

/-- A protected memory array (R445): the bytes that have been written since the array lost its contents, by address; the 8-byte words (by
address div 8) that hold the poison pattern of R444, and those that a soft error has struck since they were written. An unlisted byte
has never been written. -/
structure Arr where
  cells  : Tbl Byte
  poison : Tbl Unit
  hurt   : Tbl Flaw
  deriving DecidableEq, Repr

/-- What the hardware did to registers in one fabric cycle (R7): the cycle plus 1; by register the word before the cycle's first count, and
the bits set and the counts added in it. -/
structure HwActs where
  cyc  : Nat
  acts : Tbl (Word × Word)
  deriving DecidableEq, Repr

/-- What entries of a table held before they were written in a cycle: the cycle plus 1, and the values by key. -/
structure Was (α : Type) where
  cyc : Nat
  old : Tbl α
  deriving DecidableEq, Repr

/-- A table that no write has touched. -/
def Was.empty : Was α := { cyc := 0, old := [] }

/-- A record of the SA Table in the fabric cycle of a software operation on it (R325, R335): the record as the engines see it, what it decodes
as (0 good, 1 CE, 2 UE), its correctable errors and the syndrome of its uncorrectable one, and the operations of the cycle, oldest first, with
their images. -/
structure SatCyc where
  eng  : List Nat
  code : Nat
  ces  : List (Nat × Nat × Nat)
  synd : Nat
  ops  : List (Nat × List Nat)
  deriving DecidableEq, Repr

/-! ## Hardware threads -/

/-- The context states of R146 without STOPPED, which is a flag beside them (R181). `idle` is FREE in a task-mode cluster
and PKT_IDLE in a packet-mode cluster; `running` is RUNNING or PKT_RUN. -/
inductive TState where
  | idle | running | waitEvent | waitLock | waitChan | waitJoin | waitSb | exited | resetting
  deriving DecidableEq, Repr

/-- A result on its way to a result socket: readable from core cycle `at_` on (R110). -/
structure Pend where
  at_   : Nat
  sock  : Nat
  value : Word
  deriving DecidableEq, Repr

/-- A repeat in progress (R97 to R101, R226): the issues of the body that may take effect (the latched count, or 0 under a
prefix that was guarded false), the slots it takes, whether a cap set them, the body's address, the index of the next issue,
and whether the body's first issue, which is checked under R97, is still to come. -/
structure Rep where
  live   : Nat
  total  : Nat
  capped : Bool
  body   : Nat
  index  : Nat
  first  : Bool
  deriving DecidableEq, Repr

/-- An outstanding DM access (R138): a load or a store, its scoreboard bit, what it delivers, the cycle of its bound, its 64-byte line as
an aperture offset div 64 (R140), and whether it is a store written around the cache (R243). -/
structure DmOp where
  load   : Bool
  sb     : Nat
  value  : Word
  poison : Bool
  due    : Nat
  line   : Nat
  around : Bool
  deriving DecidableEq, Repr

/-- A trap that a context will take in its first slot at or after core cycle `at_` (R133, R141): its cause and detail. -/
structure LateTrap where
  at_    : Nat
  cause  : Nat
  detail : Nat
  deriving DecidableEq, Repr

/-- A task-mode TB lookup outstanding (R136): get or cnt, and the value written. -/
structure TbOp where
  cnt : Bool
  val : Word
  deriving DecidableEq, Repr

/-- One hardware context (R109, R146). -/
structure Thread where
  st       : TState
  stopped  : Bool
  stepping : Bool
  w        : Tbl Word
  p        : BitVec 8
  op       : Tbl Word
  res      : Tbl Word
  pend     : List Pend
  sb       : BitVec 16
  sbOwned  : BitVec 16
  sbPois   : BitVec 16
  carry    : Bool
  ov       : Bool
  dz       : Bool
  ctl      : Word
  vec      : Word
  cause    : Word
  inTrap   : Bool
  pc       : Nat
  lr       : Word
  rc       : Word
  thi      : Word
  rep      : Option Rep
  nextCyc  : Nat
  ev       : BitVec 16
  mask     : BitVec 16
  waitObj  : Word
  timeout  : Option Nat
  dm       : List DmOp
  tb       : Option TbOp
  forked   : Bool
  detached : Bool
  parent   : Option Nat
  exitVal  : Word
  dead     : Tbl Word
  tcb      : Option Nat
  saveReq  : Option (Nat × Nat)
  killBy   : Nat
  waitAt   : Option (Nat × Option Rep)
  buf      : Nat
  t0       : Nat
  ended    : Bool
  polFail  : Nat
  recPois  : Bool
  lateTrap : List LateTrap
  tbTick   : Nat
  deriving DecidableEq, Repr

/-- A context after power-on: idle, every register and socket 0. -/
def Thread.fresh : Thread :=
  { st := .idle, stopped := false, stepping := false, w := [], p := 0, op := [], res := [], pend := [], sb := 0,
    sbOwned := 0, sbPois := 0, carry := false, ov := false, dz := false, ctl := 0, vec := 0, cause := 0,
    inTrap := false, pc := 0, lr := 0, rc := 0, thi := 0, rep := Option.none, nextCyc := 0, ev := 0, mask := 0,
    waitObj := 0, timeout := Option.none, dm := [], tb := Option.none, forked := false, detached := false,
    parent := Option.none, exitVal := 0, dead := [], tcb := Option.none, saveReq := Option.none, killBy := 0,
    waitAt := Option.none, buf := 0, t0 := 0, ended := false, polFail := 0, recPois := false,
    lateTrap := [], tbTick := 0 }

/-! ## Frames of a P-die -/

/-- A frame that a P-die holds between its MAC and enqueue (R282): the descriptor fields that the P-die keeps, the handle of
the stored frame, the slice that took it in (R263), the timebase at its last byte, its fragment key (empty for none), what its Flow Table lookup leaves to be decided at the end of the hold (0
nothing, 1 a DRAM-tier hit, 2 a DRAM-tier miss, 3 a miss without a DRAM-tier lookup), whether its generation has been retired (R412), and the tick at which its
present stage is due. -/
structure Pkt where
  gen       : Nat
  pass      : Nat
  decrypted : Bool
  first     : Bool
  later     : Bool
  stale     : Bool
  black     : Bool
  port      : Nat
  slice     : Nat
  len       : Nat
  rxts      : Nat
  ts        : Nat
  handle    : Nat
  policy    : Nat
  sa        : Nat
  queue     : Nat
  stack     : List Nat
  fkey      : List Byte
  tier      : Nat
  fsa       : Nat := 0
  due       : Nat
  deriving DecidableEq, Repr

/-- A punt handed to its queue pair (R288, R550). -/
structure Punt where
  pkt   : Pkt
  cause : Nat
  copy  : Bool
  deriving DecidableEq, Repr

/-- What the levels of a pool have done in a fabric cycle (R368): the levels before it, whether the WARN event then stood, the XOFF repeats of its
ports then, and what left the part on account of the levels. -/
structure LevelCyc where
  levels : Nat
  event  : Bool
  xoff   : List (Nat × Option Nat)
  sent   : List Out
  deriving DecidableEq, Repr

/-- A frame that the TM holds or hands on (R381, R397): handle, length, charged length L, cipher action, SA index, generation,
the timestamp request of word 7, RX_TS, its port context and queue; whether it is a filler, with template and length; its
ingress role (0 red, 1 black, 2 processor, 3 key-management processor), DECRYPTED, the ingress port (128 + P-die for an injected frame), and whether its
generation was retired before its enqueue (R412); the encapsulated length (R397). -/
structure Tx where
  handle    : Nat
  len       : Nat
  charge    : Nat
  cipher    : Nat
  sa        : Nat
  gen       : Nat
  tsReq     : Nat
  tsTag     : Nat
  tsOff     : Nat
  ckOff     : Nat
  rxts      : Nat
  ctx       : Nat
  queue     : Nat
  filler    : Bool
  tpl       : Nat
  role      : Nat
  decrypted : Bool
  inPort    : Nat
  stale     : Bool
  enc       : Nat := 0
  deriving DecidableEq, Repr

/-- A frame in the egress half (R330): its bytes as they will be sent (none: dropped), the tick at which its last byte is read from the packet
buffer, and that at which it reaches the MAC. -/
structure Egress where
  tx    : Tx
  bytes : Option (List Byte)
  read  : Nat := 0
  due   : Nat
  deriving DecidableEq, Repr

/-- A frame on the cross link (R376): its bytes, its poison bit, and the tick of its arrival. -/
structure Cross where
  tx     : Tx
  bytes  : List Byte
  poison : Bool
  due    : Nat
  deriving DecidableEq, Repr

/-- A packet buffer in the link array (R361): listed where the allocated bit is set. The next buffer of the chain, the offset
and count of the valid bytes, the owner tag, the account and pool charged, the poison bit of a head buffer. -/
structure Buf where
  next   : Option Nat
  off    : Nat
  cnt    : Nat
  tag    : OwnerId
  acct   : Nat
  pool   : Nat
  poison : Bool
  deriving DecidableEq, Repr

/-- A pool (R363, R364): the Till, the most recently freed pointer first; the ring, oldest first, in runs of buffers whose cells
follow one another (first cell, number); READY and the tick at which it is due; the ticks at which refills complete; which of the
thresholds WARN, PAUSE, HOLD, EXH are in force, bit 0 to 3; the ring entry of the oldest pointer. -/
structure Pool where
  till    : List Nat
  ring    : List (Nat × Nat)
  ready   : Bool
  readyAt : Option Nat
  refills : List Nat
  levels  : Nat
  head    : Nat
  deriving DecidableEq, Repr

/-- A pool that is disabled. -/
def Pool.empty : Pool :=
  { till := [], ring := [], ready := false, readyAt := Option.none, refills := [], levels := 0, head := 0 }

/-- A fragment-table entry (R279 to R281): its key, its result (0 forward with policy, SA index and queue; 1 punt with a cause;
2 drop) or none while that is awaited, the tick of its last use, and a soft error that its record holds. -/
structure Frag where
  key    : List Byte
  result : Option (Nat × Nat × Nat × Nat)
  used   : Nat
  flaw   : Option Flaw
  deriving DecidableEq, Repr

/-- A Flow Table command as the learn engine holds it (R315): the P-die through which it was issued, its source (ring 0 to 3, or
4 the registers), its operation and the image. -/
structure FtCmd where
  die   : Nat
  via   : Nat
  op    : Nat
  word  : Nat
  image : List Nat
  deriving DecidableEq, Repr

/-- A learn event (R312), or a command on a KTYPE 1 key (R315): words 1 to 3 of the key, the ingress port ID, the SA index, the
timebase, the tick of its arrival at the queue, and the slice whose frame raised it (8 for a command). -/
structure Learn where
  key  : List Nat
  port : Nat
  sa   : Nat
  ts   : Nat
  at_  : Nat
  slice : Nat
  cmd  : Option FtCmd
  deriving DecidableEq, Repr

/-- A learn write that awaits the other P-die's answer (R314): the event, the entry written (none: a deletion), the answer of the
home table as a code of R305, and the status and location that a command would report. -/
structure LearnWait where
  ev    : Learn
  entry : Option (List Nat)
  code  : Nat
  moves : Nat
  loc   : Option Nat
  deriving DecidableEq, Repr

/-- A DRAM-tier insert that relocates (R308, R309): the entry to insert, the source of the command, the moves still to be made as
(from, to) ways, last first; the phase of the move at hand (1 copied and being written, 2 written, 3 cleared), the stash entry
of the move at hand, the moves performed. -/
structure Reloc where
  entry : List Nat
  via   : Nat
  moves : List (Nat × Nat)
  phase : Nat
  stash : Nat
  done  : Nat
  target : Nat
  deriving DecidableEq, Repr

/-- What a P-die holds beside its tables and buffers: the frames inside T_ING by slice, the hold queue, the fragment wait store,
the classifier hold, the ready queue; the frames waiting for and on the cross link, with the tick from which the cap lets the
next one go; the transmit FIFO and the egress half of each slice, and its timestamp FIFO (tag, port context, timestamp); the
fragment table; the learn queue, and the learn write that awaits an answer; per command ring (0 to 3 Flow Table, 4 to 7 BPM)
the consumer index and the producer index last read; a relocation in progress; the sweeps queued as (owner, mask) and the one that runs with
the tick of its end; the lifetime FIFO as (kind, index); the core cycle at which the seam guard ends; the entries of the bad-free log, in the order in which they were written last; per slice pair
the bytes of a JOINT port that each slice has received and ciphered (R263); the tick until which an operation of TM_IND_CMD runs (R399). -/
structure PDieState where
  ingress  : Tbl (List Pkt)
  holdq    : List Pkt
  fragWait : List Pkt
  hold     : List Pkt
  ready    : List Pkt
  xwait    : List Tx
  xfree    : Nat
  xfly     : List Cross
  fifo     : Tbl (List Tx)
  egress   : Tbl (List Egress)
  tsFifo   : Tbl (List (Nat × Nat × Nat))
  frags    : Tbl Frag
  learnq   : List Learn
  learning : Option LearnWait
  rings    : Tbl (Nat × Nat)
  reloc    : Option Reloc
  sweeps   : List (Nat × Nat)
  sweep    : Option (Nat × Nat × Nat)
  life     : List (Nat × Nat)
  seamEnd  : Option Nat
  badOld   : List Nat
  jrx      : Tbl (Nat × Nat)
  jtx      : Tbl (Nat × Nat)
  tmBusy   : Nat
  deriving DecidableEq, Repr

/-- A P-die that holds nothing. -/
def PDieState.empty : PDieState :=
  { ingress := [], holdq := [], fragWait := [], hold := [], ready := [], xwait := [], xfree := 0, xfly := [], fifo := [], egress := [],
    tsFifo := [], frags := [], learnq := [], learning := Option.none, rings := [], reloc := Option.none, sweeps := [],
    sweep := Option.none, life := [], seamEnd := Option.none, badOld := [], jrx := [], jtx := [], tmBusy := 0 }

/-! ## The traffic manager -/

/-- What a FLUSH took from a queue, for a selection of the same fabric cycle (R384): the fabric cycle plus 1, the head frame and its buffers,
the queue's place in its port's active list, whether the position stood on it, VISIT, and the deficit; the frame's bytes and its poison. -/
structure FlushTurn where
  cyc   : Nat
  head  : Tx
  bufs  : List (Nat × Buf)
  place : Option Nat
  stood : Bool
  visit : Bool
  defi  : Nat
  bytes : List Byte × Bool := ([], false)
  deriving DecidableEq, Repr

/-- A queue (R379 to R386, R399): words 0 to 2 of its record, its frames, head first, the charged bytes, the deficit; the fabric cycle
plus 1 of the latest enqueue, and the sources of the frames appended in it (R381); the fabric cycle plus 1 of the latest WRITE, and the
words as they were before it (R399); what a FLUSH took; a soft error that the record holds. -/
structure TmQueue where
  w0     : Word
  w1     : Word
  w2     : Word
  frames : List Tx
  bytes  : Nat
  defi   : Nat
  tail   : Nat × List Nat
  was    : Nat × Word × Word × Word
  flush  : Option FlushTurn
  flaw   : Option Flaw
  deriving DecidableEq, Repr

/-- A queue with its record at the reset values. -/
def TmQueue.fresh : TmQueue :=
  { w0 := 0, w1 := 0x18, w2 := 0, frames := [], bytes := 0, defi := 0, tail := (0, []), was := (0, 0, 0, 0), flush := Option.none,
    flaw := Option.none }

/-- A shaper or a policer (R388 to R390, R399): words 0 and 1; words 3 and 4 of a shaper as stored and as active; the balance in
1/65,536 coin; the timebase of the latest credit; the frames that a policer passed and dropped; whether the record has been written;
the fabric cycle of the latest charge or WRITE plus 1, and the balance before that cycle (R387, R399); the fabric cycle plus 1 of the latest
WRITE that reset the balance (R389); that of the latest WRITE, and word 1 before it (R399). -/
structure Bucket where
  w0      : Word
  w1      : Word
  w3      : Word
  w4      : Word
  a3      : Word
  a4      : Word
  bal     : Int
  last    : Nat
  passed  : Nat
  dropped : Nat
  written : Bool
  chgCyc  : Nat
  chgBal  : Int
  wrote   : Nat
  was     : Nat × Word
  deriving DecidableEq, Repr

/-- A bucket with its record at the reset values: BAL = BURST. -/
def Bucket.fresh : Bucket :=
  { w0 := 0, w1 := 0x2800, w3 := 0, w4 := 0x00400000, a3 := 0, a4 := 0x00400000, bal := 0x2800 * 65536, last := 0, passed := 0,
    dropped := 0, written := false, chgCyc := 0, chgBal := 0, wrote := 0, was := (0, 0) }

/-- A port context of the TM (R385, R386): the active list, the current position, VISIT, and the cover queue served last. -/
structure TmPort where
  active : List Nat
  pos    : Nat
  visit  : Bool
  cover  : Nat
  deriving DecidableEq, Repr

/-- A port context with no queue active. -/
def TmPort.fresh : TmPort := { active := [], pos := 0, visit := false, cover := 0 }

/-! ## Records in flight -/

/-- A record that a P-die has dispatched and whose result it has not taken (R51 to R57): the thread and buffer, the core
cycle of its dispatch slot, the 256 bytes sent, the frame (none for RUN_RECORD), whether it has been delivered, and why its result will be a DROP: 0 not,
otherwise a trap cause of R148, or 0x100 late at delivery, 0x101 cluster lost, 0x102 poisoned record, 0x103 stopped thread; whether the result is late;
its policy-fail latch: 0 clear, 1 a miss, 2 a parity error (R135); whether the read of its header window met an uncorrectable error (R375). -/
structure Flight where
  die       : Nat
  thread    : Nat
  buf       : Nat
  dcyc      : Nat
  slot      : Nat
  record    : List Byte
  pkt       : Option Pkt
  delivered : Bool
  cause     : Nat
  returned  : Option (List Byte × Nat)
  late      : Bool
  pol       : Nat
  ue        : Bool := false
  deriving DecidableEq, Repr

/-! ## Escrow, channels, clusters -/

/-- An acq, try, arm or release of a lock (0, 1, 2, 3) in the core cycle of a `LockTurn`: its context, the address and the repeat of its word, and
whether e14 was latched before it. -/
structure LockOp where
  thread : Nat
  kind   : Nat
  back   : Nat × Option Rep
  ev     : Bool
  deriving DecidableEq, Repr

/-- The lock operations of one core cycle, in the order in which they act (R166): the cycle, the lock as it stood before them, and the
operations. -/
structure LockTurn where
  cyc       : Nat
  held      : Bool
  abandoned : Bool
  owner     : OwnerId
  waiters   : List Nat
  armed     : List Nat
  ops       : List LockOp
  deriving DecidableEq, Repr

/-- An Escrow lock (R162 to R168), with the operations of the latest core cycle in which an acq, try or arm named it (R166). -/
structure Lock where
  held      : Bool
  abandoned : Bool
  owner     : OwnerId
  waiters   : List Nat
  armed     : List Nat
  turn      : Option LockTurn
  deriving DecidableEq, Repr

/-- A free lock that nobody has used since reset. -/
def Lock.free : Lock := { held := false, abandoned := false, owner := 0, waiters := [], armed := [], turn := none }

/-- A sealed message (R174): readable by receives from core cycle `at_` on (R175). -/
structure Msg where
  sender : OwnerId
  words  : List Word
  at_    : Nat
  deriving DecidableEq, Repr

/-- A seal in the core cycle of a `ChanTurn`: its context, whether it is a try-send, the message, the address and the repeat of its word. -/
structure SealOp where
  thread : Nat
  try_   : Bool
  msg    : Msg
  back   : Nat × Option Rep
  deriving DecidableEq, Repr

/-- The seals of one core cycle, in the order in which they act (R177): the cycle, the channel as it stood before them, and the seals. -/
structure ChanTurn where
  cyc   : Nat
  msgs  : List Msg
  recvq : List Nat
  sendq : List (Nat × Msg)
  ops   : List SealOp
  deriving DecidableEq, Repr

/-- A channel (R174 to R177): its messages oldest first, the queued receivers and senders, the armed threads, and the seals of the latest
core cycle in which one named it (R177). -/
structure Chan where
  msgs  : List Msg
  recvq : List Nat
  sendq : List (Nat × Msg)
  armed : List Nat
  turn  : Option ChanTurn
  deriving DecidableEq, Repr

/-- An empty channel. -/
def Chan.empty : Chan := { msgs := [], recvq := [], sendq := [], armed := [], turn := none }

/-- The mode of a cluster, and how it stands to the fault manager (R13, R73, R511, R516). -/
inductive CluState where
  | live | lost | resetting | retired
  deriving DecidableEq, Repr

/-- A cache line of the CDC (R241, R244), and which of its parity bits do not match what they cover: bit g that of bytes 4g to 4g + 3,
bit 16 that of the tag with its valid and dirty state. -/
structure Line where
  tag     : Nat
  set     : Nat
  dirty   : Bool
  wbPend  : Bool
  data    : List Byte
  bad     : BitVec 17
  deriving DecidableEq, Repr

/-- A maintenance operation accepted by the CDC (R248, R249): the thread that issued it and its scoreboard bit (none: the
CDC page), its code and aperture offset, whether it ends REFUSED, whether a class 3 error stopped it; `wait` is none until it is carried
out, then the number of the writebacks in flight, from the oldest, whose acknowledgement it waits for; the write-arounds that it waits
for, as context and scoreboard bit; the core cycle in which it was carried out. -/
structure Maint where
  thread  : Option Nat
  sb      : Nat
  code    : Nat
  off     : Nat
  refused : Bool
  fatal   : Bool
  wait    : Option Nat
  arounds : List (Nat × Nat)
  cyc     : Nat
  deriving DecidableEq, Repr

/-- A flush that a register write required (R255): the register, the value that takes effect after it, the writebacks it
still waits for. -/
structure Flush where
  reg   : Nat
  value : Word
  wait  : Nat
  deriving DecidableEq, Repr

/-- A LS access of a core cycle that may still be followed by accesses of an earlier A-port cycle (R64, R65): the A-port cycle `g`, the
context, the core cycle of its issue, its modifier, address and data; for a store whether it was performed, and its 8-byte word before it;
whether an error that it met is recorded. -/
structure LsAcc where
  g      : Nat
  thread : Nat
  at_    : Nat
  x      : Nat
  addr   : Nat
  data   : Word
  done   : Bool
  old    : Arr
  logged : Bool
  deriving DecidableEq, Repr

/-- What a master of the B port of a CMEM stored in core cycle `g`, which an A-port access of that cycle may still precede (R65, R203, R236):
the master (0 to 3 a coprocessor, 4 fill mode, 5 the host window), the parts as address and bytes, whether a word written in part must decode;
for a coprocessor the status word without COLLIDED, the address of STATUS, and the context whose CPn.st holds it; the ranges of words that it
wrote, as they stood before. -/
structure BAcc where
  g      : Nat
  who    : Nat
  parts  : List (Nat × List Byte)
  merge  : Bool
  code   : Nat
  stat   : Option Nat
  thread : Option Nat
  saved  : List (Nat × Nat × Arr)
  deriving DecidableEq, Repr

/-- A fill of a CMEM that runs (R236): its address, length and pattern, the core cycle of GO, and the pieces of 128 bytes written so far. -/
structure CmemFill where
  addr  : Nat
  len   : Nat
  pat   : Nat
  start : Nat
  done  : Nat
  deriving DecidableEq, Repr

/-- A packet-mode TB lookup whose port cycle may still be to come (R61): the core, the grant as cycle × 4 + port, the context, the core cycle
of its issue, whether it counts, its value, the status that it met, and the policy-fail latch of its context before it. -/
structure TbAcc where
  core   : Nat
  g      : Nat
  thread : Nat
  at_    : Nat
  cnt    : Bool
  val    : Word
  status : Nat
  fail   : Nat
  deriving DecidableEq, Repr

/-- A DM access to an addressable way in the core cycle of a cluster's `dmCyc` (R244): its context and scoreboard bit, the word's aperture offset, the value stored
(none: a load), and the word before the cycle's accesses. -/
structure DmHit where
  thread : Nat
  sb     : Nat
  addr   : Nat
  store  : Option Word
  old    : Word
  deriving DecidableEq, Repr

/-- A writeback in flight: the device DRAM address of the line and its data (R244). -/
structure Wb where
  addr : Nat
  set  : Nat
  tag  : Nat
  data : List Byte
  deriving DecidableEq, Repr

/-- What an operation of a context does that reaches a line of the cache (R244): a load, a store of a word, or the maintenance operation of a
code that stands at a place of the cluster's list. -/
inductive CdcDo where
  | load
  | store (v : Word)
  | maint (i code : Nat)
  deriving DecidableEq, Repr

/-- An operation of a turn: its context and scoreboard bit (16: the thread has ended), what it does, its aperture offset and DRAM address; for
an access, the line of DRAM and that line's second copy before the turn's accesses to it, and as the turn left them. -/
structure CdcOp where
  thread : Nat
  sb     : Nat
  what   : CdcDo
  addr   : Nat
  mem    : Nat
  was    : Arr × Arr
  left   : Arr × Arr
  deriving DecidableEq, Repr

/-- What the operations of a turn may change of a cluster's cache: lines, victim entries, writebacks, recalls, maintenance operations, a flush
that waits, and the counters. -/
structure CdcView where
  lines   : Tbl Line
  victim  : List Line
  wbs     : List Wb
  recalls : List (Nat × Nat × Nat)
  maint   : List Maint
  flush   : Option Flush
  counts  : List Word
  deriving DecidableEq, Repr

/-- The operations of contexts that have reached a cluster's cache in core cycle `cyc`, in rotating order (R244), and the cache before the first
of them and after the latest. -/
structure CdcTurn where
  cyc  : Nat
  ops  : List CdcOp
  base : CdcView
  left : CdcView
  deriving DecidableEq, Repr

/-- A coprocessor command in its queue (R184): the issuing thread, its scoreboard bit, the block pointer, 0 for go, 1 for
csave, 2 for crest, and the core cycle in which it reaches the coprocessor (R192); whether its thread has ended since, so that another thread
of the context sees nothing of it (R191). -/
structure CopCmd where
  thread : Nat
  sb     : Nat
  ptr    : Nat
  kind   : Nat
  at_    : Nat
  gone   : Bool := false
  deriving DecidableEq, Repr

/-- A running coprocessor command: its opcode, the code and count of its status, what it will store in CMEM and in the Vault,
the native state that it leaves and whether that is present, and the core cycle in which it sets its bit (R192). -/
structure CopRun where
  cmd    : CopCmd
  opc    : Nat
  code   : Nat
  count  : Nat
  writes : List (Nat × List Byte)
  vault  : Option (Nat × List Byte)
  state  : List Byte
  valid  : Bool
  due    : Nat
  deriving DecidableEq, Repr

/-- A coprocessor of a cluster (R184 to R211): its queue, the running command, the native state and whether it is present, the
owner and opcode of its latest command, and the core cycle in which its latest command set its bit. -/
structure Cop where
  queue    : List CopCmd
  run      : Option CopRun
  state    : List Byte
  valid    : Bool
  owner    : OwnerId
  lastOpc  : Nat
  freeAt   : Nat
  deriving DecidableEq, Repr

/-- An idle coprocessor. -/
def Cop.idle : Cop := { queue := [], run := none, state := [], valid := false, owner := 0, lastOpc := 0, freeAt := 0 }

/-- A cluster: its mode and standing, the victim cache (oldest first), the writebacks in flight, the maintenance
operations, the victim recalls of the latest core cycle as cycle, set and tag (R250), the DM accesses of the latest core cycle to
addressable ways and the operations of one that have reached the cache (R244), the recent claims of CMEM bank pairs, the A-port accesses whose cycle may be to come, in the order of their cycles, the stores of the B port that
one of them may still precede, the claims of Policy Table ports, the ends of a zeroing of addressable ways, of a reset and of an invalidation
(R246, R419, R247), the fill that runs (R236), its trap counting, its stall counter as it stood at core cycle `lastAct`, from which on it counts while the cluster stalls (R179); the
core cycle from which a cluster that gave its slots back is eligible for the Teller (R228). -/
structure Cluster where
  packet    : Bool
  st        : CluState
  claimed   : Bool
  detached  : Bool
  entry     : Nat
  victim    : List Line
  wbs       : List Wb
  maint     : List Maint
  needFlush : Option Flush
  zeroing   : Option Nat
  recalls   : List (Nat × Nat × Nat)
  dmCyc     : Nat
  dmHits    : List DmHit
  turn      : Option CdcTurn
  lsClaims  : List (Nat × Nat × Nat)
  acc       : List LsAcc
  bacc      : List BAcc
  tbClaims  : List TbAcc
  trapRound : Nat
  traps     : Nat
  stall     : Nat
  lastAct   : Nat
  resetEnd  : Option Nat
  fill      : Option CmemFill
  invEnd    : Option Nat
  eligAt    : Nat
  deriving DecidableEq, Repr

/-- A cluster after power-on. -/
def Cluster.fresh : Cluster :=
  { packet := false, st := .live, claimed := false, detached := false, entry := 0, victim := [], wbs := [],
    maint := [], needFlush := Option.none, zeroing := Option.none, recalls := [], dmCyc := 0, dmHits := [], turn := Option.none, lsClaims := [], acc := [], bacc := [],
    tbClaims := [],
    trapRound := 0, traps := 0, stall := 0, lastAct := 0, resetEnd := Option.none, fill := Option.none, invEnd := Option.some 1056, eligAt := 0 }

/-! ## The Teller -/

/-- What the Teller holds of an activated TCB (R217): CTRL and PLACE, the deadline read at PARK, the context that runs it,
the core cycle of its latest dispatch, and a priority that takes effect at its next placement (R218). -/
structure Tcb where
  ctrl     : Word
  place    : Word
  deadline : Nat
  ctx      : Option Nat
  since    : Nat
  newPrio  : Option Nat
  deriving DecidableEq, Repr

/-- A TCB that the Teller does not hold. -/
def Tcb.fresh : Tcb := { ctrl := 0, place := 0, deadline := 0, ctx := Option.none, since := 0, newPrio := Option.none }

/-- A staged command (R218, R219): its word's fields, the Ledger reason and AUX of a wake, and for a window store the issuing
context and its scoreboard bit (16: the thread has ended, and no bit waits), and the TCB that the issuer ran as. -/
structure Stage where
  op     : Nat
  prio   : Nat
  tcb    : Nat
  reason : Nat
  aux    : Nat
  thread : Option (Nat × Nat)
  own    : Option Nat := none
  deriving DecidableEq, Repr

/-- A dispatch of the Teller in core cycle `cyc` that a fork of that cycle may still undo (R156): the TCB with its PLACE before, the context,
and the Ledger's sequence, write and read indices and lost count before its record. -/
structure Placed where
  cyc   : Nat
  tcb   : Nat
  ctx   : Nat
  place : Word
  seq   : Nat
  wr    : Nat
  rd    : Nat
  lost  : Word
  deriving DecidableEq, Repr

/-- A region's Teller: its staging, the window stores not yet acknowledged, the deadlines and punt completions that keep a
pending mark, the ready lists as (level, TCB) in their order, the contexts being restored, the number of Ledger records
since it was enabled, the TCBs whose present NO_PLACE has been raised, and the dispatches of the latest core cycle. -/
structure Teller where
  stage   : List Stage
  waiting : List Stage
  dues    : List Stage
  ready   : List (Nat × Nat)
  restore : Tbl Nat
  seq     : Nat
  noPlace : List Nat
  placed  : List Placed
  deriving DecidableEq, Repr

/-- A Teller with nothing staged or ready. -/
def Teller.empty : Teller := { stage := [], waiting := [], dues := [], ready := [], restore := [], seq := 0, noPlace := [], placed := [] }

/-! ## Policy Table, profile -/

/-- A GSA of the shadow store (R321, R322): the new SA pointer, and 0 not yet committed to a clearing, 1 phase one done. -/
structure Gsa where
  x     : Nat
  phase : Nat
  deriving DecidableEq, Repr

/-- The active profile (R420), its calendar tier, and for each C-die the set that the fault manager holds: 0 primary,
1 fallback with the lost cluster, 2 cross-die, 3 stopped (R517, R521); the round at which the set became active. -/
structure ProfState where
  active : Nat
  img    : Profile
  tier   : Nat
  sets   : List (Nat × Nat)
  start  : Nat
  last   : Nat × Nat
  deriving DecidableEq, Repr

/-- A profile that names nothing: what stands before a boot has loaded one. -/
def noProfile : Profile :=
  { span := 0, cycle := 0, spares := [], packet := [], entry := 0, program := [], bankMap := [], tiers := [], fallback := [],
    cross := [], fields := [], running := [], domains := [] }

/-! ## Epochs and calendar switches -/

/-- What the EPC holds beside its registers (R402 to R415): the target of the next boundary (ns, modulo 2^64) and the LEN of the
interval that ends at it; the sync correction accepted in its window; whether its clearing has taken place, and whether its notice
has been sent; NOT_BEFORE of the open commit; the latched shadows: the register file's G words, and words 3 and 4 of the shapers
by P-die × 8,192 + index; the profile that the open commit carries, and the tick at which its calendar check ends; the pages that
answered not ready at the latest notice; the core cycle of the latest applying clearing; the timebase at the latest return to MAIN. -/
structure Epc where
  target    : Nat
  len       : Nat
  corr      : Option Int
  cleared   : Bool
  noticed   : Bool
  notBefore : Nat
  latch     : Option (Tbl Word × Tbl (Word × Word))
  prof      : Option (Nat × Profile)
  checkEnd  : Nat
  notReady  : List Nat
  clearCyc  : Nat
  returnTb  : Option Nat
  deriving DecidableEq, Repr

/-- An EPC that has never been enabled. -/
def Epc.fresh : Epc :=
  { target := 0, len := 0, corr := Option.none, cleared := false, noticed := false, notBefore := 0, latch := Option.none,
    prof := Option.none, checkEnd := 0, notReady := [], clearCyc := 0, returnTb := Option.none }

/-- A CAL_SWITCH issued and not yet applied (R66, R517): for each C-die the set it takes or none, the round boundary as a core
cycle, and whether the mailbox command waits for it. -/
structure CalReq where
  sets : List (Option (Nat × Nat))
  due  : Nat
  mbx  : Bool
  deriving DecidableEq, Repr

/-- How the calendars and clusters stand to the FMG beyond the sets in force: the switches issued, in order; by C-die the lost
cluster for which the claimed spare is not yet ready (64: two are lost, and the spare is awaited for the cross-die set); by cluster detached by a debugger the set that its C-die held before, and
whether the cluster may be re-attached at the next clearing; whether a cross-die set has been taken since the latest profile load
(R75); the clusters that gave their slots back and leave packet mode when the seam closes; the core cycle at which the latest switch applied, and
the tier that was active before it (R77); whether a profile has been loaded since a C-die left its primary set (R419). -/
structure FmgState where
  reqs     : List CalReq
  claims   : Tbl Nat
  detached : Tbl ((Nat × Nat) × Bool)
  crossed  : Bool
  leaving  : List Nat
  applied  : Nat
  tierWas  : Nat
  freed    : Bool
  deriving DecidableEq, Repr

/-- An FMG with nothing under way. -/
def FmgState.fresh : FmgState := { reqs := [], claims := [], detached := [], crossed := false, leaving := [], applied := 0, tierWas := 0, freed := false }

/-! ## Security -/

/-- An ATTEST or a KEY_LOAD that runs (R465, R468): the tick at which it ends; the report's parts, each with its place in the buffer, and their
length; or the master slot, the KW slot, the mask of clusters and the KEK. -/
structure SecTask where
  due   : Nat
  parts : List (Nat × List Byte)
  size  : Nat
  kek   : Option (Nat × Nat × Nat × List Byte)
  deriving DecidableEq, Repr

/-- What the SEC holds beside its registers (R454 to R476): OWNER_HASH and OWNER_LOCK, the words of OTP_DATA and the result of the latest OTP
command (0 none, 1 done, 2 REFUSED, 3 MISMATCH); the two SVN counters; the transport key pair, public and private; the master key
store, and for each cluster × 16 + KW slot the master slot that filled it; the tick at which a zeroization that runs completes; which of ZEROIZE_N (bit 0) and TAMPER_N (bit 1) is low; the measurements M1 to M4; the
draws since the DRBG's reseeding; the debug challenge and the timebase of its expiry; the image type that a host boot waits for
(0 none), and BOOT_SRC as sampled; whether a cold switch has taken place since PORST_N; a schedule payload that awaits its profile image, with the DIGEST of the
profile image, that of the schedule image and the profile's number (a warm switch that awaits its clearing keeps its two digests here);
the highest MIN_SVN and the lowest SVN of the verified images of each class; the PUF-derived key; a BURN_OWNER under way: the tick at which it
completes, and OWNER_HASH before it; the ATTEST or KEY_LOAD under way. -/
structure Sec where
  owner     : List Byte
  ownerLock : Bool
  otpData   : Tbl Word
  otpResult : Nat
  svnBoot   : Nat
  svnProf   : Nat
  tkey      : Option (List Byte × List Byte)
  keks      : Tbl (List Byte)
  kekFrom   : Tbl Nat
  zeroEnd   : Option Nat
  pins      : Nat
  meas      : Tbl (List Byte)
  draws     : Nat
  chal      : Option (List Byte × Nat)
  hostWait  : Nat
  hostBoot  : Bool
  cold      : Bool
  profWait  : Option (List Byte × List Byte × List Byte × Nat)
  minBoot   : Nat
  minProf   : Nat
  capBoot   : Nat
  capProf   : Nat
  puf       : List Byte
  burn      : Option (Nat × List Byte)
  task      : Option SecTask
  deriving DecidableEq, Repr

/-- The SEC of an UNOWNED part before its first boot. -/
def Sec.fresh : Sec :=
  { owner := [], ownerLock := false, otpData := [], otpResult := 0, svnBoot := 0, svnProf := 0, tkey := Option.none, keks := [], kekFrom := [],
    zeroEnd := Option.none, pins := 0, meas := [], draws := 0, chal := Option.none, hostWait := 0, hostBoot := false, cold := false,
    profWait := Option.none, minBoot := 0, minProf := 0, capBoot := 64, capProf := 64, puf := [], burn := Option.none, task := Option.none }

/-! ## Power -/

/-- The supplies and the power-wide latches (R478 to R491): MAIN and BACKUP OK; the carrier, 0 neither, 1 MAIN, 2 BACKUP; the
ticks at which a return hold, a deferred return and the hold-up end; the trip latch of the converter stage (R491), which holds while a
feed stays OK; PWR_GOOD; a DVFS change under way as target, phase (0 rails rising, 1 dividers to
switch up, 2 dividers to switch down, 3 rails falling) and the tick at which the phase began; the domains that are switching as (domain, state, tick)
and the one that PWR_DOM_CMD commanded, with the state that it had before; FAULT_N driven low. -/
structure Pwr where
  main    : Bool
  bkp     : Bool
  carrier : Nat
  holdEnd : Option Nat
  defEnd  : Option Nat
  upEnd   : Option Nat
  trip    : Bool
  good    : Bool
  dvfs    : Option (Nat × Nat × Nat)
  domSw   : List (Nat × Nat × Nat)
  domCmd  : Option Nat
  domWas  : Nat
  faultN  : Bool
  deriving DecidableEq, Repr

/-- No feed OK yet, nothing under way. -/
def Pwr.fresh : Pwr :=
  { main := false, bkp := false, carrier := 0, holdEnd := Option.none, defEnd := Option.none, upEnd := Option.none,
    trip := false, good := false, dvfs := Option.none, domSw := [], domCmd := Option.none, domWas := 0,
    faultN := false }

/-! ## Host interface and debug -/

/-- A queue pair beside its registers (R550 to R553): the tick of its latest punt interrupt, and the tick at which the one that is
pending is due. -/
structure Pair where
  last : Option Nat
  due  : Option Nat
  deriving DecidableEq, Repr

/-- A queue pair that has raised no interrupt. -/
def Pair.idle : Pair := { last := Option.none, due := Option.none }

/-- The TAP (R562): the boundary register, and whether EXTEST drives the pins from it. -/
structure Tap where
  bsr    : List Bool
  extest : Bool
  deriving DecidableEq, Repr

/-- The timebase over an interval in which nothing changed it (R400): the ticks at which the interval begins and ends, the count at its
beginning, and RATE. -/
structure TbLine where
  from_ : Nat
  til   : Nat
  num   : Nat
  rate  : Word
  deriving DecidableEq, Repr

/-! ## Faults and the top level -/

/-- An entry of the FMG queue (R508). -/
structure FmgEntry where
  cls    : Nat
  source : Nat
  cause  : Nat
  page   : Nat
  tb     : Nat
  deriving DecidableEq, Repr

/-- The reasons for which the machine could stop. There is none: the spec gives every command of the table an effect in
every state, so no command ends in a fault. -/
inductive Fault where
  deriving DecidableEq, Repr

/-- The reasons for which a command could be refused. -/
inductive Refusal where
  /-- raised by an arm of `exec` whose command has no meaning yet (safe: the machine stops) -/
  | notModelled (mnemonic : String)
  deriving DecidableEq, Repr

/-- The machine: everything the spec gives the part, as plain data. -/
structure State where
  /-- Time in ticks of 1/24 ns (R6, R39). -/
  now     : Nat
  /-- The operating point and the latest core-cycle reference (R39, R488). -/
  clk     : Clk
  /-- The numerator of the timebase in ns (R400). -/
  tbNum   : Nat
  /-- The tick at which `tbNum` was set (R400). -/
  tbAt    : Nat
  /-- The timebase before its latest steps and changes of RATE, newest first: what a frame in reception was stamped by (R267). -/
  tbPast  : List TbLine
  /-- The model's own counter: the next free value (log entry 50). -/
  draw    : Nat
  /-- The model's own field: the commands that wait, first in, first out. -/
  pending : List Instr
  /-- The model's own field: what left the part, newest first (log entry 5). -/
  out     : List Out
  /-- The registers of every page as stored, by BAR0 word address; for a G register the shadow (R522, R528, R408). -/
  regs    : Tbl Word
  /-- What the hardware did to registers in the fabric cycle of its latest act (R7). -/
  hw      : HwActs
  /-- The errors that reached each page in the fabric cycle of the latest one: their number, and the words of that which is held first (R506). -/
  arrived : Was (Nat × List Word)
  /-- The active copy of each G register (R408). -/
  act     : Tbl Word
  /-- The copy of each G register for generation OLD (R411). -/
  old     : Tbl Word
  /-- The 4,096 hardware threads (R143, R146). -/
  thr     : Tbl Thread
  /-- The 64 clusters (R13, R241). -/
  clu     : Tbl Cluster
  /-- The Escrow locks of clusters and regions (R162). -/
  locks   : Tbl Lock
  /-- The channels (R174). -/
  chans   : Tbl Chan
  /-- The coprocessors of each cluster (R184). -/
  cops    : Tbl Cop
  /-- The CDC lines (R241). -/
  lines   : Tbl Line
  /-- The addressable ways (R246). -/
  spm     : Tbl Byte
  /-- The words of addressable ways whose parity does not match, by byte key div 4 (R241, R252). -/
  spmBad  : Tbl Unit
  /-- Cluster memory (R232, R237). -/
  cmem    : Arr
  /-- Device DRAM (R425, R441). -/
  dram    : Arr
  /-- The transmission errors that the next read of a channel meets: 1 one that link ECC corrects, n + 1 the first n transfers of the read
  fail, at most 4 (R438). -/
  linkErr : Tbl Nat
  /-- The tick at which the latest tracking blackout of a channel ends (R434). -/
  trackEnd : Tbl Nat
  /-- The FMG queue, at most 64 entries (R507, R508). -/
  fmgq    : List FmgEntry
  /-- The records dispatched whose results are not taken (R47, R51, R57). -/
  flights : List Flight
  /-- The activated TCBs (R215, R217). -/
  tcbs    : Tbl Tcb
  /-- The Teller of each region (R214). -/
  tellers : Tbl Teller
  /-- The events that TU.event has signalled and that are not latched yet: target, event, and whether the signal comes from another
  cluster (R159, R179). -/
  events  : List (Nat × Nat × Bool)
  /-- The replicas of the Policy Table (R320). -/
  pol     : Tbl Word
  /-- Policy Table words whose parity is bad (R320). -/
  polBad  : Tbl Unit
  /-- The words of the Policy Table written in the core cycle of its latest write, as they were before it, and whether their parity was bad (R62). -/
  polWas  : Was (Word × Bool)
  /-- The Policy Table counters (R323). -/
  polCnt  : Tbl (Nat × Nat)
  /-- The additions that the counters do not hold yet: core cycle, region × 65,536 + policy, bytes (R323). -/
  cntAdds : List (Nat × Nat × Nat)
  /-- The shadow store of GSAs (R321, R322). -/
  gsa     : Tbl Gsa
  /-- The active profile and the calendar sets held (R420, R517). -/
  prof    : ProfState
  /-- The KEK slots of each cluster (R208). -/
  kek     : Tbl (List Byte)
  /-- The Vault of each P-die, where valid (R351). -/
  vault   : Tbl (List Byte)
  /-- The Vault slots that a soft error has struck (R352, R445). -/
  vltBad  : Tbl Flaw
  /-- The time of the latest draw of the random source (R206). -/
  rngAt   : Nat
  /-- The data path of each P-die. -/
  pdies   : Tbl PDieState
  /-- The Flow Tables and their stashes (R296 to R298). -/
  ft      : Tbl (List Nat)
  /-- The entries of the on-die Flow Tables that a soft error has struck (R301, R445). -/
  ftBad   : Tbl Flaw
  /-- The places of the Flow Tables written in the fabric cycle of the latest write, as they were before it: words and soft error (R302). -/
  ftWas   : Was (List Nat × Option Flaw)
  /-- The places whose HIT a lookup set in the fabric cycle of the latest such set (R303). -/
  ftHit   : Was Unit
  /-- The SA Tables (R324, R331). -/
  sat     : Arr
  /-- The records of the SA Table on which software operates in the fabric cycle of its latest operation (R325, R335). -/
  satWas  : Was SatCyc
  /-- The Vault slots written or cleared in the fabric cycle of the latest write, as they were before it (R352). -/
  vltWas  : Was (Option (List Byte) × Option Flaw)
  /-- The Vault slots cleared in the fabric cycle of the latest clear (R352). -/
  vltGone : Was Unit
  /-- Packet memory (R360). -/
  pktMem  : Arr
  /-- The link array: the buffers in use (R361, R371). -/
  bufs    : Tbl Buf
  /-- The entries of the link array that an uncorrectable soft error has struck (R361, R375). -/
  bufBad  : Tbl Flaw
  /-- The buffer pools (R363). -/
  pools   : Tbl Pool
  /-- The pools whose levels have changed in the fabric cycle of the latest change (R368). -/
  lvlWas  : Was LevelCyc
  /-- The buffers charged to each account (R366). -/
  used    : Tbl Nat
  /-- The TM queues (R379, R399). -/
  queues  : Tbl TmQueue
  /-- The shapers (R388). -/
  shapers : Tbl Bucket
  /-- The policers (R390). -/
  policers : Tbl Bucket
  /-- The punt policers (R287). -/
  punters : Tbl Bucket
  /-- The DRR state of each port context (R386). -/
  tports  : Tbl TmPort
  /-- The filler templates (R394). -/
  tpl     : Tbl Byte
  /-- Punts handed to each queue pair (R288, R550). -/
  punts   : Tbl (List Punt)
  /-- When the pause of a port and priority ends (R265). -/
  pauses  : Tbl Nat
  /-- When the XOFF of a pool is repeated (R369). -/
  xoffAt  : Tbl Nat
  /-- The ports whose link is up (R266). -/
  links   : Tbl Unit
  /-- By 2 × port ID: the tick at which EN was cleared last; by 2 × port ID + 1: that at which the link was lost last (R266). -/
  portOff : Tbl Nat
  /-- When each table write lock expires (R311). -/
  wlocks  : Tbl Nat
  /-- The state of each power domain (R484). -/
  doms    : Tbl Nat
  /-- CUR (R408). -/
  gen     : Nat
  /-- Generation OLD still has packets (R411). -/
  oldLive : Bool
  /-- The time of the latest clearing (R412). -/
  clearAt : Nat
  /-- The P-dies whose data path is stopped (R515). -/
  halted  : List Nat
  /-- PERST_N is low (R497). -/
  perst   : Bool
  /-- Host memory as the part has written it (R547). -/
  host    : Tbl Byte
  /-- Lane repairs: 1 under way, 2 failed (R512). -/
  repairs : Tbl Nat
  /-- The DBG registers (R563). -/
  dbg     : Tbl Word
  /-- The capture index (R565). -/
  capWr   : Nat
  /-- Context words written and not yet applied (R563). -/
  ctxWr   : Tbl Word
  /-- The epoch controller (R402 to R415). -/
  epc     : Epc
  /-- What the FMG has under way (R509, R517). -/
  fmg     : FmgState
  /-- The security controller (R454 to R476). -/
  sec     : Sec
  /-- Supplies and power-wide latches (R478 to R491). -/
  pwr     : Pwr
  /-- The xSPI flash (R461, R558). -/
  flash   : Tbl Byte
  /-- The Tally of each page, 64 bits in nJ (R492). -/
  tally   : Tbl Nat
  /-- The latched TALLY_HI by page and reader (R493). -/
  tallyHi : Tbl Word
  /-- The time of the latest Tally update (R492). -/
  tallyAt : Nat
  /-- The mailbox command under way (R543). -/
  mbxJob  : Nat
  /-- DRAM fills under way, by channel: start page, pages, pattern (R447). -/
  fills   : Tbl (Nat × Nat × Nat)
  /-- The retirement under way (R451, R452). -/
  retire  : Option (Nat × Nat)
  /-- The SRAM banks retired, by array and spare (R452). -/
  banks   : Tbl Nat
  /-- The P-die of an HST fill under way (R557). -/
  hstFill : Option Nat
  /-- Mirror copies by window and channel: 0 lost, 1 under way (R443). -/
  resync  : Tbl Nat
  /-- The refreshes pulled in, by channel (R436). -/
  pulled  : Tbl Nat
  /-- The interrupt times of each DMA queue pair (R553). -/
  dpairs  : Tbl Pair
  /-- The boundary register and EXTEST (R562). -/
  tap     : Tap
  deriving DecidableEq, Repr

/-- The machine right after reset. -/
def State.reset : State :=
  { now := 0, clk := { point := 3, cycAt := 0, cycNo := 0 }, tbNum := 0, tbAt := 0, tbPast := [], draw := 0, pending := [], out := [],
    regs := [], hw := { cyc := 0, acts := [] }, arrived := Was.empty, act := [], old := [], thr := [], clu := [], locks := [], chans := [], cops := [], lines := [], spm := [], spmBad := [],
    cmem := { cells := [], poison := [], hurt := [] }, dram := { cells := [], poison := [], hurt := [] }, linkErr := [], trackEnd := [], fmgq := [],
    flights := [], tcbs := [], tellers := [], events := [], pol := [], polBad := [], polWas := Was.empty, polCnt := [], cntAdds := [], gsa := [],
    prof := { active := 0, img := noProfile, tier := 0, sets := [(0, 0), (0, 0), (0, 0), (0, 0)], start := 0, last := (0, 0) },
    kek := [], vault := [], vltBad := [], rngAt := 0,
    pdies := [], ft := [], ftBad := [], ftWas := Was.empty, ftHit := Was.empty, sat := { cells := [], poison := [], hurt := [] },
    satWas := Was.empty, vltWas := Was.empty, vltGone := Was.empty, pktMem := { cells := [], poison := [], hurt := [] }, bufs := [], bufBad := [], pools := [],
    lvlWas := Was.empty, used := [], queues := [], shapers := [], policers := [], punters := [], tports := [], tpl := [], punts := [], pauses := [],
    xoffAt := [], links := [], portOff := [], wlocks := [], doms := [], gen := 0,
    oldLive := false, clearAt := 0, halted := [], perst := true, host := [], repairs := [], dbg := [], capWr := 0, ctxWr := [],
    epc := Epc.fresh, fmg := FmgState.fresh, sec := Sec.fresh, pwr := Pwr.fresh, flash := [], tally := [], tallyHi := [], tallyAt := 0,
    mbxJob := 0, fills := [], retire := Option.none, banks := [], hstFill := Option.none, resync := [],
    pulled := [], dpairs := [], tap := { bsr := [], extest := false } }

end Sys2Proof.Machine
end

