-- ==== Sys2Proof/Machine/Ops.lean ====
section
/-! DEFINITION. The named operations that every block shares: time, the register file, events, the error registers and the
FMG queue, the protected arrays, and free values. -/

namespace Sys2Proof.Machine

/-! ## Time -/

/-- Ticks per core cycle at a DVFS point: 0.8, 1.2, 1.6 and 2.0 GHz (R1, R41). -/
def coreTicks (point : Nat) : Nat :=
  match point with
  | 0 => 30
  | 1 => 20
  | 2 => 15
  | _ => 12

/-- Ticks per fabric cycle, management cycle and nanosecond (R6). -/
def fabricTicks : Nat := 16
def mgmtTicks : Nat := 48
def nsTicks : Nat := 24

/-- The core cycle in progress, numbered from power-on; a round begins at each multiple of 4,096 (R39, R40). -/
def State.cyc (s : State) : Nat := s.clk.cycNo + (s.now - s.clk.cycAt) / coreTicks s.clk.point

/-- The tick at which core cycle `c` begins. -/
def State.cycTick (s : State) (c : Nat) : Nat := s.clk.cycAt + (c - s.clk.cycNo) * coreTicks s.clk.point

/-- The first core cycle that begins now or later. -/
def State.cycCeil (s : State) : Nat :=
  s.clk.cycNo + (s.now - s.clk.cycAt + coreTicks s.clk.point - 1) / coreTicks s.clk.point

/-- The fabric cycle in progress. -/
def State.fab (s : State) : Nat := s.now / fabricTicks

/-- The first round boundary, as a core cycle, at or after core cycle `c`. -/
def roundCeil (c : Nat) : Nat := (c + 4095) / 4096 * 4096

/-- Time passes to tick `t`, if it is still to come: an event happens at its own time. -/
def State.upTo (s : State) (t : Nat) : State := { s with now := max s.now t }

/-- Time passes to the start of core cycle `c`. -/
def State.upToCyc (s : State) (c : Nat) : State := s.upTo (s.cycTick c)

/-- The timebase in units of 1/(24 · 65,536 · 10^9) ns advances by (65,536 · 10^9 + RATE) a tick (R400). -/
def tbUnit : Nat := 65536 * 1000000000

/-- The units by which the timebase advances in `d` ticks at a RATE register value (signed, 2^-16 ppb). -/
def tbAdvance (rate : Word) (d : Nat) : Nat := (d * ((tbUnit : Int) + toSigned 32 rate.toNat)).toNat

/-! ## The register file -/

/-- The stored word of a register: what is written there, or its reset value. -/
def State.reg (s : State) (a : Nat) : Word := tGet regReset s.regs a

/-- Store a register's word. -/
def State.setReg (s : State) (a : Nat) (v : Word) : State := { s with regs := tSet regReset s.regs a v }

/-- Field [hi:lo] of a register. -/
def State.rf (s : State) (a hi lo : Nat) : Nat := fld (s.reg a) hi lo

/-- Store field [hi:lo] of a register. -/
def State.setRf (s : State) (a hi lo v : Nat) : State := s.setReg a (setFld (s.reg a) hi lo v)

/-- Bit `i` of a register. -/
def State.rb (s : State) (a i : Nat) : Bool := bit (s.reg a) i

/-- Store bit `i` of a register. -/
def State.setRb (s : State) (a i : Nat) (b : Bool) : State := s.setRf a i i (b2n b)

/-- The mask of a register's G bits (R9). -/
def gMask (a : Nat) : Word := ((regDef? a).map (·.rwG)).getD 0

/-- The active word of a register with G fields: those from the active copy, the others as stored. -/
def State.actReg (s : State) (a : Nat) : Word :=
  (tGet regReset s.act a &&& gMask a) ||| (s.reg a &&& ~~~ gMask a)

/-- The word of the previous generation (R409). -/
def State.oldReg (s : State) (a : Nat) : Word :=
  (tGet regReset s.old a &&& gMask a) ||| (s.reg a &&& ~~~ gMask a)

/-- Field [hi:lo] of the active word. -/
def State.af (s : State) (a hi lo : Nat) : Nat := fld (s.actReg a) hi lo

/-! ## Acts of the hardware in a fabric cycle (R7) -/

/-- The hardware acts on register `a`: what it did to it in this fabric cycle changes by `f`. -/
def State.hwAct (s : State) (a : Nat) (f : Word → Word) : State :=
  let l := if s.hw.cyc = s.fab + 1 then s.hw.acts else []
  let p := (tFind l a).getD (s.reg a, 0)
  { s with hw := { cyc := s.fab + 1, acts := tPut l a (p.1, f p.2) } }

/-- What the hardware did to register `a` in this fabric cycle: the word before its first count, and the bits set and counts added. -/
def State.hwActs (s : State) (a : Nat) : Word × Word :=
  ((if s.hw.cyc = s.fab + 1 then tFind s.hw.acts a else none).getD (s.reg a, 0))

/-- The hardware sets the bits `m` of a register: they stay 1 when a 1 is written to them in the same fabric cycle. -/
def State.hwMark (s : State) (a : Nat) (m : Word) : State := s.hwAct a (· ||| m)

/-- The hardware sets bit `i` of a register. -/
def State.hwSet (s : State) (a i : Nat) : State := (s.hwMark a (maskOf i i)).setRb a i true

/-- A 1 is written to the W1C bits `m` of a register: each clears that the hardware did not set in this fabric cycle. -/
def State.hwClear (s : State) (a : Nat) (m : Word) : State := s.setReg a (s.reg a &&& ~~~ (m &&& ~~~ (s.hwActs a).2))

/-- What a read of the RC bits `m` of a register returns: their value from before the counts of this fabric cycle. -/
def State.rcValue (s : State) (a : Nat) (m v : Word) : Word := (v &&& ~~~ m) ||| ((s.hwActs a).1 &&& m)

/-- The RC bits `m` of a register after a read: the counts of this fabric cycle, or 0. -/
def State.rcClear (s : State) (a : Nat) (m : Word) : State :=
  let p := s.hwActs a
  let s' := s.setReg a ((s.reg a &&& ~~~ m) ||| (p.2 &&& m))
  if s.hw.cyc = s.fab + 1 then { s' with hw := { s.hw with acts := tPut s.hw.acts a (p.1 &&& ~~~ m, p.2) } } else s'

/-- The hardware adds to a saturating field [hi:lo] of a register. -/
def State.bumpF (s : State) (a hi lo n : Nat) : State :=
  let k := 2 ^ (hi + 1 - lo) - 1
  (s.hwAct a fun w => setFld w hi lo (satAdd k (fld w hi lo) n)).setRf a hi lo (satAdd k (s.rf a hi lo) n)

/-- Count one in a 32-bit saturating counter (R539). -/
def State.bump (s : State) (a : Nat) : State := s.bumpF a 31 0 1

/-- The 64-bit value of a LO/HI pair of registers. -/
def State.pair (s : State) (a : Nat) : Nat := (s.reg a).toNat + 2 ^ 32 * (s.reg (a + 4)).toNat

/-- Store a LO/HI pair. -/
def State.setPair (s : State) (a n : Nat) : State := (s.setReg a (nw n)).setReg (a + 4) (nw (n / 2 ^ 32))

/-! ## The timebase -/

/-- EPC_TB_RATE (R400). -/
def aTbRate : Nat := ra (mPage 0) 0x158

/-- The timebase count in its fine units. -/
def State.tbFine (s : State) : Nat := s.tbNum + tbAdvance (s.reg aTbRate) (s.now - s.tbAt)

/-- The 64-bit timebase in ns. -/
def State.tb (s : State) : Nat := s.tbFine / (24 * tbUnit) % 2 ^ 64

/-- The timebase count in its fine units as it was at tick `k`. -/
def State.fineAt (s : State) (k : Nat) : Nat :=
  match s.tbPast.find? fun l => decide (l.from_ ≤ k ∧ k < l.til) with
  | some l => l.num + tbAdvance l.rate (k - l.from_)
  | none => s.tbNum + tbAdvance (s.reg aTbRate) (k - s.tbAt)

/-- The timebase up to now is kept before it is stepped or RATE changes, for 2^20 ticks. -/
def State.tbKeep (s : State) : State :=
  { s with tbPast := { from_ := s.tbAt, til := s.now, num := s.tbNum, rate := s.reg aTbRate } :: s.tbPast.filter fun l => decide (s.now < l.til + 2 ^ 20) }

/-- The ticks until the timebase has advanced by `d` ns. -/
def State.tbTicks (s : State) (d : Nat) : Nat :=
  let r := ((tbUnit : Int) + toSigned 32 (s.reg aTbRate).toNat).toNat
  (d * 24 * tbUnit + r - 1) / r

/-! ## Free values and outputs -/

/-- Take the next draw of a free value. -/
def State.drawn (s : State) : State := { s with draw := s.draw + 1 }

/-- Something leaves the part. -/
def State.emit (s : State) (o : Out) : State := { s with out := o :: s.out }

/-! ## What a cycle's writes replaced -/

/-- Entry `k` held `v` when it was written in cycle `c`; the first write of a cycle counts. -/
def Was.note (w : Was α) (c k : Nat) (v : α) : Was α :=
  let l := if w.cyc = c + 1 then w.old else []
  { cyc := c + 1, old := if (tFind l k).isSome then l else tPut l k v }

/-- Entry `k` of cycle `c` is `v`. -/
def Was.put (w : Was α) (c k : Nat) (v : α) : Was α := { cyc := c + 1, old := tPut (if w.cyc = c + 1 then w.old else []) k v }

/-- What entry `k` held before the writes of cycle `c`, if they touched it. -/
def Was.before (w : Was α) (c k : Nat) : Option α := if w.cyc = c + 1 then tFind w.old k else none

/-! ## Events (R534 to R536) -/

/-- A page's message to its route: the host's MSI-X, the firmware of the FMG, the Teller of a region (TEL_BIND becomes
pending when the entry is valid), or the GPIO, whose level is computed when it is read. -/
def State.route (s : State) (pg : Nat) : State :=
  let r := s.reg (ra pg 0x01C)
  match fld r 31 30 with
  | 0 => s.emit (.msix (fld r 8 0))
  | 1 => s.emit (.fmgEvent pg)
  | 2 =>
    let b := ra (rgnPage (fld r 12 9) 0) (0x800 + 4 * eventSource pg)
    if s.rb b 31 then s.setRb b 30 true else s
  | _ => s

/-- The condition (EVT_STAT AND EVT_EN) ≠ 0 of a page. -/
def State.evtCond (s : State) (pg : Nat) : Bool := (s.reg (ra pg 0x010) &&& s.reg (ra pg 0x014)) ≠ 0

/-- Write EVT_STAT; the page sends its route a message when its condition rises. -/
def State.putEvt (s : State) (pg : Nat) (v : Word) : State :=
  let s' := s.setReg (ra pg 0x010) v
  if s'.evtCond pg && !s.evtCond pg then s'.route pg else s'

/-- Hardware sets event bit `b` of a page. -/
def State.raise (s : State) (pg b : Nat) : State :=
  (s.hwMark (ra pg 0x010) (maskOf b b)).putEvt pg (s.reg (ra pg 0x010) ||| maskOf b b)

/-! ## PG_STAT (R532) -/

/-- STATE of a page: 0 OFF, 1 STOPPED, 2 RUNNING, 3 DRAINING, 4 FAULTED, 5 RECOVERING. The EPC page is STOPPED while EPC_CTRL.EN = 0
(R402), whatever its PG_CTRL and a soft reset say: DEDUCED (log entry 209). -/
def State.pgState (s : State) (pg : Nat) : Nat :=
  let st := s.rf (ra pg 0x00C) 3 0
  if pg = mPage 0 ∧ st < 4 ∧ !s.rb (ra pg 0x100) 31 then 1 else st

/-- A change of PG_STAT raises event bit 1. -/
def State.setPg (s : State) (pg st : Nat) : State :=
  if s.pgState pg = st then s else (s.setRf (ra pg 0x00C) 3 0 st).raise pg 1

/-- STATE follows EN and STOP_REQ (R532): out of FAULTED and RECOVERING it does so when the recovery ends. -/
def State.pgAct (s : State) (pg : Nat) : State :=
  let en := s.rb (ra pg 0x008) 0 || decide (pg = mPage 0)
  let stop := s.rb (ra pg 0x008) 1 || (decide (pg = mPage 0) && !s.rb (ra pg 0x100) 31)
  match s.pgState pg with
  | 0 => if en then s.setPg pg (if stop then 1 else 2) else s
  | 1 => if !en then s.setPg pg 0 else if stop then s else s.setPg pg 2
  | 2 => if !en || stop then s.setPg pg 3 else s
  | _ => s

/-- A class 3 error of the block: any state but OFF becomes FAULTED (R532). -/
def State.pgFault (s : State) (pg : Nat) : State := if s.pgState pg = 0 then s else s.setPg pg 4

/-- The FMG begins the recovery path (R509). -/
def State.pgRecover (s : State) (pg : Nat) : State := if s.pgState pg = 4 then s.setPg pg 5 else s

/-- The recovery path ends: RUNNING, and then what EN and STOP_REQ say. -/
def State.pgRecovered (s : State) (pg : Nat) : State :=
  if s.pgState pg = 4 ∨ s.pgState pg = 5 then (s.setPg pg 2).pgAct pg else s

/-- The page is OFF or STOPPED, so its S fields may be written (R9). -/
def State.pgHalted (s : State) (pg : Nat) : Bool := decide (s.pgState pg ≤ 1)

/-! ## The FMG queue (R507) -/

/-- FMG_Q_LOST. -/
def aQLost : Nat := ra (mPage 3) 0x10C

/-- The entry that a report of class `c` displaces: the newest of the lowest class below `c`. -/
def fmgVictim (q : List FmgEntry) (c : Nat) : Option Nat :=
  let lows := q.filter fun e => decide (e.cls < c)
  match lows with
  | [] => none
  | e :: r =>
    let m := r.foldl (fun a x => min a x.cls) e.cls
    ((List.range q.length).filter fun i => ((q[i]?).map fun e => e.cls) == some m).getLast?

/-- The head entry: the highest class, and within it the oldest. -/
def fmgHead (q : List FmgEntry) : Option FmgEntry :=
  q.foldl (fun a e => match a with
    | none => some e
    | some b => if e.cls > b.cls then some e else some b) none

/-- The queue without its head entry. -/
def fmgPop (q : List FmgEntry) : List FmgEntry :=
  match fmgHead q with
  | none => q
  | some e => q.erase e

/-- Set a source's bit in FMG_FATAL_PEND. -/
def State.fatalPend (s : State) (src : Nat) : State := s.hwSet (ra (mPage 3) (0x140 + 4 * (src / 32))) (src % 32)

/-- The queue with a new report, by R507; and whether the report was lost as class 2. -/
def fmgPush (q : List FmgEntry) (e : FmgEntry) : List FmgEntry × Bool :=
  if q.length < 64 then (q ++ [e], false)
  else if e.cls ≤ 2 then (q, true)
  else
    match fmgVictim q e.cls with
    | none => (q, false)
    | some i => (q.eraseIdx i ++ [e], false)

/-- A report of class 2 or above reaches the FMG (R502, R507): the queue, the pending bit, WORST, and the FMG page's event. -/
def State.report (s : State) (pg cls cause : Nat) : State :=
  let e : FmgEntry := { cls := cls, source := eventSource pg, cause := cause, page := pg, tb := s.tb }
  let r := fmgPush s.fmgq e
  let s := { s with fmgq := r.1 }
  let s := if r.2 then s.bumpF aQLost 15 0 1 else s
  let s := if cls ≥ 3 then s.fatalPend (eventSource pg) else s
  let s := s.setRf (ra (mPage 3) 0x104) 30 28 (max cls (s.rf (ra (mPage 3) 0x104) 30 28))
  s.raise (mPage 3) 8

/-! ## The error registers of a page (R504 to R506) -/

/-- The words of ERR_FIRST, ERR_DETAIL and ERR_ADDR for an error. -/
def errWords (cls cause detail addr : Nat) : List Word := [nw (2 ^ 31 + cls * 2 ^ 28 + cause), nw detail, nw addr, nw (addr / 2 ^ 32)]

/-- Of two errors of one fabric cycle the first is held before the second: its class is higher, or its CAUSE lower in the same class. -/
def errBefore (a b : List Word) : Bool :=
  let x := a.getD 0 0
  let y := b.getD 0 0
  decide (fld y 30 28 < fld x 30 28 ∨ fld y 30 28 = fld x 30 28 ∧ fld x 27 0 < fld y 27 0)

/-- The errors that reached a page in this fabric cycle. -/
def State.errsNow (s : State) (pg : Nat) : Option (Nat × List Word) := if s.arrived.cyc = s.fab + 1 then tFind s.arrived.old pg else none

/-- An error reaches a page. -/
def State.errArrive (s : State) (pg : Nat) (w : List Word) : State :=
  let e := match s.errsNow pg with
    | none => (1, w)
    | some (n, v) => (n + 1, if errBefore w v then w else v)
  { s with arrived := { cyc := s.fab + 1, old := tPut (if s.arrived.cyc = s.fab + 1 then s.arrived.old else []) pg e } }

/-- The page holds an error. -/
def State.errPut (s : State) (pg : Nat) (w : List Word) : State :=
  (((s.setReg (ra pg 0x020) (w.getD 0 0)).setReg (ra pg 0x024) (w.getD 1 0)).setReg (ra pg 0x028) (w.getD 2 0)).setReg (ra pg 0x02C) (w.getD 3 0)

/-- Record an error that ERR_COUNT does not count (KL-11). The first error is held; a later one sets MULTI, and displaces one of the same
fabric cycle that stands behind it (R506). -/
def State.errHold (s : State) (pg cls cause detail addr : Nat) : State :=
  let w := errWords cls cause detail addr
  let now := bit (s.hwActs (ra pg 0x020)).2 31
  let s' := s.errArrive pg w
  if s.rb (ra pg 0x020) 31 then
    (if now && errBefore w [s.reg (ra pg 0x020)] then s'.errPut pg w else s').setRb (ra pg 0x030) 31 true
  else (s'.hwMark (ra pg 0x020) (maskOf 31 31)).errPut pg w

/-- A page records an error: the first is held, each is counted, event bit 0 is set, and class 2 and above is reported. -/
def State.err (s : State) (pg cls cause detail addr : Nat) : State :=
  let s := (s.errHold pg cls cause detail addr).bumpF (ra pg 0x030) 15 0 1
  let s := s.raise pg 0
  if cls ≥ 2 then s.report pg cls cause else s

/-! ## Register writes (R7 to R10) -/

/-- A write to a register by its access types and classes: RW bits of class L and G are stored (G in the shadow, which is the
stored word), those of class S only while the page is OFF or STOPPED; a 1 clears a W1C bit that the hardware did not set in the same fabric
cycle; the rest is ignored. A change
refused to an S field is recorded as S_WRITE_RUNNING (R10). -/
def State.writeReg (s : State) (a : Nat) (v : Word) : State :=
  match regDef? a with
  | none => s
  | some d =>
    let old := s.reg a
    let h := s.pgHalted (a / 4096)
    let m := d.rwL ||| d.rwG ||| (if h then d.rwS else 0)
    let s' := s.setReg a (((old &&& ~~~ m) ||| (v &&& m)) &&& ~~~ (v &&& d.w1c &&& ~~~ (s.hwActs a).2))
    if !h && decide ((v ^^^ old) &&& d.rwS ≠ 0) then s'.err (a / 4096) 0 1 (a % 4096) 0 else s'

/-! ## Power domains (R484 to R487) -/

/-- The state of a domain: 0 OFF, 1 ON, 2 IDLE. -/
def State.dom (s : State) (n : Nat) : Nat := tGet (fun _ => 0) s.doms n
def State.domIsOn (s : State) (n : Nat) : Bool := decide (s.dom n = 1)

/-- The domains of a device cluster, a device region, a SerDes quad, a slice pair, an LPDDR5X stack and a buffer half (R484). -/
def domClu (c : Nat) : Nat := 20 * (c / 16) + c % 16
def domRgn (r : Nat) : Nat := 20 * (r / 4) + 16 + r % 4
def domQuad (d q : Nat) : Nat := 80 + 15 * d + q
def domPair (d m : Nat) : Nat := 80 + 15 * d + 8 + m
def domStack (d k : Nat) : Nat := 80 + 15 * d + 12 + k
def domHalf (d : Nat) : Nat := 80 + 15 * d + 14

/-- The device cluster, the device core and the device region of a C-die page; the P-die and slice of a P-die page (R14, R522 to R524). -/
def cluOfPage (pg : Nat) : Nat := pg / 4096 * 16 + pg / 256 % 16 * 4 + pg / 16 % 4
def coreOfPage (pg : Nat) : Nat := cluOfPage pg * 8 + pg % 16
def rgnOfPage (pg : Nat) : Nat := pg / 4096 * 4 + pg / 256 % 16
def pdOfPage (pg : Nat) : Nat := pg / 4096 % 2
def sliceOfPage (pg : Nat) : Nat := pg / 256 % 16

/-- The device channel of a DMC page (R425). -/
def chanOfPage (pg : Nat) : Nat := pdOfPage pg * 16 + pg % 16

/-- An access to a block-specific offset of a page whose domain is not ON is counted in PWR_DOM_DENY (R487). -/
def State.domDeny (s : State) : State := s.bumpF (ra (mPage 1) 0x134) 15 0 1

/-- A write to a block of domain `n`: it acts while the domain is ON, and is refused and counted otherwise (R487). -/
def State.domGate (s : State) (n : Nat) (f : State → State) : State := if s.domIsOn n then f s else s.domDeny

/-- The region through which Policy Table writes enter (R321): device region 0 while it is ON, else the lowest that is ON. -/
def State.writeRegion (s : State) : Option Nat := (List.range 16).find? fun r => s.domIsOn (domRgn r)

/-! ## The rotating order (R166) -/

/-- The place of core `k` among `n` cores in core cycle `c`: the core at the pointer has place 0, and the pointer advances by one core every
core cycle. Where it stands at cycle 0 is a free value (log entry 179). -/
def rotRank (n k c : Nat) : Nat := (k % n + n - (c + Config.rotOrigin) % n) % n

/-- Put an element into a list that is ordered by `r`, behind those of its own place. -/
def rotInsert (r : α → Nat) (l : List α) (a : α) : List α :=
  (l.takeWhile fun b => decide (r b ≤ r a)) ++ a :: l.dropWhile fun b => decide (r b ≤ r a)

/-! ## Protected arrays (R444 to R449) -/

/-- The numbers of the arrays in `Config.rawState` and its companions: 0 DRAM, 1 CMEM of all clusters, then by P-die
2 + d packet buffer and 4 + d SA record store. -/
def arrDram : Nat := 0
def arrCmem : Nat := 1
def arrPkt (d : Nat) : Nat := 2 + d
def arrSat (d : Nat) : Nat := 4 + d
def arrFt (d : Nat) : Nat := 6 + d

/-- An array with nothing written. -/
def Arr.empty : Arr := { cells := [], poison := [], hurt := [] }

/-- Byte `i` of an array: what was written, or the free value of a cell that nothing has written; CTRL of an SA record that nothing has written
is 0 (R332). -/
def Arr.byte (a : Arr) (id i : Nat) : Byte := (tFind a.cells i).getD (if id / 2 = 2 ∧ i % 96 < 4 then 0 else Config.rawByte id i)

/-- What the 8-byte word at word address `w` decodes as: 0 good, 1 CE, 2 UE. -/
def Arr.code (a : Arr) (id w : Nat) : Nat :=
  if (tFind a.poison w).isSome then 2
  else
    match tFind a.hurt w with
    | some f => if f.ue then 2 else 1
    | none => if (tFind a.cells (8 * w)).isSome then 0 else min (Config.rawState id w) 2

/-- The weight of a byte. -/
def byteWeight (v : Nat) : Nat := ((List.range 8).filter fun i => v.testBit i).length

/-- The data columns from bit `i` on, taken one after another from the bytes still free. -/
def eccPick : Nat → Nat → List Nat → List Nat
  | 0, _, _ => []
  | n + 1, i, l => l.getD (Config.eccColumn i % l.length) 0 :: eccPick n (i + 1) (l.eraseIdx (Config.eccColumn i % l.length))

/-- The columns of the 72 bits of a protected word: distinct bytes of odd weight, those of the check bits with one bit set, as in every Hsiao
code. Which data bit has which is a free value (R444; log entry 224). -/
def eccColumns : List Nat :=
  eccPick 64 0 ((List.range 256).filter fun v => decide (byteWeight v % 2 = 1 ∧ byteWeight v ≠ 1)) ++ (List.range 8).map (2 ^ ·)

/-- The syndrome of an error in one bit. -/
def bitSynd (b : Nat) : Nat := eccColumns.getD b 0

/-- A syndrome of an uncorrectable error: not 0, and no column of a data or check bit (R444). -/
def ueSynd (k : Nat) : Nat :=
  let l := (List.range 256).filter fun v => decide (v ≠ 0) && !eccColumns.contains v
  l.getD (k % l.length) 0xFF

/-- The bit that the correction of a word flips, and its syndrome: free for a word that nothing has written. -/
def Arr.flaw (a : Arr) (id w : Nat) : Nat × Nat :=
  let b := match tFind a.hurt w with
    | some f => f.bit
    | none => Config.rawBit id w % 72
  (b, bitSynd b)

/-- The bytes from address `i` on. -/
def Arr.read (a : Arr) (id i n : Nat) : List Byte := (List.range n).map fun j => a.byte id (i + j)

/-- The worst outcome among the words that `n` bytes from `i` touch. -/
def Arr.codes (a : Arr) (id i n : Nat) : Nat :=
  ((List.range ((i + n + 7) / 8 - i / 8)).map fun j => a.code id (i / 8 + j)).foldl max 0

/-- The words with a correctable error among those that `n` bytes from `i` touch: the byte address, the bit, the syndrome. -/
def Arr.ces (a : Arr) (id i n : Nat) : List (Nat × Nat × Nat) :=
  (List.range ((i + n + 7) / 8 - i / 8)).filterMap fun j =>
    if a.code id (i / 8 + j) = 1 then some (8 * (i / 8 + j), a.flaw id (i / 8 + j)) else none

/-- The first word among those that `n` bytes from `i` touch whose outcome is `k`. -/
def Arr.first (a : Arr) (id i n k : Nat) : Nat :=
  (((List.range ((i + n + 7) / 8 - i / 8)).map (i / 8 + ·)).find? fun w => decide (a.code id w = k)).getD (i / 8)

/-- Store bytes, word by word: a word written in part keeps its other bytes, and every word touched is then good. -/
def Arr.write (a : Arr) (id i : Nat) (b : List Byte) : Arr :=
  let lo := i / 8 * 8
  let hi := (i + b.length + 7) / 8 * 8
  let old := a.read id lo (hi - lo)
  let new := old.take (i - lo) ++ b ++ old.drop (i - lo + b.length)
  if b = [] then a
  else
    { cells := (List.range new.length).foldl (fun t j => tPut t (lo + j) (new.getD j 0)) a.cells,
      poison := a.poison.filter fun e => decide (e.1 < i / 8 ∨ (i + b.length + 7) / 8 ≤ e.1),
      hurt := a.hurt.filter fun e => decide (e.1 < i / 8 ∨ (i + b.length + 7) / 8 ≤ e.1) }

/-- Store the poison pattern over the words of a range. -/
def Arr.spoil (a : Arr) (i n : Nat) : Arr :=
  { a with poison := (List.range ((i + n + 7) / 8 - i / 8)).foldl (fun t j => tPut t (i / 8 + j) ()) a.poison }

/-- The array with the contents of a range lost: nothing stands written there. -/
def Arr.lose (a : Arr) (p : Nat → Bool) : Arr :=
  { cells := a.cells.filter fun e => !p e.1, poison := a.poison.filter fun e => !p (8 * e.1),
    hurt := a.hurt.filter fun e => !p (8 * e.1) }

/-- Write the CE log of a page at NEXT: the bit corrected and the syndrome (R449). -/
def State.eccCe (s : State) (pg : Nat) (f : Nat × Nat) (addr : Nat) : State :=
  let n := s.rf (ra pg 0x708) 2 0
  let e := ra pg (0x740 + 8 * n)
  let s := s.bump (ra pg 0x700)
  let s := if s.rb e 31 then s.bumpF (ra pg 0x708) 31 16 1 else s
  let s := ((s.hwMark e (maskOf 31 31)).setReg e (nw (2 ^ 31 + f.1 * 2 ^ 24 + f.2 * 2 ^ 16 + addr / 2 ^ 32 % 16))).setReg (e + 4) (nw addr)
  let s := s.setRf (ra pg 0x708) 2 0 ((n + 1) % 8)
  s.err pg 1 5 f.2 addr

/-- Log the correctable errors of an access, each word's with its address from `base` on (R449). -/
def State.eccCes (s : State) (pg base : Nat) (l : List (Nat × Nat × Nat)) : State := l.foldl (fun s e => s.eccCe pg e.2 (e.1 - base)) s

/-- Count and record a UE (R448, R449). -/
def State.eccUe (s : State) (pg cls synd addr : Nat) : State := (s.bump (ra pg 0x704)).err pg cls 6 synd addr

/-- The syndrome of a word with a UE: 0xFF for the poison pattern. -/
def Arr.synd (a : Arr) (id w : Nat) : Nat :=
  if (tFind a.poison w).isSome then 0xFF
  else
    match (tFind a.hurt w).filter (·.ue) with
    | some f => f.synd
    | none => ueSynd (Config.rawSyndrome id w)

/-- A read of a record meets a soft error of it: logged and counted in its array's page, with the class and the address (R449). -/
def State.flawRead (s : State) (pg : Nat) (f : Flaw) (addr : Nat) : State :=
  if f.ue then s.eccUe pg 2 f.synd addr else s.eccCe pg (f.bit, f.synd) addr

/-- A record stands with an uncorrectable error. -/
def flawUe (f : Option Flaw) : Bool := f.any (·.ue)

/-! ## The Vault (R351, R352) -/

/-- The key of a slot of a P-die's Vault. -/
def vltKey (d slot : Nat) : Nat := d * 2 ^ 19 + slot

/-- A slot as an engine reads it: as it was before the writes and clears of this fabric cycle. -/
def State.vltSeen (s : State) (k : Nat) : Option (List Byte) × Option Flaw :=
  (s.vltWas.before s.fab k).getD (tFind s.vault k, tFind s.vltBad k)

/-- A slot is about to change: what it holds is kept for the engines of this fabric cycle. -/
def State.vltKeep (s : State) (k : Nat) : State := { s with vltWas := s.vltWas.note s.fab k (tFind s.vault k, tFind s.vltBad k) }

/-- A slot is cleared. -/
def State.vltClear (s : State) (k : Nat) : State :=
  let s := s.vltKeep k
  { s with vault := tDel s.vault k, vltBad := tDel s.vltBad k, vltGone := s.vltGone.note s.fab k () }

/-- A slot is written whole, with valid check bits; one that is cleared in this fabric cycle stays empty. -/
def State.vltPut (s : State) (k : Nat) (key : List Byte) : State :=
  let s := s.vltKeep k
  if (s.vltGone.before s.fab k).isSome then s else { s with vault := tPut s.vault k key, vltBad := tDel s.vltBad k }

/-- The SEC's command whose end has come, while no one has looked at it since: an ATTEST or a KEY_LOAD acts at its end, and the model carries
it out where its effect can first be seen. -/
def State.secDone (s : State) : Option SecTask :=
  if s.rb (ra (mPage 8) 0x100) 31 ∧ s.mbxJob = 6 then s.sec.task.filter fun t => decide (t.due ≤ s.now) else none

end Sys2Proof.Machine
end

