-- ==== Sys2Proof/Machine/Dram.lean ====
section
/-! DEFINITION. LPDDR5X: the address map, the mirror windows, channel faults, and reading and writing it (R425 to R448); and
the reads and writes of CMEM with its check code (R232, R237). -/

namespace Sys2Proof.Machine

/-- The P-die of a device DRAM address (R426). -/
def dramDie (a : Nat) : Nat := if a < 0x700000000 then 0 else 1

/-- The die-local address (R426). -/
def dramLocal (a : Nat) : Nat := a - dramDie a * 0x700000000

/-- The device channel that holds an address: O [11:8] of its P-die (R426). -/
def dramChan (a : Nat) : Nat := 16 * dramDie a + dramLocal a / 256 % 16

/-- The channel-local address (R426). -/
def dramL (a : Nat) : Nat := dramLocal a / 4096 * 256 + dramLocal a % 256

/-- The channel page (R427). -/
def dramPageOf (a : Nat) : Nat := dramL a / 1792

/-- The device DRAM address of byte `l` of channel `ch`. -/
def dramOfL (ch l : Nat) : Nat := ch / 16 * 0x700000000 + l / 256 * 4096 + ch % 16 * 256 + l % 256

/-- DMC_MIRn of a P-die, word 0 (R453). -/
def aMir (d n : Nat) : Nat := ra (dmcPage (16 * d)) (0x400 + 8 * n)

/-- The enabled mirror window that covers a die-local address (R441). -/
def State.mirWin (s : State) (d o : Nat) : Option Nat :=
  [0, 1, 2, 3].find? fun n =>
    s.rb (aMir d n) 31 && decide (s.rf (aMir d n) 4 0 * 2 ^ 30 ≤ o)
      && decide (o < (s.rf (aMir d n) 4 0 + s.rf (aMir d n + 4) 4 0) * 2 ^ 30)

/-- The mirror window of a device address. -/
def State.mirOf (s : State) (a : Nat) : Option Nat := s.mirWin (dramDie a) (dramLocal a)

/-- The address is DRAM, outside the remap spares and outside the copy half of a mirror window (R426, R428, R441). -/
def State.dramUsable (s : State) (a : Nat) : Bool :=
  decide (a < 0xE00000000) && decide (dramLocal a < 0x6FFE40000)
    && ((s.mirOf a).isNone || decide (dramLocal a / 2048 % 2 = 0))

/-- Every byte of a range is usable DRAM. -/
def State.dramRange (s : State) (a n : Nat) : Bool :=
  (List.range ((a + n + 255) / 256 - a / 256)).all fun j => s.dramUsable (a / 256 * 256 + 256 * j)

/-- DMC_STAT of a channel. -/
def aDmcStat (ch : Nat) : Nat := ra (dmcPage ch) 0x104

/-- DMC_REMAPn of a channel. -/
def aRemap (ch n : Nat) : Nat := ra (dmcPage ch) (0x300 + 4 * n)

/-- The channel is in a tracking blackout (R434). -/
def State.inBlackout (s : State) (ch : Nat) : Bool := (tFind s.trackEnd ch).any fun e => decide (s.now < e)

/-- A training of a channel leaves its mismatch counts in DMC_TRN_ERR0 to DMC_TRN_ERR17 (R433). -/
def State.trainCounts (s : State) (ch : Nat) : State :=
  ((List.range 18).foldl (fun s l => s.bumpF (ra (dmcPage ch) (0x200 + 4 * l)) 15 0 (Config.trainErr ch l s.draw)) s).drawn

/-- The channel is FAULTED (R440). -/
def State.faulted (s : State) (ch : Nat) : Bool := s.rb (aDmcStat ch) 30

/-- DMC_LOST_WR of a channel. -/
def aLostWr (ch : Nat) : Nat := ra (dmcPage ch) 0x124

/-- The link ECC of a read of a channel (R438): a corrected error is counted; a failed transfer is replayed, up to 3 times, each replay being
counted; after the third failed replay DMC_REPLAY_FAIL counts, and what the last transfer decodes as is a free value. Answers that value. A
read takes an entry of the channel's retry buffer and gives it back within its command, so one of the 32 is always free (log entry 181). -/
def State.linkRead (s : State) (ch : Nat) : Option Nat × State :=
  match tFind s.linkErr ch with
  | none => (none, s)
  | some k =>
    let s' := { s with linkErr := tDel s.linkErr ch }
    if k ≤ 1 then (none, s'.bump (ra (dmcPage ch) 0x110))
    else
      let s' := (List.range (min (k - 1) 3)).foldl (fun s _ => s.bump (ra (dmcPage ch) 0x114)) s'
      if k ≤ 4 then (none, s') else (some (min (Config.lastTransfer s.draw) 2), (s'.bump (ra (dmcPage ch) 0x118)).drawn)

/-- Decode one word of DRAM at a device address that is a multiple of 8: the outcome, logged as the DMC page does. -/
def State.dramWord1 (s : State) (a : Nat) : Nat × State :=
  let l := s.linkRead (dramChan a)
  let s := l.2
  let c := l.1.getD (s.dram.code arrDram (a / 8))
  match c with
  | 0 => (0, s)
  | 1 => (1, s.eccCe (dmcPage (dramChan a)) (s.dram.flaw arrDram (a / 8)) a)
  | _ => (2, s)

/-- Channel `k` of a P-die stands outside mirror window `w`: it has been FAULTED and no resync has ended since (R443). -/
def State.copyLost (s : State) (d w k : Nat) : Bool := (tFind s.resync ((4 * d + w) * 16 + k)).isSome

/-- The copy at device address `a` of mirror window `w` is not read: its channel is FAULTED or awaits its resync (R443). -/
def State.mirOut (s : State) (w a : Nat) : Bool := s.faulted (dramChan a) || s.copyLost (dramDie a) w (dramChan a % 16)

/-- A write does not reach the copy at `a`: its channel is FAULTED, or no resync runs that restores it (R443). -/
def State.mirShut (s : State) (w a : Nat) : Bool :=
  s.faulted (dramChan a) || decide (tFind s.resync ((4 * dramDie a + w) * 16 + dramChan a % 16) = some 0)

/-- A UE in the copy at `a`, counted in ECC_UE_CNT and recorded in its DMC page with class `cls` (R448, R449). -/
def State.dramUe (s : State) (cls a : Nat) : State := s.eccUe (dmcPage (dramChan a)) cls (s.dram.synd arrDram (a / 8)) a

/-- Read one word of one channel: its bytes, poisoned by a UE. -/
def State.dramPlain (s : State) (a : Nat) : List Byte × Bool × State :=
  let b := s.dram.read arrDram a 8
  match s.dramWord1 a with
  | (2, s') => (b, true, s'.dramUe 2 a)
  | (_, s') => (b, false, s')

/-- A mirrored word whose copy at `a` has a UE is served from the good copy at `b` and repaired; the UE is counted, as class 1 (R442, R449). -/
def State.dramRepair (s : State) (a b : Nat) : List Byte × State :=
  let v := s.dram.read arrDram b 8
  (v, { (s.dramUe 1 a) with dram := s.dram.write arrDram a v })

/-- Read one word: its bytes, whether they are poisoned, and the state after. A mirrored word with a UE is served and
repaired from the other copy (R442, R443); an unmirrored word of a FAULTED channel is poisoned (R440). -/
def State.dramWord (s : State) (a : Nat) : List Byte × Bool × State :=
  let b := s.dram.read arrDram a 8
  match s.mirOf a with
  | none => if s.faulted (dramChan a) then (b, true, s) else s.dramPlain a
  | some w =>
    if s.mirOut w a then
      if s.mirOut w (a + 2048) then (b, true, s.dramUe 2 a)
      else s.dramPlain (a + 2048)
    else if s.mirOut w (a + 2048) then s.dramPlain a
    else
      match s.dramWord1 a with
      | (2, s1) =>
        match s1.dramWord1 (a + 2048) with
        | (2, s2) => (b, true, (s2.dramUe 2 a).dramUe 2 (a + 2048))
        | (_, s2) => ((s2.dramRepair a (a + 2048)).1, false, (s2.dramRepair a (a + 2048)).2)
      | (_, s') => (b, false, s')

/-- Read the words from word address `w` on. -/
def State.dramWords : Nat → State → Nat → List Byte × Bool × State
  | 0, s, _ => ([], false, s)
  | k + 1, s, a =>
    let r := s.dramWord a
    let t := State.dramWords k r.2.2 (a + 8)
    (r.1 ++ t.1, r.2.1 || t.2.1, t.2.2)

/-- Read `n` bytes of DRAM from a device address: the bytes, whether any word was poisoned, the state after. -/
def State.dramRead (s : State) (a n : Nat) : List Byte × Bool × State :=
  let r := State.dramWords ((a + n + 7) / 8 - a / 8) s (a / 8 * 8)
  ((r.1.drop (a % 8)).take n, r.2.1, r.2.2)

/-- Store bytes that lie within one 256-byte granule: to both copies of a mirrored address, to the survivor alone where a
copy is lost and no resync runs, nowhere on a FAULTED channel (R440, R442, R443). -/
def State.dramPut (s : State) (a : Nat) (b : List Byte) : State :=
  let one (s : State) (a : Nat) : State := { s with dram := s.dram.write arrDram a b }
  match s.mirOf a with
  | none => if s.faulted (dramChan a) then s.bump (aLostWr (dramChan a)) else one s a
  | some w =>
    let s1 := if s.mirShut w a then s else one s a
    if s.mirShut w (a + 2048) then s1 else one s1 (a + 2048)

/-- Store bytes, granule by granule; the fuel is the number of granules. -/
def State.dramPuts : Nat → State → Nat → List Byte → State
  | 0, s, _, _ => s
  | k + 1, s, a, b =>
    let n := 256 - a % 256
    if b = [] then s else State.dramPuts k (s.dramPut a (b.take n)) (a + n) (b.drop n)

/-- The read of a read-modify-write: the word that `a` lies in, where it is written in part; whether it is poisoned (R429). -/
def State.dramMerge (s : State) (a : Nat) : Bool × State :=
  if a % 8 = 0 ∨ ((s.mirOf a).isNone ∧ s.faulted (dramChan a)) then (false, s) else (s.dramWord (a / 8 * 8)).2

/-- A store whose first or last word is written in part meets the read-modify-write rule of R429 and R448: it is performed
only when those words decode. Answers whether it was performed. -/
def State.dramWrite (s : State) (a : Nat) (b : List Byte) : Bool × State :=
  let e := a + b.length
  if b = [] then (true, s)
  else
    let h := s.dramMerge a
    let t := if e / 8 = a / 8 ∧ a % 8 ≠ 0 then (false, h.2) else h.2.dramMerge e
    if h.1 || t.1 then (false, t.2) else (true, State.dramPuts (b.length / 256 + 2) t.2 a b)

/-- The entries of a table from key `lo` to below `hi`; a table with those entries put in place of its own. -/
def tCut (lo hi : Nat) (t : Tbl α) : Tbl α := t.filter fun e => decide (lo ≤ e.1 ∧ e.1 < hi)
def tPaste (lo hi : Nat) (t o : Tbl α) : Tbl α :=
  (tCut lo hi o).foldl (fun t e => tPut t e.1 e.2) (t.filter fun e => !decide (lo ≤ e.1 ∧ e.1 < hi))

/-- The words from `lo` to below `hi` of an array as they stand, and an array in which those words stand as in another. -/
def Arr.cut (a : Arr) (lo hi : Nat) : Arr :=
  { cells := tCut (8 * lo) (8 * hi) a.cells, poison := tCut lo hi a.poison, hurt := tCut lo hi a.hurt }
def Arr.paste (a : Arr) (lo hi : Nat) (o : Arr) : Arr :=
  { cells := tPaste (8 * lo) (8 * hi) a.cells o.cells, poison := tPaste lo hi a.poison o.poison, hurt := tPaste lo hi a.hurt o.hurt }

/-- The line of DRAM at `a` with its second copy where the address is mirrored, and those bytes put back. -/
def State.dramTwin (s : State) (a : Nat) : Nat := if (s.mirOf a).isSome then a + 2048 else a
def State.dramLine (s : State) (a : Nat) : Arr × Arr :=
  let b := s.dramTwin a
  (s.dram.cut (a / 64 * 8) (a / 64 * 8 + 8), s.dram.cut (b / 64 * 8) (b / 64 * 8 + 8))
def State.putDramLine (s : State) (a : Nat) (x : Arr × Arr) : State :=
  let b := s.dramTwin a
  { s with dram := (s.dram.paste (a / 64 * 8) (a / 64 * 8 + 8) x.1).paste (b / 64 * 8) (b / 64 * 8 + 8) x.2 }

/-! ## CMEM -/

/-- The array address of byte `o` of a cluster's CMEM. -/
def cmemAt (c o : Nat) : Nat := c * 2 ^ 20 + o

/-- Read bytes of CMEM: the bytes, the worst outcome, and the state with CEs logged; a UE is left to the requester. -/
def State.cmemRead (s : State) (c o n : Nat) : List Byte × Nat × State :=
  let a := cmemAt c o
  let b := s.cmem.read arrCmem a n
  match s.cmem.codes arrCmem a n with
  | 0 => (b, 0, s)
  | k => (b, k, s.eccCes (cluPage c 1) (cmemAt c 0) (s.cmem.ces arrCmem a n))

/-- Log a CMEM UE of class 2 (R133, R237, R240). -/
def State.cmemUe (s : State) (c o : Nat) : State :=
  s.eccUe (cluPage c 1) 2 (s.cmem.synd arrCmem (cmemAt c o / 8)) (o / 8 * 8)

/-- Store bytes of CMEM with valid check bits. -/
def State.cmemPut (s : State) (c o : Nat) (b : List Byte) : State :=
  { s with cmem := s.cmem.write arrCmem (cmemAt c o) b }

/-- A store into CMEM whose first or last word is written in part merges only into words that decode (R237). -/
def State.cmemMergeOk (s : State) (c o n : Nat) : Bool :=
  (decide (o % 8 = 0) || decide (s.cmem.code arrCmem (cmemAt c o / 8) ≠ 2))
    && (decide ((o + n) % 8 = 0) || decide (s.cmem.code arrCmem (cmemAt c (o + n) / 8) ≠ 2))

/-- The key area (R232). -/
def inKeyArea (o : Nat) : Bool := decide (0xC8000 ≤ o ∧ o < 0xD8000)

end Sys2Proof.Machine
end

