-- ==== Sys2Proof/Machine/Cdc.lean ====
section
/-! DEFINITION. The cluster data cache, its victim cache and its addressable ways: decoding a DM access, loads and stores,
eviction and writeback, maintenance (R241 to R256). -/

namespace Sys2Proof.Machine

/-- A context. -/
def State.th (s : State) (t : Nat) : Thread := tGet (fun _ => Thread.fresh) s.thr t

/-- Replace a context. -/
def State.putTh (s : State) (t : Nat) (x : Thread) : State := { s with thr := tSet (fun _ => Thread.fresh) s.thr t x }

/-- Change a context. -/
def State.modTh (s : State) (t : Nat) (f : Thread → Thread) : State := s.putTh t (f (s.th t))

/-- A cluster's record. -/
def State.clu? (s : State) (c : Nat) : Cluster := tGet (fun _ => Cluster.fresh) s.clu c

/-- Change a cluster's record. -/
def State.setClu (s : State) (c : Nat) (f : Cluster → Cluster) : State :=
  { s with clu := tUpd (fun _ => Cluster.fresh) s.clu c f }

/-- Register `off` of a cluster's CDC page. -/
def aCdc (c off : Nat) : Nat := ra (cluPage c 2) off

/-- The ways that serve as addressable memory (R245). -/
def State.spmWays (s : State) (c : Nat) : Nat := s.rf (aCdc c 0x100) 6 4

/-- CDC_CTRL.EN. -/
def State.cdcEn (s : State) (c : Nat) : Bool := s.rb (aCdc c 0x100) 0

/-- What a DM access at an aperture offset reaches (R242). -/
inductive DmTarget where
  | align
  | teller (off : Nat)
  | maint (code : Nat)
  | spm (way off : Nat)
  | mem (addr : Nat)
  | range
  deriving DecidableEq, Repr

/-- Decode an aperture offset, the first case that matches (R242). -/
def State.dmDecode (s : State) (c a : Nat) : DmTarget :=
  let base := s.rf (aCdc c 0x110) 15 0 * 65536
  let n := s.spmWays c
  let d := s.rf (aCdc c 0x108) 19 0 * 65536 + a
  if a % 4 ≠ 0 then .align
  else if 0xFFFFF000 ≤ a then .teller (a - 0xFFFFF000)
  else if 0xFFFFE000 ≤ a then .maint ((a - 0xFFFFE000) / 4)
  else if base ≤ a ∧ a < base + n * 65536 then .spm (7 - (a - base) / 65536) ((a - base) % 65536)
  else if a < s.rf (aCdc c 0x10C) 15 0 * 65536 ∧ s.dramUsable d then .mem d
  else .range

/-- The key of way `w` of set `i` of a cluster's array. -/
def lineKey (c i w : Nat) : Nat := c * 8192 + i * 8 + w

/-- The device DRAM address of a line. -/
def State.lineAddr (s : State) (c set tag : Nat) : Nat := s.rf (aCdc c 0x108) 19 0 * 65536 + tag * 65536 + set * 64

/-- The way of the array that holds a line. -/
def State.findWay (s : State) (c set tag : Nat) : Option Nat :=
  (List.range (8 - s.spmWays c)).find? fun w =>
    match tFind s.lines (lineKey c set w) with
    | some l => decide (l.tag = tag)
    | none => false

/-- A class 3 parity error (R252): recorded in the CDC page with the line's place; the cluster is then lost by CLUSTER_FATAL. -/
def State.cdcFatal (s : State) (c place : Nat) : State := s.err (cluPage c 2) 3 7 place 0

/-- The line and its state bits have good parity. -/
def Line.sound (l : Line) : Bool := decide (l.bad = 0)

/-- Carry out the oldest writeback: its data lands in DRAM, and its line, wherever it is, is clean unless a later writeback of it is in
flight (R244). -/
def State.ackWb (s : State) (c : Nat) : State :=
  match (s.clu? c).wbs with
  | [] => s
  | w :: r =>
    let more := r.any fun v => decide (v.set = w.set ∧ v.tag = w.tag)
    let clr (l : Line) : Line := if l.tag = w.tag ∧ l.set = w.set ∧ !more then { l with wbPend := false } else l
    let dec (m : Maint) : Maint := { m with wait := m.wait.map (· - 1) }
    let s := (s.dramWrite w.addr w.data).2
    let s := s.setClu c fun k => { k with wbs := r, victim := k.victim.map clr, maint := k.maint.map dec,
                                          needFlush := k.needFlush.map fun f => { f with wait := f.wait - 1 } }
    { s with lines := tMap (fun i l => if i / 8192 = c then clr l else l) s.lines }

/-- Acknowledge the oldest `n` writebacks. -/
def State.ackAll : Nat → State → Nat → State
  | 0, s, _ => s
  | n + 1, s, c => State.ackAll n (s.ackWb c) c

/-- How many of the writebacks in flight, from the oldest, must be acknowledged until the last of a line's is. -/
def waitFor (wbs : List Wb) (set tag : Nat) : Nat :=
  (List.range wbs.length).foldl (fun n i =>
    match wbs[i]? with
    | some w => if w.set = set ∧ w.tag = tag then i + 1 else n
    | none => n) 0

/-- The writebacks of a line that are in flight land before DRAM is read or written for it (R243). -/
def State.landWbs (s : State) (c set tag : Nat) : State := State.ackAll (waitFor (s.clu? c).wbs set tag) s c

/-- Start the writeback of a dirty line: its data is read out; an error found there is class 3, and nothing is written to DRAM (R252). -/
def State.startWb (s : State) (c : Nat) (l : Line) : State :=
  if l.sound then
    s.setClu c fun k => { k with wbs := k.wbs ++ [{ addr := s.lineAddr c l.set l.tag, set := l.set, tag := l.tag, data := l.data }] }
  else s.cdcFatal c (8 * l.set)

/-- Acknowledgements arrive until one of the victim entries waits for none; the fuel is the number of writebacks in flight. -/
def State.ackUntil : Nat → State → Nat → State
  | 0, s, _ => s
  | n + 1, s, c => if (s.clu? c).victim.all (·.wbPend) then State.ackUntil n (s.ackWb c) c else s

/-- Room for one more victim entry: the oldest clean entry is dropped from a full victim cache; where all 16 wait for their
writeback, the eviction waits for the first acknowledgement of one of them (R244). -/
def State.victimRoom (s : State) (c : Nat) : State :=
  if (s.clu? c).victim.length < 16 then s
  else
    (State.ackUntil (s.clu? c).wbs.length s c).setClu c fun k =>
      { k with victim := match k.victim.findIdx? (fun l => !l.wbPend) with
                         | some i => k.victim.eraseIdx i
                         | none => k.victim.tail }

/-- Move a line to the victim cache; a dirty line's writeback starts at once (R244). A dirty line with a parity error goes nowhere: the
cluster is fatal (R252). -/
def State.evict (s : State) (c : Nat) (l : Line) : State :=
  let s := s.victimRoom c
  let s := if l.dirty then s.startWb c l else s
  if l.dirty && !l.sound then s
  else s.setClu c fun k => { k with victim := k.victim ++ [{ l with dirty := false, wbPend := l.wbPend || l.dirty }] }

/-- Put a line into its set: into a way that holds no line, or in place of the line that replacement chooses, which is
evicted (R241, R243). -/
def State.install (s : State) (c : Nat) (l : Line) : State :=
  let n := 8 - s.spmWays c
  let free := (List.range n).find? fun w => (tFind s.lines (lineKey c l.set w)).isNone
  match free with
  | some w => { s with lines := tPut s.lines (lineKey c l.set w) l }
  | none =>
    let w := Config.victimWay c l.set s.draw % n
    let s := s.drawn
    let s := match tFind s.lines (lineKey c l.set w) with
      | some v => s.evict c v
      | none => s
    { s with lines := tPut s.lines (lineKey c l.set w) l }

/-- KL-1 (R250): a CLEAN of a line that falls in the core cycle of a recall of that line may report completion while its writeback is still in
flight; whether it does is a free value. The recall is noted for a CLEAN still to come in this cycle, and an earlier one of this cycle ends. -/
def State.noteRecall (s : State) (c set tag : Nat) : State :=
  let early (m : Maint) : Bool :=
    decide (m.code = 1 ∧ m.wait.isSome ∧ m.cyc = s.cyc ∧ m.off / 64 % 1024 = set ∧ m.off / 65536 = tag) && Config.cleanEarly s.draw
  (s.setClu c fun k =>
    { k with recalls := (s.cyc, set, tag) :: k.recalls.filter fun e => decide (e.1 = s.cyc),
             maint := k.maint.map fun m => if early m then { m with wait := some 0 } else m }).drawn

/-- Recall a line from the victim cache into its set (R243). -/
def State.recall (s : State) (c set tag : Nat) : Option State :=
  match (s.clu? c).victim.find? fun l => decide (l.set = set ∧ l.tag = tag) with
  | none => none
  | some l =>
    let s := s.setClu c fun k => { k with victim := k.victim.erase l }
    some (((s.install c l).bump (aCdc c 0x138)).noteRecall c set tag)

/-- The line's place in the array, after a recall where it stood in the victim cache. -/
def State.lookLine (s : State) (c set tag : Nat) : Option Nat × State :=
  match s.findWay c set tag with
  | some w => (some w, s)
  | none =>
    match s.recall c set tag with
    | some s' => (s'.findWay c set tag, s')
    | none => (none, s)

/-- The way of a set, or 8 for its victim entries, in which a tag or a state bit has bad parity (R252). -/
def State.tagBad (s : State) (c set : Nat) : Option Nat :=
  let w := (List.range (8 - s.spmWays c)).find? fun w => (tFind s.lines (lineKey c set w)).any fun l => l.bad.getLsbD 16
  if w.isSome then w
  else if (s.clu? c).victim.any fun l => decide (l.set = set) && l.bad.getLsbD 16 then some 8 else none

/-- An uncorrectable error in the data of a DM load: class 2 in the CDC page, with the aperture offset (R141). -/
def State.cdcUe (s : State) (c a : Nat) : State := s.err (cluPage c 2) 2 6 0 a

/-- A load that misses fetches the line from DRAM and installs it; an uncorrectable error poisons the load, and no line is installed (R141,
R243). -/
def State.cdcFill (s : State) (c a addr : Nat) : Word × Bool × Bool × State :=
  let set := a / 64 % 1024
  let tag := a / 65536
  let s := (s.landWbs c set tag).bump (aCdc c 0x134)
  let r := s.dramRead (addr / 64 * 64) 64
  if r.2.1 then (0, true, false, r.2.2.cdcUe c a)
  else
    let s := r.2.2.install c { tag := tag, set := set, dirty := false, wbPend := false, data := r.1, bad := 0 }
    (leWord (bytesAt r.1 (a % 64) 4), false, false, s)

/-- A DM load of the cached path: the word, whether it is poisoned, whether it hit, and the state after (R243). A parity error in the data
of a clean line makes it a miss, of class 1; in a dirty line or in a tag or state bit it is class 3, and the load is poisoned (R252). -/
def State.cdcLoad (s : State) (c a addr : Nat) : Word × Bool × Bool × State :=
  let set := a / 64 % 1024
  let tag := a / 65536
  if !s.cdcEn c then
    let r := s.dramRead addr 4
    if r.2.1 then (0, true, false, r.2.2.cdcUe c a) else (leWord r.1, false, false, r.2.2)
  else
    match s.tagBad c set with
    | some w => (0, true, true, s.cdcFatal c (8 * set + w))
    | none =>
      match s.lookLine c set tag with
      | (some w, s) =>
        match tFind s.lines (lineKey c set w) with
        | some l =>
          if !l.bad.getLsbD (a % 64 / 4) then (leWord (bytesAt l.data (a % 64) 4), false, true, s.bump (aCdc c 0x130))
          else if l.dirty then (0, true, true, s.cdcFatal c (8 * set + w))
          else
            let s := (s.err (cluPage c 2) 1 7 (8 * set + w) 0).bumpF (aCdc c 0x13C) 15 0 1
            State.cdcFill { s with lines := tDel s.lines (lineKey c set w) } c a addr
        | none => (0, false, true, s)
      | (none, s) => s.cdcFill c a addr

/-- A DM store of the cached path: whether it hit, whether it was performed, and the state after (R243, R448). A tag or state bit with bad
parity is class 3; R252 does not say what becomes of a store then: it writes nothing and is acknowledged. DESIGN CHOICE (log entry 182). -/
def State.cdcStore (s : State) (c a addr : Nat) (v : Word) : Bool × Bool × State :=
  let set := a / 64 % 1024
  let tag := a / 65536
  let around (s : State) : Bool × Bool × State :=
    let r := (s.landWbs c set tag).dramWrite addr (leBytes 4 v.toNat)
    (false, r.1, r.2)
  if !s.cdcEn c then around s
  else
    match s.tagBad c set with
    | some w => (true, true, s.cdcFatal c (8 * set + w))
    | none =>
      match s.lookLine c set tag with
      | (some w, s) =>
        let s := s.bump (aCdc c 0x130)
        match tFind s.lines (lineKey c set w) with
        | some l =>
          let l' := { l with dirty := true, data := putBytes l.data (a % 64) (leBytes 4 v.toNat),
                             bad := l.bad &&& ~~~ (BitVec.ofNat 17 (2 ^ (a % 64 / 4))) }
          (true, true, { s with lines := tPut s.lines (lineKey c set w) l' })
        | none => (true, true, s)
      | (none, s) => around s

/-- The key of byte `o` of an addressable way. -/
def spmKey (c w o : Nat) : Nat := c * 2 ^ 19 + w * 65536 + o

/-- Read a word of an addressable way. -/
def State.spmLoad (s : State) (c w o : Nat) : Word := leWord (tRange (fun _ => 0) s.spm (spmKey c w o) 4)

/-- Whether a word of an addressable way has bad parity. -/
def State.spmUe (s : State) (c w o : Nat) : Bool := (tFind s.spmBad (spmKey c w o / 4)).isSome

/-- A load of a word of an addressable way with bad parity is class 2 and poisoned (R252). -/
def State.spmErr (s : State) (c w o : Nat) : State := s.err (cluPage c 2) 2 7 (o / 64 * 8 + w) 0

/-- Store a word of an addressable way, with good parity. -/
def State.spmStore (s : State) (c w o : Nat) (v : Word) : State :=
  { s with spm := tPutAll (fun _ => 0) s.spm (spmKey c w o) (leBytes 4 v.toNat), spmBad := tDel s.spmBad (spmKey c w o / 4) }

/-- The addressable ways of a cluster that `p` selects are written to zero with good parity. -/
def State.spmClear (s : State) (c : Nat) (p : Nat → Bool) : State :=
  let hit := fun (k : Nat) => decide (k / 2 ^ 19 = c) && p (k / 65536 % 8)
  { s with spm := s.spm.filter fun e => !hit e.1, spmBad := s.spmBad.filter fun e => !hit (4 * e.1) }

/-- The word at an aperture offset as the cache, a writeback in flight, an addressable way or DRAM holds it. -/
def State.dmPeek (s : State) (c a : Nat) : Word :=
  let set := a / 64 % 1024
  let tag := a / 65536
  match s.dmDecode c a with
  | .spm w o => s.spmLoad c w o
  | .mem d =>
    let k := s.clu? c
    let line := match s.findWay c set tag with
      | some w => (tFind s.lines (lineKey c set w)).map (·.data)
      | none => ((k.victim.find? fun l => decide (l.set = set ∧ l.tag = tag)).map (·.data)).or
          ((k.wbs.reverse.find? fun w => decide (w.set = set ∧ w.tag = tag)).map (·.data))
    match line with
    | some b => leWord (bytesAt b (a % 64) 4)
    | none => leWord (s.dram.read arrDram d 4)
  | _ => 0

/-- The place of a DM access among those of core cycle `cyc` (R244). -/
def DmHit.place (h : DmHit) (cyc : Nat) : Nat := rotRank 8 (h.thread / 8) cyc

/-- What a word holds behind those of a core cycle's stores to it whose places come before `r`, where it held `base` before the cycle (R244). -/
def dmSeen (l : List DmHit) (cyc r : Nat) (base : Word) : Word :=
  (l.foldl (fun (a : Nat × Word) h =>
    match h.store with
    | some v => if h.place cyc < r ∧ a.1 ≤ h.place cyc then (h.place cyc, v) else a
    | none => a) (0, base)).2

/-- The accesses of core cycle `cyc` to the word at `a` that have been made. -/
def Cluster.dmSame (k : Cluster) (cyc a : Nat) : List DmHit := if k.dmCyc = cyc then k.dmHits.filter fun h => decide (h.addr = a) else []

/-- One more DM access of core cycle `cyc`. -/
def State.dmNote (s : State) (c cyc : Nat) (h : DmHit) : State :=
  s.setClu c fun k => { k with dmCyc := cyc, dmHits := if k.dmCyc = cyc then k.dmHits ++ [h] else [h] }

/-! ## Maintenance (R248, R249) -/

/-- A line that its cluster may not write back: dirty with bad parity, or with bad parity of its tag or state bits (R252). -/
def Line.stuck (l : Line) : Bool := l.bad.getLsbD 16 || (l.dirty && !l.sound)

/-- Write back a line of the array if it is dirty, and keep it (CLEAN); a line that cannot be written back stays as it is. -/
def State.cleanKey (s : State) (c k : Nat) : State :=
  match tFind s.lines k with
  | some l =>
    if l.stuck then s.cdcFatal c (k % 8192)
    else if l.dirty then { s.startWb c l with lines := tPut s.lines k { l with dirty := false, wbPend := true } } else s
  | none => s

/-- The keys of a cluster's lines in the ways that satisfy `p`. -/
def State.lineKeys (s : State) (c : Nat) (p : Nat → Bool) : List Nat :=
  (s.lines.filter fun e => decide (e.1 / 8192 = c) && p (e.1 % 8)).map (·.1)

/-- A line of the array in the ways that satisfy `p` that stops a flush (R252, R253). -/
def State.flushStuck (s : State) (c : Nat) (p : Nat → Bool) : Bool :=
  (s.lineKeys c p).any fun k => (tFind s.lines k).any (·.stuck)

/-- FLUSH every line of the array in the ways that satisfy `p`, up to the first that meets a class 3 error. -/
def State.flushWays (s : State) (c : Nat) (p : Nat → Bool) : State :=
  let l := s.lineKeys c p
  let ok := fun (k : Nat) => !(tFind s.lines k).any (·.stuck)
  let s' := (l.takeWhile ok).foldl (fun s k => { s.cleanKey c k with lines := tDel s.lines k }) s
  match l.dropWhile ok with
  | k :: _ => s'.cdcFatal c (k % 8192)
  | [] => s'

/-- A class 3 error stops a FLUSH_ALL: in a line of the array, or in the tag or a state bit of a victim entry (R252). -/
def State.flushAllStuck (s : State) (c : Nat) : Bool :=
  s.flushStuck c (fun _ => true) || (s.clu? c).victim.any fun l => l.bad.getLsbD 16

/-- FLUSH every line of the array; the victim entries, which are clean, are dropped. The first line or entry that meets a class 3 error ends
it (R252). -/
def State.flushAll (s : State) (c : Nat) : State :=
  let t := s.flushWays c fun _ => true
  if s.flushStuck c fun _ => true then t
  else
    match (s.clu? c).victim.find? fun l => l.bad.getLsbD 16 with
    | some l => t.cdcFatal c (8 * l.set + 8)
    | none => t.setClu c fun k => { k with victim := [] }

/-- Discard a line by address, wherever it stands. -/
def State.discard (s : State) (c set tag : Nat) : State :=
  let s := match s.findWay c set tag with
    | some w => { s with lines := tDel s.lines (lineKey c set w) }
    | none => s
  s.setClu c fun k => { k with victim := k.victim.filter fun l => !decide (l.set = set ∧ l.tag = tag) }

/-- The line of the array at an aperture offset, where it meets a class 3 error (R252). -/
def State.lineStuck (s : State) (c set tag : Nat) : Bool :=
  (s.findWay c set tag).any fun w => (tFind s.lines (lineKey c set w)).any (·.stuck)

/-- An operation meets a class 3 error that stops it: CDC_MAINT then reports FATAL (R252, R256). -/
def State.maintFatal (s : State) (c code off : Nat) : Bool :=
  let cached := match s.dmDecode c off with | .mem _ => true | _ => false
  let set := off / 64 % 1024
  match code with
  | 1 => cached && ((s.tagBad c set).isSome || s.lineStuck c set (off / 65536))
  | 2 => cached && (s.tagBad c set).isSome
  | 3 => cached && ((s.tagBad c set).isSome || s.lineStuck c set (off / 65536))
  | 4 => s.flushAllStuck c
  | _ => false

/-- Carry out operation `code` at aperture offset `off`, and answer how many writebacks it waits for. An offset that names
no cached address, or that is no multiple of 4, has no effect (R248); bad parity of a tag or a state bit that stands where the line is looked
for is class 3 (R252). -/
def State.maintain (s : State) (c code off : Nat) : Nat × State :=
  let set := off / 64 % 1024
  let tag := off / 65536
  let cached := match s.dmDecode c off with | .mem _ => true | _ => false
  let clean (s : State) : State := match s.findWay c set tag with
    | some w => s.cleanKey c (lineKey c set w)
    | none => s
  let byTag (f : Nat × State) : Nat × State :=
    if !cached then (0, s)
    else
      match s.tagBad c set with
      | some w => (0, s.cdcFatal c (8 * set + w))
      | none => f
  match code with
  | 1 => byTag (let s := clean s; (waitFor (s.clu? c).wbs set tag, s))
  | 2 => byTag (0, s.discard c set tag)
  | 3 => byTag <|
    if s.lineStuck c set tag then (0, clean s)
    else let s := (clean s).discard c set tag; (waitFor (s.clu? c).wbs set tag, s)
  | 4 =>
    if s.flushAllStuck c then (0, s.flushAll c)
    else let s := s.flushAll c; ((s.clu? c).wbs.length, s)
  | 5 =>
    let s := { s with lines := s.lines.filter fun e => decide (e.1 / 8192 ≠ c) }
    (0, s.setClu c fun k => { k with victim := [] })
  | 6 => ((s.clu? c).wbs.length, s)
  | _ => (0, s)

/-- The first accepted operation of code `code` from `src` that has not been carried out. -/
def maintNext (l : List Maint) (src : Option Nat) (code : Nat) : Option Nat :=
  l.findIdx? fun m => decide (m.thread = src ∧ m.code = code ∧ m.wait = none)

/-- The write-arounds of a cluster's contexts that are not acknowledged, as context and scoreboard bit (R243, R248). -/
def State.aroundsOf (s : State) (c : Nat) : List (Nat × Nat) :=
  ((s.thr.filter fun e => decide (e.1 / 64 = c)).map fun e => (e.2.dm.filter (·.around)).map fun o => (e.1, o.sb)).flatten

/-- A CLEAN of a line that was recalled in this core cycle (R250). -/
def State.kl1 (s : State) (c code off : Nat) : Bool :=
  decide (code = 1) && (s.clu? c).recalls.any fun e => decide (e = (s.cyc, off / 64 % 1024, off / 65536))

/-- The CDC carries out operation `i` of its list. One that meets a class 3 error stops there and ends (R252, R256). A CLEAN that falls in the
core cycle of a recall of its line may end at once (R250). -/
def State.maintDo (s : State) (c i code : Nat) : State :=
  match (s.clu? c).maint[i]? with
  | none => s
  | some m =>
    let bad := s.maintFatal c code m.off
    let r := s.maintain c code m.off
    let n := if bad ∨ (s.kl1 c code m.off ∧ Config.cleanEarly s.draw) then 0 else r.1
    let l := if code = 6 then s.aroundsOf c else []
    r.2.setClu c fun k => { k with maint := k.maint.set i { m with fatal := bad, wait := some n, arounds := l, cyc := s.cyc } }

/-! ## The operations of one core cycle (R244)

They act in rotating order. Where one is commanded behind another of its line that follows it, the cache is put back to what stood before the
core cycle's first, and all of them act again in their order. A command between them that changes the cache, its counters or those lines of
DRAM begins a new turn (log entry 186). -/

/-- The event counters of the CDC page. -/
def cdcCounters : List Nat := [0x130, 0x134, 0x138, 0x13C]

/-- A counter reads `v` when what was counted is counted again; the counts of this fabric cycle follow it (R7). -/
def State.recount (s : State) (a : Nat) (v : Word) : State :=
  (if s.hw.cyc = s.fab + 1 ∧ (tFind s.hw.acts a).isSome then s.hwAct a (· + (v - s.reg a)) else s).setReg a v

/-- The cache of a cluster as the operations of a turn see it. -/
def State.cdcView (s : State) (c : Nat) : CdcView :=
  let k := s.clu? c
  { lines := s.lines.filter fun e => decide (e.1 / 8192 = c), victim := k.victim, wbs := k.wbs, recalls := k.recalls, maint := k.maint,
    flush := k.needFlush, counts := cdcCounters.map fun o => s.reg (aCdc c o) }

/-- The cache still stands as `v` but for maintenance operations that have been accepted since. -/
def CdcView.stands (v w : CdcView) : Bool := decide ({ w with maint := w.maint.take v.maint.length } = v)

/-- The cache is put back to what it was; operations accepted since stay accepted. -/
def State.cdcBack (s : State) (c : Nat) (v : CdcView) : State :=
  let s := { s with lines := v.lines.foldl (fun t e => tPut t e.1 e.2) (s.lines.filter fun e => !decide (e.1 / 8192 = c)) }
  let s := (cdcCounters.zip v.counts).foldl (fun (s : State) (e : Nat × Word) => s.setReg (aCdc c e.1) e.2) s
  s.setClu c fun k =>
    { k with victim := v.victim, wbs := v.wbs, recalls := v.recalls, maint := v.maint ++ k.maint.drop v.maint.length, needFlush := v.flush }

/-- The operation is an access; it reaches every line of the cache. -/
def CdcOp.isAccess (o : CdcOp) : Bool := match o.what with | .maint _ _ => false | _ => true
def CdcOp.wide (o : CdcOp) : Bool := match o.what with | .maint _ code => decide (code = 4 ∨ code = 5) | _ => false

/-- Two operations reach one line. -/
def CdcOp.meets (a b : CdcOp) : Bool := a.wide || b.wide || decide (a.addr / 64 = b.addr / 64)

/-- The place of an operation in the rotating order of core cycle `cyc`. -/
def CdcOp.place (o : CdcOp) (cyc : Nat) : Nat := rotRank 8 (o.thread / 8) cyc

/-- An operation acts on the cache. Of an access: the word, whether it is poisoned or not performed, and whether it hit. -/
def State.cdcDo (s : State) (c : Nat) (o : CdcOp) : (Word × Bool × Bool) × State :=
  match o.what with
  | .load => let r := s.cdcLoad c o.addr o.mem; ((r.1, r.2.1, r.2.2.1), r.2.2.2)
  | .store v => let r := s.cdcStore c o.addr o.mem v; ((0, !r.2.1, r.1), r.2.2)
  | .maint i code => ((0, false, false), s.maintDo c i code)

/-- What is outstanding for an access of core cycle `cyc` that ended so. -/
def CdcOp.dmOp (o : CdcOp) (cyc : Nat) (r : Word × Bool × Bool) : DmOp :=
  let load := decide (o.what = .load)
  { load := load, sb := o.sb, value := r.1, poison := r.2.1, due := cyc + (if r.2.2 then 48 else if load then 3200 else 400),
    line := o.addr / 64, around := !load && !r.2.2 }

/-- What is outstanding for an access of the turn follows its new end. -/
def State.dmAgain (s : State) (o : CdcOp) (d : DmOp) : State :=
  if o.isAccess then s.modTh o.thread fun y => { y with dm := y.dm.map fun x => if x.sb = d.sb ∧ x.load = d.load ∧ x.line = d.line then d else x }
  else s

/-- The turn of core cycle `cyc`: the one that has begun, where nothing has come between, or a new one. -/
def State.turnOf (s : State) (c cyc : Nat) : CdcTurn :=
  let v := s.cdcView c
  let new : CdcTurn := { cyc := cyc, ops := [], base := v, left := v }
  match (s.clu? c).turn with
  | none => new
  | some u => if u.cyc = cyc ∧ u.left.stands v = true ∧ u.ops.all (fun o => !o.isAccess || decide (s.dramLine o.mem = o.left)) = true then u else new

/-- An operation of the turn reaches the line of `o` and follows it in the rotating order. -/
def CdcTurn.follows (u : CdcTurn) (o : CdcOp) : Bool := u.ops.any fun e => e.meets o && decide (o.place u.cyc < e.place u.cyc)

/-- `o` takes its place in the turn, with the line of DRAM as it stood before the turn's accesses to it. -/
def State.turnWith (s : State) (u : CdcTurn) (o : CdcOp) : CdcTurn :=
  let w := ((u.ops.find? fun e => e.isAccess && decide (e.mem / 64 = o.mem / 64)).map (·.was)).getD (s.dramLine o.mem)
  { u with ops := rotInsert (·.place u.cyc) u.ops { o with was := if o.isAccess then w else o.was } }

/-- All operations of the turn act again, from the cache before it; how that of context `t` on bit `b` ends is answered. -/
def State.turnAgain (s : State) (c : Nat) (u : CdcTurn) (t b : Nat) : (Word × Bool × Bool) × State :=
  let s := (u.ops.filter (·.isAccess)).foldl (fun s e => s.putDramLine e.mem e.was) (s.cdcBack c u.base)
  u.ops.foldl (fun a e =>
    let r := a.2.cdcDo c e
    (if e.thread = t ∧ e.sb = b then r.1 else a.1, r.2.dmAgain e (e.dmOp u.cyc r.1))) ((0, false, false), s)

/-- The turn is noted, with the cache as it now stands. -/
def State.turnNote (s : State) (c : Nat) (u : CdcTurn) : State :=
  let ops := u.ops.map fun e => if e.isAccess then { e with left := s.dramLine e.mem } else e
  s.setClu c fun k => { k with turn := some { u with ops := ops, left := s.cdcView c } }

/-- An operation reaches the cache of its cluster in core cycle `cyc` (R244). An error that it meets is recorded as it is commanded. -/
def State.cdcTurn (s : State) (c cyc : Nat) (o : CdcOp) : (Word × Bool × Bool) × State :=
  let u := s.turnOf c cyc
  let v := s.turnWith u o
  let r := s.cdcDo c o
  if !u.follows o then (r.1, r.2.turnNote c v)
  else
    let a := r.2.turnAgain c v o.thread o.sb
    let t := { r.2 with lines := a.2.lines, dram := a.2.dram, clu := a.2.clu, thr := a.2.thr, draw := a.2.draw }
    (a.1, (cdcCounters.foldl (fun s o => s.recount (aCdc c o) (a.2.reg (aCdc c o))) t).turnNote c v)

/-- The operation that an accepted maintenance operation of a context is in its turn. -/
def Maint.op (m : Maint) (i t code : Nat) : CdcOp :=
  { thread := t, sb := m.sb, what := .maint i code, addr := m.off, mem := 0, was := (Arr.empty, Arr.empty), left := (Arr.empty, Arr.empty) }

/-- The CDC carries out the next accepted operation of a code. INVAL_ALL outside OFF and STOPPED is refused. An operation of the CDC page comes
after all accesses of its core cycle (R244): the cycle passes with it. An operation of a context reaches its line with this command, in its
turn; SYNC reaches no line. -/
def State.runMaint (s : State) (c : Nat) (src : Option Nat) (code : Nat) : State :=
  match maintNext (s.clu? c).maint src code with
  | none => s
  | some i =>
    match (s.clu? c).maint[i]? with
    | none => s
    | some m =>
      if code = 5 ∧ !s.pgHalted (cluPage c 2) then
        s.setClu c fun k => { k with maint := k.maint.set i { m with refused := true, wait := some 0 } }
      else
        match src with
        | none => (s.maintDo c i code).upToCyc (s.cyc + 1)
        | some t => if code = 6 then s.maintDo c i code else (s.cdcTurn c s.cyc (m.op i t code)).2

/-- The CDC page accepts an operation written to CDC_MAINT: BUSY = 1; a write while one is in progress is ignored and turns
that one's result into REFUSED. -/
def State.maintWrite (s : State) (c code : Nat) : State :=
  if s.rb (aCdc c 0x118) 31 then
    s.setClu c fun k => { k with maint := k.maint.map fun m => if m.thread = none then { m with refused := true } else m }
  else
    let m : Maint := { thread := none, sb := 0, code := code, off := (s.reg (aCdc c 0x114)).toNat, refused := decide (code = 0 ∨ 6 < code),
                       fatal := false, wait := if code = 0 ∨ 6 < code then some 0 else none, arounds := [], cyc := 0 }
    ((s.setRb (aCdc c 0x118) 31 true).setRb (aCdc c 0x118) 30 false).setClu c fun k => { k with maint := k.maint ++ [m] }

end Sys2Proof.Machine
end

