-- ==== Sys2Proof/Machine/Escrow.lean ====
section
/-! DEFINITION. What the contexts of a cluster share: waking and event bits (R145, R159 to R161), Escrow locks (R162 to R173)
and channels (R174 to R178). -/

namespace Sys2Proof.Machine

/-- The owner ID of a context (R12): its device number, doubled. -/
def ownerOf (t : Nat) : OwnerId := BitVec.ofNat 14 (2 * t)

/-- The context that an owner ID names; bit [13] names an engine. The reserved bit [0], and the bits above [13] of a value that holds an owner
ID, are ignored: DESIGN CHOICE (log entry 213). -/
def threadOf (o : Nat) : Option Nat := if o % 16384 < 8192 then some (o % 8192 / 2) else none

/-- The cluster, the region and the number within the cluster of a context (R14, R147). -/
def cluOf (t : Nat) : Nat := t / 64
def rgnOf (t : Nat) : Nat := t / 256
def ctxNo (t : Nat) : Nat := t % 64

/-- The first own slot of a context that begins at core cycle `c` or later (R40). -/
def ownSlot (t c : Nat) : Nat := nextCongr c (t % 8) 8

/-- A context counts as stalled (R179). -/
def Thread.stalled (x : Thread) : Bool :=
  decide (x.st = .waitLock ∨ x.st = .waitChan ∨ x.st = .waitJoin ∨ (x.st = .waitEvent ∧ x.timeout = Option.none))

/-- The stall counter of a cluster runs (R179): a task-mode cluster with a stalled context, every other one FREE or EXITED, and
none STOPPED. -/
def State.stalled (s : State) (c : Nat) : Bool :=
  let xs := (List.range 64).map fun i => s.th (c * 64 + i)
  !(s.clu? c).packet && xs.any (fun x => x.stalled) && xs.all (fun x => (x.stalled || decide (x.st = .idle ∨ x.st = .exited)) && !x.stopped)

/-- CLU_STALL_STAT.COUNT: the counter holds its value while it does not run. -/
def State.stallCount (s : State) (c : Nat) : Nat :=
  let k := s.clu? c
  min 16384 (k.stall + if s.stalled c then s.cyc - k.lastAct else 0)

/-- Something happens in a cluster that resets its stall counter (R179). -/
def State.active (s : State) (c : Nat) : State := s.setClu c fun k => { k with stall := 0, lastAct := s.cyc }

/-- What a cluster's stall counter has counted is kept, before a context of the cluster changes its state (R179). -/
def State.stallKeep (s : State) (c : Nat) : State := s.setClu c fun k => { k with stall := s.stallCount c, lastAct := s.cyc }

/-- A waiting context runs again: it issues in its first own slot at least 8 core cycles from now (R145). -/
def State.wake (s : State) (t : Nat) : State :=
  (s.stallKeep (cluOf t)).modTh t fun x => { x with st := .running, waitObj := 0, waitAt := none, nextCyc := max x.nextCyc (ownSlot t (s.cyc + 8)) }

/-- Write a result socket at once. -/
def Thread.setRes (x : Thread) (k : Nat) (v : Word) : Thread := { x with res := tSet (fun _ => 0) x.res k v }

/-- The result of a context's latest operation on a unit: it stands in the socket, and what older operations have on their way is not
seen any more (R110). -/
def Thread.deliver (x : Thread) (k : Nat) (v : Word) : Thread :=
  { x.setRes k v with pend := x.pend.filter fun p => decide (p.sock ≠ k) }

/-- What socket `k` will hold when every result on its way has arrived (R110). -/
def Thread.latest (x : Thread) (k : Nat) : Word :=
  ((x.pend.filter fun p => decide (p.sock = k)).getLast?.map (·.value)).getD (tGet (fun _ => 0) x.res k)

/-- A matching event ends a TU.wait: TU.r has the matching bits, which are cleared; the timeout is cancelled (R160). -/
def State.eventWake (s : State) (t : Nat) : State :=
  let x := s.th t
  if x.st = .waitEvent ∧ x.ev &&& x.mask ≠ 0 then
    (s.putTh t ({ x with ev := x.ev &&& ~~~ x.mask, timeout := none, mask := 0 }.deliver 0x390
      (BitVec.setWidth 32 (x.ev &&& x.mask)))).wake t
  else s

/-- Latch event `e` in a context, and wake it if it waits for it (R160, R161). -/
def State.latch (s : State) (t e : Nat) : State :=
  (s.modTh t fun x => { x with ev := x.ev ||| BitVec.ofNat 16 (2 ^ e) }).eventWake t

/-! ## Locks -/

/-- The lock that a value of LK.t names: the Escrow page and the lock number, or none for a value outside R163. -/
def lockName (t v : Nat) : Option (Nat × Nat) :=
  if 2048 ≤ v then none
  else if v < 1024 then (if v < 256 then some (cluPage (cluOf t) 3, v) else none)
  else some (rgnPage (rgnOf t) 3, v - 1024)

/-- The key of a lock: its page × 1,024 + its number. -/
def lockKey (pg l : Nat) : Nat := pg * 1024 + l

/-- A lock. -/
def State.lock (s : State) (k : Nat) : Lock := tGet (fun _ => Lock.free) s.locks k

/-- Replace a lock. -/
def State.putLock (s : State) (k : Nat) (l : Lock) : State := { s with locks := tSet (fun _ => Lock.free) s.locks k l }

/-- The region Escrow pages: their abandonments are not counted (KL-11). -/
def isRgnEsc (pg : Nat) : Bool := decide (pg / 16 % 16 = 15)

/-- Write the abandonment log at NEXT (R172, R173), raise ABANDON, and record the error as class 0 (R169). -/
def State.logAbandon (s : State) (pg l owner reason : Nat) : State :=
  let p := ra pg 0x10C
  let n := s.rf p 3 0
  let e := ra pg (0x200 + 8 * n)
  let w := 2 ^ 31 + reason * 2 ^ 28 + owner * 2 ^ 14 + l
  let s := if s.rb e 31 then (s.bumpF p 31 16 1).raise pg 9 else s
  let s := ((s.hwMark e (maskOf 31 31)).setReg e (nw w)).setReg (e + 4) (nw s.tb)
  let s := (s.setRf p 3 0 ((n + 1) % 16)).raise pg 8
  if isRgnEsc pg then s.errHold pg 0 8 w 0 else s.err pg 0 8 w 0

/-- The stall counter of a context's cluster is reset where lock `k` is a region lock (R179). -/
def State.rgnActive (s : State) (k t : Nat) : State := if isRgnEsc (k / 1024) then s.active (cluOf t) else s

/-- A queued acq of lock `k` is granted: LK.r is readable in the first slot after the wake (R164). -/
def State.grant (s : State) (k t res : Nat) : State := ((s.modTh t fun x => x.deliver 0x0F0 (nw res)).wake t).rgnActive k t

/-- Set event `e` in every context of a list. -/
def State.wakeArmed (s : State) (l : List Nat) (e : Nat) : State := l.foldl (fun s t => s.latch t e) s

/-- A held lock is given up: handed to the oldest waiter, or left free, which wakes the armed contexts; `ab` marks it
abandoned (R165, R168). -/
def State.giveUp (s : State) (k : Nat) (ab : Bool) : State :=
  let l := s.lock k
  let mark := ab || l.abandoned
  match l.waiters with
  | w :: r => (s.putLock k { l with owner := ownerOf w, waiters := r, abandoned := false }).grant k w (if mark then 2 else 0)
  | [] =>
    l.armed.foldl (fun s t => s.rgnActive k t) ((s.putLock k { l with held := false, abandoned := mark, armed := [] }).wakeArmed l.armed 14)

/-- The context enters a waiting state. -/
def State.waitIn (s : State) (t : Nat) (st : TState) (obj : Nat) : State := s.modTh t fun y => { y with st := st, waitObj := nw obj }

/-- Add a result that is readable `l` slots after the slot of core cycle `c`. -/
def Thread.result (x : Thread) (c l k : Nat) (v : Word) : Thread :=
  { x with pend := x.pend ++ [{ at_ := c + 8 * l, sock := k, value := v }] }

/-- A result that socket `k` would have received in core cycle `c` is not on its way. -/
def Thread.unresult (x : Thread) (c k : Nat) : Thread := { x with pend := x.pend.filter fun p => !decide (p.at_ = c ∧ p.sock = k) }

/-- Take a free lock for an owner: the result of acq or try (R163, R164). -/
def State.takeLock (s : State) (k : Nat) (owner : OwnerId) : Nat × State :=
  let l := s.lock k
  (if l.abandoned then 2 else 0, s.putLock k { l with held := true, owner := owner, abandoned := false })

/-- The slots after which LK.r is readable: 2 for a cluster lock, 4 for a region lock (R164). -/
def lockLat (k : Nat) : Nat := if isRgnEsc (k / 1024) then 4 else 2

/-- The value of LK.t [10:0] that names a lock (R147, R163). -/
def lockObj (k : Nat) : Nat := k % 1024 + if isRgnEsc (k / 1024) then 1024 else 0

/-- An acq, try or arm acts on the lock as it stands (R163). -/
def State.lockAct (s : State) (k c : Nat) (o : LockOp) : State :=
  let l := s.lock k
  match o.kind with
  | 0 =>
    if l.held then ((s.putLock k { l with waiters := l.waiters ++ [o.thread] }).waitIn o.thread .waitLock (lockObj k)).modTh o.thread
      fun y => { y with waitAt := some o.back }
    else let r := s.takeLock k (ownerOf o.thread); r.2.modTh o.thread fun y => y.result c (lockLat k) 0x0F0 (nw r.1)
  | 1 =>
    if l.held then s.modTh o.thread fun y => y.result c (lockLat k) 0x0F0 (nw (l.owner.toNat * 2 ^ 16 + 1))
    else let r := s.takeLock k (ownerOf o.thread); r.2.modTh o.thread fun y => y.result c (lockLat k) 0x0F0 (nw r.1)
  | 2 => if l.held then s.putLock k { l with armed := l.armed ++ [o.thread] } else s.latch o.thread 14
  | _ => if l.held then s.giveUp k false else s

/-- The releases of free locks among operations of one cycle that act on a lock held or not, with `w` waiters: releases come first, and each
gives the lock to a waiter or leaves it free (R165, R166). -/
def relsFree (held : Bool) (w : Nat) (ops : List LockOp) : Nat := (ops.filter fun o => decide (o.kind = 3)).length - (if held then w + 1 else 0)

/-- What an acq, try or arm did to its context is taken back, before the operations of its cycle act again in their order. What a release gave
stays: when they act again it gives at least as much. -/
def State.lockUndo (s : State) (k c : Nat) (o : LockOp) : State :=
  s.modTh o.thread fun y =>
    let y := y.unresult (c + 8 * lockLat k) 0x0F0
    match o.kind with
    | 0 => if y.st = .waitLock then { y with st := .running, waitObj := 0, waitAt := none } else y
    | 2 => if o.ev then y else { y with ev := y.ev &&& ~~~ (BitVec.ofNat 16 (2 ^ 14)) }
    | _ => y

/-- The operations of core cycle `c` on a lock, if there are any. -/
def Lock.ops (l : Lock) (c : Nat) : List LockOp :=
  match l.turn with
  | some u => if u.cyc = c then u.ops else []
  | none => []

/-- The lock as it stands before the operations of a cycle. -/
def Lock.turnOf (l : Lock) (c : Nat) (ops : List LockOp) : LockTurn :=
  { cyc := c, held := l.held, abandoned := l.abandoned, owner := l.owner, waiters := l.waiters, armed := l.armed, ops := ops }

/-- Take back the operations of core cycle `c` on a lock: the lock stands as before them. -/
def State.lockBack (s : State) (k c : Nat) : State :=
  let l := s.lock k
  match l.turn with
  | some u =>
    if u.cyc = c then
      (u.ops.foldl (fun s o => s.lockUndo k c o) s).putLock k
        { held := u.held, abandoned := u.abandoned, owner := u.owner, waiters := u.waiters, armed := u.armed, turn := none }
    else s
  | none => s

/-- Operations of core cycle `c` act, in order, on a lock on which none of that cycle has acted. -/
def State.lockTurn (s : State) (k c : Nat) (ops : List LockOp) : State :=
  let u := (s.lock k).turnOf c ops
  let s := ops.foldl (fun s o => s.lockAct k c o) s
  if ops = [] then s else s.putLock k { s.lock k with turn := some u }

/-- The place of a lock operation in its cycle: releases first, then the rotating order over the cluster's cores, or over the region's for a
region lock (R166). -/
def lockRank (k c : Nat) (o : LockOp) : Nat :=
  if o.kind = 3 then 0 else 1 + rotRank (if isRgnEsc (k / 1024) then 32 else 8) (o.thread / 8) c

/-- What `f` does to a lock as it stands before the operations of core cycle `c`, which then act, as `g` orders them: the releases that find the
lock free are counted (R165). -/
def State.lockCycle (s : State) (k c : Nat) (f : State → State) (g : List LockOp → List LockOp) : State :=
  let ops := (s.lock k).ops c
  let s1 := s.lockBack k c
  let was := relsFree (s1.lock k).held (s1.lock k).waiters.length ops
  let s2 := f s1
  let now := relsFree (s2.lock k).held (s2.lock k).waiters.length (g ops)
  let s3 := s2.lockTurn k c (g ops)
  if now = was then s3 else s3.bumpF (ra (k / 1024) 0x110) 15 0 (now - was)

/-- An acq, try, arm or release of core cycle `c`: it acts after those of its cycle that come before it, and before the others, which then act
again (R166). -/
def State.lockOp (s : State) (k c : Nat) (o : LockOp) : State := s.lockCycle k c (fun s => s) fun ops => rotInsert (lockRank k c) ops o

/-- An abandonment in the current core cycle acts before the releases, acqs, tries and arms of that cycle (R166). -/
def State.lockFirst (s : State) (k : Nat) (f : State → State) : State := s.lockCycle k s.cyc f fun ops => ops

/-- Release a held lock as abandoned with a reason (R168, R172). -/
def State.abandon (s : State) (pg l reason : Nat) : State :=
  let k := lockKey pg l
  s.lockFirst k fun s =>
    let x := s.lock k
    if x.held then (s.logAbandon pg l x.owner.toNat reason).giveUp k true else s

/-- A lock was held by an owner that `p` selects before the operations of core cycle `c`. -/
def Lock.heldBefore (l : Lock) (c : Nat) (p : OwnerId → Bool) : Bool :=
  match l.turn with
  | some u => if u.cyc = c then u.held && p u.owner else l.held && p l.owner
  | none => l.held && p l.owner

/-- Every lock held by the owners that `p` selects is released as abandoned; also one that they have released in this core cycle, for an
abandonment comes first (R166). Several locks of one reset go by page and lock number: DESIGN CHOICE (log entry 214). -/
def State.abandonAll (s : State) (p : OwnerId → Bool) (reason : Nat) : State :=
  (s.locks.filter fun e => e.2.heldBefore s.cyc p || (e.2.held && p e.2.owner)).foldl (fun s e =>
    let s := if e.2.heldBefore s.cyc p then s else s.putLock e.1 { s.lock e.1 with turn := none }
    s.abandon (e.1 / 1024) (e.1 % 1024) reason) s

/-- A context leaves a lock's queue, and with `arm` its armed list. The operations of the cycle still act in their order, but where one of the
context took the lock. -/
def Lock.leave (t : Nat) (arm : Bool) (l : Lock) : Lock :=
  let out (a : List Nat) := a.filter (· ≠ t)
  let off (a : List Nat) := if arm then out a else a
  { l with waiters := out l.waiters, armed := off l.armed,
           turn := l.turn.bind fun u =>
             if l.held ∧ l.owner = ownerOf t ∧ u.ops.any fun o => decide (o.thread = t ∧ o.kind < 2) then none
             else some { u with waiters := out u.waiters, armed := off u.armed,
                                ops := u.ops.filter fun o => decide (o.thread ≠ t ∨ o.kind = 3) || (decide (o.kind = 2) && !arm) } }

/-- The locks with one of their contexts gone. -/
def State.mapLocks (s : State) (f : Lock → Lock) : State :=
  { s with locks := s.locks.filterMap fun e => if f e.2 = Lock.free then none else some (e.1, f e.2) }

/-- A context leaves every lock queue and armed list. -/
def State.leaveLocks (s : State) (t : Nat) : State := s.mapLocks (Lock.leave t true)

/-! ## Channels -/

/-- A channel of a cluster. -/
def State.chan (s : State) (c n : Nat) : Chan := tGet (fun _ => Chan.empty) s.chans (c * 32 + n)

/-- Replace a channel. -/
def State.putChan (s : State) (c n : Nat) (x : Chan) : State :=
  { s with chans := tSet (fun _ => Chan.empty) s.chans (c * 32 + n) x }

/-- The CH.s word of a receive (R176), keeping SEND_REJECT. -/
def chStat (old : Word) (n : Nat) (m : Msg) : Word :=
  nw (b2n (bit old 31) * 2 ^ 31 + m.sender.toNat * 2 ^ 16 + n * 256 + m.words.length)

/-- A message's words in CH.r0 to CH.r7, the words beyond it 0, and CH.s (R176). -/
def Thread.takeMsg (x : Thread) (n : Nat) (m : Msg) : Thread :=
  let x := (List.range 8).foldl (fun x i => x.deliver (0x100 + i) (m.words.getD i 0)) x
  x.deliver 0x108 (chStat (x.latest 0x108) n m)

/-- Append a message, or hand it to the oldest queued receiver; armed contexts wake (R175, R177). -/
def State.deliver (s : State) (c n : Nat) (m : Msg) : State :=
  let ch := s.chan c n
  match ch.recvq with
  | r :: q => ((s.putChan c n { ch with recvq := q }).modTh r fun x => x.takeMsg n m).wake r
  | [] => (s.putChan c n { ch with msgs := ch.msgs ++ [m], armed := [] }).wakeArmed ch.armed 15

/-- After a message left the FIFO, the oldest queued sender's message is appended, and the sender wakes (R175, R177). The message is
readable 8 core cycles after it is appended: R175 counts from the seal and does not say what holds for a message that queued. DESIGN
CHOICE (log entry 180). -/
def State.admitSender (s : State) (c n : Nat) : State :=
  let ch := s.chan c n
  match ch.sendq with
  | (t, m) :: q =>
    if ch.msgs.length < 4 then
      ((s.putChan c n { ch with sendq := q }).deliver c n { m with at_ := s.cyc + 8 }).wake t
    else s
  | [] => s

/-- A seal acts on the channel as it stands: the message is handed over, appended or queued, or a try-send is rejected (R175, R177). -/
def State.sealAct (s : State) (c n cyc : Nat) (o : SealOp) : State :=
  let ch := s.chan c n
  let rej (s : State) (b : Bool) : State := s.modTh o.thread fun y => y.result cyc 2 0x108 (setBit (y.latest 0x108) 31 b)
  if ch.msgs.length < 4 then
    let s := s.deliver c n o.msg
    if o.try_ then rej s false else s
  else if o.try_ then rej s true
  else
    ((s.putChan c n { ch with sendq := ch.sendq ++ [(o.thread, o.msg)] }).waitIn o.thread .waitChan (n + 32)).modTh o.thread
      fun y => { y with waitAt := some o.back }

/-- The wait of a queued sender is taken back, before the seals of its cycle act again in their order. -/
def State.sealUndo (s : State) (o : SealOp) : State :=
  s.modTh o.thread fun y => if y.st = .waitChan then { y with st := .running, waitObj := 0, waitAt := none } else y

/-- The seals of core cycle `cyc` on a channel, if there are any. -/
def Chan.ops (x : Chan) (cyc : Nat) : List SealOp :=
  match x.turn with
  | some u => if u.cyc = cyc then u.ops else []
  | none => []

/-- Take back the seals of core cycle `cyc` on a channel. What a receiver has been given is overwritten when they act again, and the armed
contexts stay woken: a seal more of the cycle leaves no receiver without a message. -/
def State.sealBack (s : State) (c n cyc : Nat) : State :=
  let x := s.chan c n
  match x.turn with
  | some u =>
    if u.cyc = cyc then
      (u.ops.foldl (fun s o => s.sealUndo o) s).putChan c n
        { msgs := u.msgs, recvq := u.recvq, sendq := u.sendq, armed := x.armed, turn := none }
    else s
  | none => s

/-- A seal of core cycle `cyc`: the seals of one channel in one core cycle act in the rotating order over the cluster's cores (R177). -/
def State.sealOp (s : State) (c n cyc : Nat) (o : SealOp) : State :=
  let ops := rotInsert (fun e : SealOp => rotRank 8 (e.thread / 8) cyc) ((s.chan c n).ops cyc) o
  let s := s.sealBack c n cyc
  let x := s.chan c n
  let u : ChanTurn := { cyc := cyc, msgs := x.msgs, recvq := x.recvq, sendq := x.sendq, ops := ops }
  let s := ops.foldl (fun s o => s.sealAct c n cyc o) s
  s.putChan c n { s.chan c n with turn := some u }

/-- A context leaves a channel's queues, and with `arm` its armed list. The seals of the cycle still act in their order, but where one of the
context was taken, or gave it a message. -/
def Chan.leave (t : Nat) (arm : Bool) (x : Chan) : Chan :=
  let out (a : List Nat) := a.filter (· ≠ t)
  let cut (a : List (Nat × Msg)) := a.filter (·.1 ≠ t)
  { x with recvq := out x.recvq, sendq := cut x.sendq, armed := if arm then out x.armed else x.armed,
           turn := x.turn.bind fun u =>
             if (u.recvq.contains t && !x.recvq.contains t) || u.ops.any (fun o => decide (o.thread = t) && !x.sendq.any fun q => decide (q.1 = t)) then none
             else some { u with recvq := out u.recvq, sendq := cut u.sendq, ops := u.ops.filter fun o => decide (o.thread ≠ t) } }

/-- The channels with one of their contexts gone. -/
def State.mapChans (s : State) (f : Chan → Chan) : State :=
  { s with chans := s.chans.filterMap fun e => if f e.2 = Chan.empty then none else some (e.1, f e.2) }

/-- A context leaves every channel queue; a queued message of its is not appended (R178). -/
def State.leaveChans (s : State) (t : Nat) : State := s.mapChans (Chan.leave t true)

/-- A context leaves the queue in which it waits: its wait for a lock, a message or room ends without one (R180, R224). -/
def State.leaveWait (s : State) (t : Nat) : State :=
  (s.mapLocks fun l => if l.waiters.contains t then l.leave t false else l).mapChans fun x =>
    if x.recvq.contains t ∨ x.sendq.any (fun q => decide (q.1 = t)) then x.leave t false else x

end Sys2Proof.Machine
end

