-- ==== Sys2Proof/Machine/CmemPort.lean ====
section
/-! DEFINITION. Scoreboard bits, and the two ports of CMEM (R63 to R65, R131 to R133, R232, R235 to R237): the accesses of threads on the A
port, those of fill mode, the host window and the coprocessors on the B port; the fetch and the end of a coprocessor's command (R188 to
R192, R203). -/

namespace Sys2Proof.Machine

/-- A context is to trap in its first slot at or after core cycle `c`. -/
def Thread.trapAt (x : Thread) (c cause detail : Nat) : Thread :=
  { x with lateTrap := x.lateTrap ++ [{ at_ := c, cause := cause, detail := detail }] }

/-- Set scoreboard bit `b` of a context whose operation has completed; a WAIT_SB whose mask is now set ends (R69, R137). Where a bit of the
mask is poisoned, the wait traps DM_UE in the slot in which the context would issue again, at the address of the word that waits (R141; log
entry 33). -/
def State.sbDone (s : State) (t b : Nat) (pois : Bool) : State :=
  let m : BitVec 16 := BitVec.ofNat 16 (2 ^ b)
  let s := s.modTh t fun x => { x with sb := x.sb ||| m, sbOwned := x.sbOwned &&& ~~~ m,
                                       sbPois := if pois then x.sbPois ||| m else x.sbPois }
  let x := s.th t
  if x.st = .waitSb ∧ x.sb &&& x.mask = x.mask then
    let s := (s.modTh t fun x => { x with mask := 0 }).wake t
    match lowBit? 16 (x.mask.toNat &&& x.sbPois.toNat) with
    | none => s
    | some i => s.modTh t fun y => { y.trapAt y.nextCyc 0x0F i with pc := (x.waitAt.map (·.1)).getD y.pc, rep := (x.waitAt.map (·.2)).getD y.rep }
  else s

/-- An operation that names bit `b` issues: the bit is clear, owned, and no longer poisoned (R137, R141). -/
def Thread.sbStart (x : Thread) (b : Nat) : Thread :=
  let m : BitVec 16 := BitVec.ofNat 16 (2 ^ b)
  { x with sb := x.sb &&& ~~~ m, sbOwned := x.sbOwned ||| m, sbPois := x.sbPois &&& ~~~ m }

/-! ## The ports of CMEM (R63 to R65, R131 to R133, R235, R237) -/

/-- The size of an LS access (R131). -/
def lsSize (x : Nat) : Nat := match x with | 0 => 4 | 1 => 1 | 2 => 1 | 3 => 2 | 4 => 2 | 5 => 4 | 6 => 1 | _ => 2

/-- Zeroization runs (SEC_STAT.ZEROIZING, R235). -/
def State.zeroizing (s : State) : Bool := s.rb (ra (mPage 4) 0x100) 31

/-- The accesses of the A port whose cycles may be to come, with one more. -/
def State.lsLog (s : State) (a : LsAcc) : State := s.setClu (cluOf a.thread) fun k => { k with acc := rotInsert (·.g) k.acc a }

/-- An LS access is performed on the A port (R131 to R133, R235, R237): a UE stops a load with 0 and a narrow store unperformed, and traps
LS_UE in slot k + 2. An error is recorded once, however often the access is performed. -/
def State.lsDo (s : State) (a : LsAcc) : State :=
  let cl := cluOf a.thread
  let n := lsSize a.x
  let ue := if a.logged then s else s.cmemUe cl a.addr
  let hide := s.zeroizing && inKeyArea a.addr
  if a.x < 5 then
    if hide then (s.modTh a.thread fun y => y.result a.at_ 2 0x0A0 0).lsLog a
    else
      let r := s.cmemRead cl a.addr n
      if r.2.1 = 2 then (ue.modTh a.thread fun y => (y.result a.at_ 2 0x0A0 0).trapAt (a.at_ + 16) 0x0B 0).lsLog { a with logged := true }
      else
        let u := leNat r.1
        let w := if a.x = 2 then iw (toSigned 8 u) else if a.x = 4 then iw (toSigned 16 u) else nw u
        ((if a.logged then s else r.2.2).modTh a.thread fun y => y.result a.at_ 2 0x0A0 w).lsLog { a with logged := a.logged || decide (r.2.1 = 1) }
  else if hide then s.lsLog a
  else if s.cmemMergeOk cl a.addr n then
    let w := cmemAt cl a.addr / 8
    (s.cmemPut cl a.addr (leBytes n a.data.toNat)).lsLog
      { a with done := true, old := s.cmem.cut w (w + 1) }
  else (ue.modTh a.thread fun y => y.trapAt (a.at_ + 16) 0x0B 0).lsLog { a with logged := true }

/-- What an access of the A port did is taken back, before accesses of earlier cycles are performed: its word stands as before, its result is
not on its way. -/
def State.lsUndo (s : State) (a : LsAcc) : State :=
  let cl := cluOf a.thread
  let s := s.setClu cl fun k => { k with acc := k.acc.filter fun e => !decide (e = a) }
  let w := cmemAt cl a.addr / 8
  let s := if a.done then { s with cmem := s.cmem.paste w (w + 1) a.old } else s
  s.modTh a.thread fun y =>
    { (if a.x < 5 then y.unresult (a.at_ + 16) 0x0A0 else y) with
      lateTrap := y.lateTrap.filter fun e => !decide (e.at_ = a.at_ + 16 ∧ e.cause = 0x0B) }

/-- Whether an A-port store of core cycle `at_` wrote a word that `n` bytes at `o` touch (R65, R203). -/
def Cluster.collides (k : Cluster) (at_ o n : Nat) : Bool :=
  k.acc.any fun e => e.done && decide (e.g = at_ ∧ o / 8 ≤ e.addr / 8 ∧ e.addr / 8 < (o + n + 7) / 8)

/-- The bytes that the B port stores in core cycle `n`: a word that an A-port store of that cycle wrote keeps its own (R65). -/
def State.bKeep (s : State) (c n o : Nat) (b : List Byte) : List Byte :=
  let k := s.clu? c
  let old := s.cmem.read arrCmem (cmemAt c o) b.length
  if k.collides n o b.length then (List.range b.length).map fun i => if k.collides n (o + i) 1 then old.getD i 0 else b.getD i 0 else b

/-- The bytes at `o`, cut at the multiples of 8: each piece with its address; the fuel is the number of words. -/
def byWords : Nat → Nat → List Byte → List (Nat × List Byte)
  | 0, _, _ => []
  | k + 1, o, b =>
    let n := 8 - o % 8
    if b = [] then [] else (o, b.take n) :: byWords k (o + n) (b.drop n)

/-- A store of a coprocessor into CMEM. R237 speaks of LS stores: a word written in part that does not decode keeps its contents here as
there, STATUS among them, and the other words are stored. DESIGN CHOICE (log entry 184). -/
def State.copStore (s : State) (c o : Nat) (b : List Byte) : State :=
  if s.cmemMergeOk c o b.length then s.cmemPut c o b
  else (byWords (b.length / 8 + 2) o b).foldl (fun s e => if s.cmemMergeOk c e.1 e.2.length then s.cmemPut c e.1 e.2 else s) s

/-- A B-port store of a master loses a word to an A-port store of its core cycle. -/
def BAcc.lost (a : BAcc) (k : Cluster) : Bool :=
  (a.parts.any fun p => k.collides a.g p.1 p.2.length) || a.stat.any fun o => k.collides a.g o 4

/-- The status word of a command, with COLLIDED where a word of its is lost (R203). -/
def BAcc.status (a : BAcc) (lost : Bool) : Nat := if lost && !a.code.testBit 23 then a.code + 2 ^ 23 else a.code

/-- What a master of the B port stores is stored, but for the words that A-port stores of its core cycle wrote (R65): a coprocessor that loses
one has COLLIDED in its status (R203), and so has CMEM_FILL_CTRL (R236). -/
def State.bDo (s : State) (c : Nat) (a : BAcc) : State :=
  let lost := a.lost (s.clu? c)
  let word := a.status lost
  let all := a.parts ++ (a.stat.map fun o => (o, leBytes 4 word)).toList
  let saved := all.map fun p =>
    let lo := cmemAt c p.1 / 8
    let hi := (cmemAt c p.1 + p.2.length + 7) / 8
    (lo, hi, s.cmem.cut lo hi)
  let s := all.foldl (fun s p => let b := s.bKeep c a.g p.1 p.2; if a.merge then s.copStore c p.1 b else s.cmemPut c p.1 b) s
  let s := match a.thread with
    | some t => s.modTh t fun x => x.deliver (0x300 + 16 * a.who) (nw word)
    | none => s
  let s := if lost ∧ a.who = 4 then s.hwSet (ra (cluPage c 1) 0x110) 30 else s
  s.setClu c fun k => { k with bacc := rotInsert (·.g) k.bacc { a with saved := saved } }

/-- What a store of the B port wrote is taken back, before accesses of earlier cycles are performed. -/
def State.bUndo (s : State) (c : Nat) (a : BAcc) : State :=
  let s := s.setClu c fun k => { k with bacc := k.bacc.filter fun e => !decide (e = a) }
  { s with cmem := a.saved.foldl (fun m e => m.paste e.1 e.2.1 e.2.2) s.cmem }

/-- The accesses of both ports in their order, those of the A port in core cycle `n` and later and those of the B port in `m` and later: in one
cycle the A port comes first (R65). -/
def Cluster.after (k : Cluster) (n m : Nat) : List (LsAcc ⊕ BAcc) :=
  let key (e : LsAcc ⊕ BAcc) : Nat := match e with
    | .inl a => 2 * a.g
    | .inr b => 2 * b.g + 1
  (k.bacc.filter fun b => decide (m ≤ b.g)).foldl (fun l b => rotInsert key l (.inr b)) ((k.acc.filter fun a => decide (n ≤ a.g)).map .inl)

/-- An access of either port is taken back, or performed again. -/
def State.portUndo (s : State) (c : Nat) (e : LsAcc ⊕ BAcc) : State := match e with
  | .inl a => s.lsUndo a
  | .inr b => s.bUndo c b
def State.portRedo (s : State) (c : Nat) (e : LsAcc ⊕ BAcc) : State := match e with
  | .inl a => s.lsDo { a with done := false, old := Arr.empty }
  | .inr b => s.bDo c b

/-- A cluster's CMEM before the accesses of the A port in core cycle `n` and later and those of the B port in `m` and later. -/
def State.portBack (s : State) (c n m : Nat) : State := ((s.clu? c).after n m).reverse.foldl (fun s e => s.portUndo c e) s

/-- What `f` does on a port of a cluster's CMEM comes before the accesses of the A port in core cycle `n` and later and those of the B port in
`m` and later, which commands have performed already: they are taken back, and performed again after it. -/
def State.atPort (s : State) (c n m : Nat) (f : State → State) : State :=
  ((s.clu? c).after n m).foldl (fun s e => s.portRedo c e) (f (s.portBack c n m))

/-- A read of the B port in core cycle `n`: a store of that cycle or a later one is not seen (R65, R188), but the B port's own of cycle `n` where
`m` is above it. -/
def State.bRead (s : State) (c n m o len : Nat) : List Byte × Nat × State :=
  let v := (s.portBack c n m).cmemRead c o len
  (v.1, v.2.1, s.atPort c n n fun s => (s.cmemRead c o len).2.2)

/-! ## Commands of the coprocessors -/

/-- A coprocessor of a cluster. -/
def State.cop (s : State) (c n : Nat) : Cop := tGet (fun _ => Cop.idle) s.cops (c * 4 + n)

/-- Replace a coprocessor. -/
def State.putCop (s : State) (c n : Nat) (x : Cop) : State := { s with cops := tSet (fun _ => Cop.idle) s.cops (c * 4 + n) x }

/-- An operand: its pointer, its length, and whether it is marked (k) (R189). -/
structure CopArg where
  ptr : Nat
  len : Nat
  key : Bool
  deriving DecidableEq, Repr

/-- What a command computes: its code and count, what it writes to each destination (nothing where shorter), a key for the
Vault, the native state it leaves and whether that is present. -/
structure CopRes where
  code  : Nat
  count : Nat
  outs  : List (List Byte)
  vault : Option (Nat × List Byte)
  state : List Byte
  valid : Bool
  deriving DecidableEq, Repr

/-- A result that leaves the native state as it was. -/
def copRes (x : Cop) (code count : Nat) (outs : List (List Byte)) : CopRes :=
  { code := code, count := count, outs := outs, vault := none, state := x.state, valid := x.valid }

/-- Word `i` of a command block (R187). -/
def blkWord (b : List Byte) (i : Nat) : Nat := leAt b (4 * i) 4

/-- OPC, VAR, SL, LENi, PTRi and PARAMi of a block. -/
def blkOpc (b : List Byte) : Nat := blkWord b 0 % 256
def blkVar (b : List Byte) : Nat := blkWord b 0 / 256 % 256
def blkSl (b : List Byte) : Bool := (blkWord b 0).testBit 16
def blkLen (b : List Byte) (i : Nat) : Nat := blkWord b (2 + i)
def blkPtr (b : List Byte) (i : Nat) : Nat := blkWord b (4 + i)
def blkParam (b : List Byte) (i : Nat) : Nat := blkWord b (10 + i)

/-- The command at the head of the queue, when the coprocessor is idle. -/
def Cop.head? (x : Cop) : Option CopCmd := if x.run.isNone then x.queue.head? else none

/-- The core cycle in which the head is fetched: when it has arrived and the previous command has set its bit (R192). -/
def Cop.fetchAt (x : Cop) (k : CopCmd) : Nat := max k.at_ x.freeAt

/-- SL of a command, or FORCE_SL (R197, R211). -/
def State.stateless (s : State) (c n : Nat) (b : List Byte) : Bool := blkSl b || s.rb (ra (cluPage c 4) 0x110) n

/-- A command leaves the queue and runs, with the result it will have: its bit is due 32 core cycles and its count after the fetch. -/
def State.copBegin (s : State) (c n : Nat) (k : CopCmd) (opc : Nat) (sl : Bool) (r : CopRes) (dests : List CopArg) : State :=
  let x := s.cop c n
  let at_ := x.fetchAt k
  let outs := List.zipWith (fun (d : CopArg) b => (d.ptr, b)) dests r.outs
  let run : CopRun :=
    { cmd := k, opc := opc, code := r.code, count := r.count, writes := outs.filter fun e => e.2 ≠ [], vault := r.vault,
      state := if sl then [] else r.state, valid := !sl && r.valid, due := at_ + r.count + 32 }
  s.putCop c n { x with queue := x.queue.drop 1, run := some run, owner := ownerOf k.thread, lastOpc := opc }

/-- The block of a command as its fetch reads it: a store in the cycle of the fetch or a later one is not seen (R188). Where a word
of the block has an uncorrectable error the command runs on the bytes as they are read, and nothing is logged: R203 speaks of operands only.
DESIGN CHOICE (log entry 194). -/
def State.copBlock (s : State) (c n : Nat) (k : CopCmd) : List Byte × State :=
  let at_ := (s.cop c n).fetchAt k
  let r := s.bRead c at_ at_ k.ptr 64
  (r.1, r.2.2)

/-- The head of a queue when it is a save or a restore (`kind` 1 or 2), with the time of its fetch. -/
def State.copHead (s : State) (c n kind : Nat) : Option (CopCmd × State) :=
  match (s.cop c n).head? with
  | some k => if k.kind = kind then some (k, s.upToCyc ((s.cop c n).fetchAt k)) else none
  | none => none

/-- The opcodes of each coprocessor (R204, R205, R207, R209). -/
def copOpcodes (n : Nat) : List Nat :=
  match n with
  | 0 => [0x01, 0x02, 0x03, 0x04, 0x05, 0x10, 0x11, 0x12, 0x20]
  | 1 => [0x01, 0x02, 0x03, 0x04, 0x05, 0x06]
  | 2 => [0x01, 0x02, 0x10, 0x11, 0x12, 0x13]
  | _ => [0x01, 0x02, 0x03, 0x04, 0x05, 0x06]

/-- A block whose opcode the coprocessor does not have is fetched and will end with BAD_OPCODE (R190). -/
def State.copUnknown (s : State) (c n : Nat) : State :=
  match s.copHead c n 0 with
  | none => s
  | some (k, s') =>
    let r := s'.copBlock c n k
    let b := r.1
    let s' := r.2
    if (copOpcodes n).contains (blkOpc b) then s
    else s'.copBegin c n k (blkOpc b) (s'.stateless c n b) (copRes (s'.cop c n) 2 0 []) []

/-- A command of unknown opcode whose fetch is due has been fetched (R188, R200). -/
def State.copPull (s : State) (c n : Nat) : State :=
  let x := s.cop c n
  if x.head?.any fun k => decide (x.fetchAt k ≤ s.cyc) then s.copUnknown c n else s
def State.copsPull (s : State) (c : Nat) : State := [0, 1, 2, 3].foldl (fun s n => s.copPull c n) s

/-- A store of the B port, in its place among the accesses of both ports. -/
def State.bPut (s : State) (c : Nat) (a : BAcc) : State := (s.copsPull c).atPort c (a.g + 1) (a.g + 1) fun s => s.bDo c a

/-- The `n` bytes of an 8-byte pattern repeated. -/
def patBytes (pat n : Nat) : List Byte := (List.range n).map fun i => BitVec.ofNat 8 (pat / 256 ^ (i % 8))

/-- The pieces `i` to below `j` of a fill, stored in core cycle `g`. -/
def CmemFill.put (f : CmemFill) (i j g : Nat) : BAcc :=
  { g := g, who := 4, parts := [(f.addr + 128 * i, patBytes f.pat (min f.len (128 * j) - 128 * i))], merge := false, code := 0, stat := none,
    thread := none, saved := [] }

/-- The core cycle in which a fill writes its last piece. -/
def CmemFill.last (f : CmemFill) : Nat := f.start + (f.len + 127) / 128

/-- A fill that runs has written the pieces whose cycles lie up to core cycle `n` (R236): piece `i` of 128 bytes in cycle `start` + 1 + `i`. The
cycles that coprocessors take are not given: DEDUCED (log entry 211). Those before now that no A-port access of the fill's time meets are
stored at one stroke. -/
def State.fillTo (s : State) (c n : Nat) : State :=
  match (s.clu? c).fill with
  | none => s
  | some f =>
    let total := (f.len + 127) / 128
    let upto := min total (n - f.start)
    let old := if (s.clu? c).acc.any fun a => decide (f.start < a.g) then f.done else max f.done (min total (s.cyc - 1 - f.start))
    if upto ≤ f.done then s
    else
      let s := if f.done < old then s.bPut c (f.put f.done old (s.cyc - 1)) else s
      let s := (List.range (upto - old)).foldl (fun s i => s.bPut c (f.put (old + i) (old + i + 1) (f.start + 1 + old + i))) s
      s.setClu c fun k => { k with fill := some { f with done := max upto old } }

/-- The running command of a coprocessor ends with a status word in core cycle `at_`: its results are stored, STATUS and CPn.st hold the word,
the bit is set, the command is counted (R190 to R192, R203, R211). A command whose thread has ended tells no thread (R191). -/
def State.copEnd (s : State) (c n : Nat) (r : CopRun) (parts : List (Nat × List Byte)) (status at_ : Nat) : State :=
  let k := r.cmd
  let s := s.bPut c { g := at_, who := n, parts := parts, merge := true, code := status, stat := if k.kind = 0 then some (k.ptr + 4) else none,
                      thread := if k.gone then none else some k.thread, saved := [] }
  let s := if k.gone then s else s.sbDone k.thread k.sb false
  let s := s.bump (ra (cluPage c 4) (0x120 + 4 * n))
  s.putCop c n { s.cop c n with run := none, freeAt := at_, lastOpc := r.opc, owner := ownerOf k.thread }

/-- The running command of a coprocessor completes (R190 to R192, R203, R210): its results are stored, its key reaches the Vault
unless zeroization refuses it, and the native state is what it leaves. -/
def State.copFinish (s : State) (c n : Nat) (r : CopRun) : State :=
  let refused := r.vault.isSome && s.rb (ra (mPage 4) 0x100) 31
  let s := match r.vault with
    | some (k, key) =>
      let vlt := pdPage (k / 2 ^ 19) 4
      if refused then s.bumpF (ra vlt 0x10C) 15 0 1 else (s.vltPut k key).bump (ra vlt 0x108)
    | none => s
  let s := s.copEnd c n r r.writes ((if refused then 0x0C else r.code) * 2 ^ 24 + min 0xFFFF (r.count / 16)) r.due
  s.putCop c n { s.cop c n with state := r.state, valid := r.valid }

end Sys2Proof.Machine
end

