-- ==== Sys2Proof/Machine/Threads.lean ====
section
/-! DEFINITION. Contexts of a core: traps (R148 to R150), the reset of a thread (R151 to R153) and the abort of its coprocessor commands
(R200). -/

namespace Sys2Proof.Machine

/-- Register `off` of the CORE page of a context. -/
def aCore (t off : Nat) : Nat := ra (corePage (t / 8)) off

/-- Whether the context's cluster is in packet mode. -/
def State.pkt (s : State) (t : Nat) : Bool := (s.clu? (cluOf t)).packet

/-! ## Coprocessor aborts -/

/-- `n` free bytes, from draw `i` on: what an aborted command left in a destination (R200). -/
def abortedBytes (i n : Nat) : List Byte := (List.range n).map fun j => Config.abortedByte (i + j)
def State.freeBytes (s : State) (n : Nat) : List Byte := abortedBytes s.draw n

/-- The destinations of an aborted command with free bytes, from draw `i` on. -/
def spoilDests : Nat → List (Nat × List Byte) → List (Nat × List Byte)
  | _, [] => []
  | i, (o, b) :: r => (o, abortedBytes i b.length) :: spoilDests (i + b.length) r

/-- Release the scoreboard bit of a command unowned and clear (R200), unless its thread has ended. -/
def State.sbFree (s : State) (k : CopCmd) : State :=
  if k.gone then s else s.modTh k.thread fun x => { x with sbOwned := x.sbOwned &&& ~~~ (BitVec.ofNat 16 (2 ^ k.sb)) }

/-- Record an abort in the CPX page (R200 step 6, R211). -/
def State.logAbort (s : State) (c n owner opc reason : Nat) : State :=
  let s := s.bumpF (ra (cluPage c 4) 0x114) 15 0 1
  s.setReg (ra (cluPage c 4) 0x118) (nw (n * 2 ^ 30 + owner * 2 ^ 16 + opc * 2 ^ 8 + reason))

/-- The lock of coprocessor `n` held by an owner is released as abandoned, reason CP_ABORT (R200 step 5). -/
def State.abandonCop (s : State) (c n : Nat) (o : OwnerId) : State :=
  let l := s.lock (lockKey (cluPage c 3) (248 + n))
  if l.held ∧ l.owner = o then s.abandon (cluPage c 3) (248 + n) 2 else s

/-- The opcode in the command block of a queued command. -/
def State.blockOpc (s : State) (c : Nat) (k : CopCmd) : Nat :=
  match k.kind with
  | 0 => (s.cmem.byte arrCmem (cmemAt c k.ptr)).toNat
  | _ => 0

/-- A command whose bit is due by now has completed before an abort that begins now (R201); one that has been fetched runs. -/
def State.copSettle (s : State) (c n : Nat) : State :=
  let s := s.copPull c n
  match (s.cop c n).run with
  | some r => if r.due ≤ s.cyc then s.copFinish c n r else s
  | none => s

/-- Abort the running command of a coprocessor (R200). The CYCLES of its STATUS are 0: R200 gives ABORTED alone. DESIGN CHOICE (log entry
185). -/
def State.abortRun (s : State) (c n reason : Nat) (r : CopRun) : State :=
  let s := s.bPut c { g := s.cyc, who := n, parts := spoilDests s.draw r.writes, merge := true, code := 0x0F000000,
                      stat := if r.cmd.kind = 0 then some (r.cmd.ptr + 4) else none, thread := none, saved := [] }
  let s := { s with draw := r.writes.foldl (fun n (p : Nat × List Byte) => n + p.2.length) s.draw }
  let s := (s.sbFree r.cmd).logAbort c n (2 * r.cmd.thread) r.opc reason
  (s.putCop c n { s.cop c n with run := none, state := [], valid := false, lastOpc := r.opc, freeAt := s.cyc }).abandonCop c n
    (ownerOf r.cmd.thread)

/-- Abort a queued command, which has left the queue (R200). The coprocessor clears its state at every abort; a command of another thread
that runs at that time leaves none either. DESIGN CHOICE (log entry 185). -/
def State.abortQueued (s : State) (c n reason : Nat) (k : CopCmd) : State :=
  let y := s.cop c n
  (((s.sbFree k).logAbort c n (2 * k.thread) (s.blockOpc c k) reason).putCop c n
    { y with state := [], valid := false, run := y.run.map fun r => { r with state := [], valid := false } }).abandonCop c n (ownerOf k.thread)

/-- Abort the commands of one coprocessor that `p` selects (R200). -/
def State.abortCop (s : State) (c n reason : Nat) (p : CopCmd → Bool) : State :=
  let s := s.copSettle c n
  let x := s.cop c n
  let qs := x.queue.filter p
  let s := s.putCop c n { x with queue := x.queue.filter fun k => !p k }
  let s := match x.run with
    | none => s
    | some r => if p r.cmd then s.abortRun c n reason r else s
  qs.foldl (fun s k => s.abortQueued c n reason k) s

/-- Abort every coprocessor command of a context: reason 0 trap, 1 thread reset (R200). -/
def State.abortAll (s : State) (t reason : Nat) : State :=
  [0, 1, 2, 3].foldl (fun s n => s.abortCop (cluOf t) n reason fun k => decide (k.thread = t) && !k.gone) s

/-! ## The reset of a thread -/

/-- The children of a context: those that were forked by it and have not been joined. -/
def State.kids (s : State) (t : Nat) : List Nat := tKeys (fun x => decide (x.parent = some t) && decide (x.st ≠ .idle)) s.thr

/-- When a parent ends, its EXITED children become FREE and its running children detached (R153 step 5, R158). -/
def State.orphan (s : State) (t : Nat) : State :=
  (s.kids t).foldl (fun s k =>
    if (s.th k).st = .exited then s.putTh k Thread.fresh
    else s.modTh k fun x => { x with detached := true, parent := none }) s

/-- A region's Teller. -/
def State.teller (s : State) (r : Nat) : Teller := tGet (fun _ => Teller.empty) s.tellers r

/-- Change a region's Teller. -/
def State.setTeller (s : State) (r : Nat) (f : Teller → Teller) : State :=
  { s with tellers := tUpd (fun _ => Teller.empty) s.tellers r f }

/-- A command of a thread that has ended, and such a coprocessor: it goes on and tells no thread. -/
def CopCmd.leave (t : Nat) (k : CopCmd) : CopCmd := if k.thread = t then { k with gone := true } else k
def Cop.leave (t : Nat) (x : Cop) : Cop :=
  { x with queue := x.queue.map (CopCmd.leave t), run := x.run.map fun r => { r with cmd := r.cmd.leave t } }

/-- A window store of a thread that has ended stays in its place, and sets no bit (R219). -/
def Stage.leave (t : Nat) (e : Stage) : Stage := { e with thread := e.thread.map fun q => if q.1 = t then (t, 16) else q }

/-- The cluster expects nothing more for a context: its LS loads still to be performed, its DM accesses, its window stores and its commands
complete into nothing. -/
def State.forget (s : State) (t : Nat) : State :=
  let s := if (s.teller (rgnOf t)).waiting = [] then s else s.setTeller (rgnOf t) fun k => { k with waiting := k.waiting.map (Stage.leave t) }
  let s := { s with cops := tMap (fun k (x : Cop) => if k / 4 = cluOf t then x.leave t else x) s.cops }
  s.setClu (cluOf t) fun k =>
    { k with acc := k.acc.filter fun a => decide (a.thread ≠ t ∨ 5 ≤ a.x), bacc := k.bacc.map fun (b : BAcc) => if b.thread = some t then { b with thread := none } else b,
             tbClaims := k.tbClaims.filter fun a => decide (a.thread ≠ t),
             dmHits := k.dmHits.filter fun h => decide (h.thread ≠ t ∨ h.store.isSome),
             turn := k.turn.map fun u => { u with ops := u.ops.map fun o => if o.thread = t then { o with sb := 16 } else o },
             maint := k.maint.map fun m => { m with arounds := m.arounds.filter fun e => decide (e.1 ≠ t) } }

/-- The sequence of R153: the thread leaves every queue, its coprocessor commands are aborted, its locks are released as
abandoned, its DM loads complete into nothing, its children become detached; the context is RESETTING. -/
def State.resetThread (s : State) (t copReason lockReason : Nat) : State :=
  let s := (((s.stallKeep (cluOf t)).leaveLocks t).leaveChans t).abortAll t copReason
  let s := s.abandonAll (fun o => o = ownerOf t) lockReason
  let s := s.orphan t
  (s.modTh t fun x => { x with st := .resetting, stopped := false, dm := [], tb := none, pend := [], rep := none, op := x.op.filter fun e => !decide (0x100 ≤ e.1 ∧ e.1 < 0x108),
                               timeout := none, mask := 0, waitObj := 0, waitAt := none, sbOwned := 0, saveReq := none,
                               lateTrap := [], ended := true }).forget t

/-- The TCB that is being restored into a context, which is therefore not FREE (R146, R225). -/
def State.restoring (s : State) (t : Nat) : Option Nat := tFind (s.teller (rgnOf t)).restore t

/-- Kill a context (R151, R152): a FREE context and one in RESETTING are left alone; a restore that is under way ends with its thread. -/
def State.killThread (s : State) (t : Nat) : State :=
  let x := s.th t
  match s.restoring t with
  | some n => ((s.setTeller (rgnOf t) fun k => { k with restore := tDel k.restore t }).putTh t { Thread.fresh with tcb := some n }).resetThread t 1 0
  | none => if x.st = .resetting ∨ (x.st = .idle ∧ !s.pkt t) then s else s.resetThread t 1 0

/-! ## Traps -/

/-- The trap slot of TH.cause: the slot within the span in packet mode, the thread slot within the round in task mode (R148). -/
def State.trapSlot (s : State) (t c : Nat) : Nat :=
  if s.pkt t then (c - (s.th t).t0) / 8 else c % 4096 / 8

/-- Record a trap in TH.cause and the CORE page, raise the cluster's TRAP event, and record it as an error (R148, R150, R538). -/
def State.logTrap (s : State) (t c cause detail pc : Nat) (double : Bool) : State :=
  let w := s.trapSlot t c * 2 ^ 16 + detail % 256 * 2 ^ 8 + cause
  let s := s.modTh t fun x => { x with cause := nw w }
  let s := s.setReg (aCore t (0x120 + 4 * (t % 8))) (setBit (nw w) 31 double)
  let s := s.setReg (aCore t (0x140 + 4 * (t % 8))) (nw (pc % 16384))
  let s := s.bumpF (aCore t 0x160) 15 0 1
  (s.err (corePage (t / 8)) 0 (0x100 + cause) w pc).raise (cluPage (cluOf t) 0) 8

/-- The record that a packet-mode context runs returns DROP with a cause; the first cause stays (R57, R70). -/
def State.markFlight (s : State) (t buf cause : Nat) : State :=
  { s with flights := s.flights.map fun f =>
      if f.thread = t ∧ f.buf = buf ∧ f.delivered ∧ f.returned.isNone ∧ f.cause = 0 then { f with cause := cause } else f }

/-- Count a trap of a packet-mode cluster in the round of cycle `c` (R71). -/
def State.countTrap (s : State) (t c : Nat) : State :=
  s.setClu (cluOf t) fun k =>
    if k.trapRound = c / 4096 then { k with traps := k.traps + 1 } else { k with trapRound := c / 4096, traps := 1 }

/-- Causes whose word took full effect, so that the resume address is the next word's (R149). -/
def wordTookEffect (cause : Nat) (runOff : Bool) : Bool :=
  decide (cause = 0x10 ∨ cause = 0x11 ∨ cause = 0x14) || (decide (cause = 0x13) && runOff)

/-- A trap of a context in core cycle `c` at program address `pc` (R70, R149, R150, R200). Where the word that traps has also entered a lock's
or a channel's queue, which takes effect with it (R119), the handler runs and the context stays in that queue; a grant or a message then
stands in the sockets. No rule says what becomes of the wait: DESIGN CHOICE (log entry 187). -/
def State.trap (s : State) (t c cause detail pc : Nat) (runOff : Bool) : State :=
  let x := s.th t
  if s.pkt t then
    let s := ((s.logTrap t c cause detail pc false).countTrap t c).markFlight t x.buf cause
    s.resetThread t 0 0
  else if x.vec = 0 ∨ x.inTrap then
    ((s.logTrap t c cause detail pc x.inTrap).modTh t fun y => { y with killBy := 10 }).resetThread t 0 0
  else
    let s := (s.logTrap t c cause detail pc false).abortAll t 0
    s.modTh t fun x => { x with lr := nw (if wordTookEffect cause runOff then pc + 1 else pc), inTrap := true, pc := x.vec.toNat,
                                rep := none, st := .running, mask := 0, waitObj := 0, timeout := none, waitAt := none }

/-- A trap that an earlier operation left for a later slot is taken (R133, R141). -/
def State.takeLate (s : State) (t c pc : Nat) (l : LateTrap) : State :=
  (s.modTh t fun x => { x with lateTrap := x.lateTrap.erase l }).trap t c l.cause l.detail pc false

/-- The traps left for later slots of a context that goes to sleep or ends are taken now: in those slots it issues no word. A wait leaves its
queue, and the resume address is that of the word that waits (log entry 33). -/
def State.lateNow (s : State) (t pc : Nat) : State :=
  (s.th t).lateTrap.foldl (fun s l => if (s.th t).st = .resetting then s else (s.leaveWait t).takeLate t l.at_ pc l) s

end Sys2Proof.Machine
end

