-- ==== Sys2Proof/Machine/Cop.lean ====
section
/-! DEFINITION. The coprocessors LX, SP, EC and KW (R184 to R211): the fetch of a command, its checks, its results, and its
completion. -/

namespace Sys2Proof.Machine

/-- What a fetched command asks: the code with which its lengths end it (0: none), the operands it reads and writes, the code
with which it ends when a state or a KEK that it needs is absent, and its (public) count. -/
structure CopJob where
  lens  : Nat
  args  : List CopArg
  dests : List CopArg
  need  : Nat
  deriving DecidableEq, Repr

/-- LEN2, to which R187 gives no word: R187 leaves PARAM0 to PARAM3 to each opcode, and PARAM2 holds the key select of R209, so it stands in PARAM0,
PARAM1 or PARAM3. DEDUCED; which of them is a free value (log 34). -/
def blkLen2 (b : List Byte) : Nat := blkWord b ([10, 11, 13].getD (Config.len2Word (blkOpc b) % 3) 10)

/-- An operand is aligned and lies below the record section (R189). -/
def CopArg.ok (a : CopArg) : Bool := decide (a.ptr % 8 = 0) && decide (a.ptr < 0xD8000) && decide (a.ptr + a.len ≤ 0xD8000)

/-- A secret operand lies entirely in the key area (R189). -/
def CopArg.keyOk (a : CopArg) : Bool := !a.key || (decide (0xC8000 ≤ a.ptr) && decide (a.ptr + a.len ≤ 0xD8000))

/-- The code with which the checks after the fetch end a command; 0 where it goes on. -/
def CopJob.check (j : CopJob) : Nat :=
  if j.lens = 2 then 2
  else if !(j.args ++ j.dests).all CopArg.ok then 3
  else if j.lens ≠ 0 then j.lens
  else if !(j.args ++ j.dests).all CopArg.keyOk then 5
  else j.need

/-- Read the operands behind the fetch of core cycle `n`: their bytes, the address of the first uncorrectable error, and the state with
correctable errors logged. What the command before stored in that cycle is seen, a store of the A port in that cycle or a later one is not
(R65): DEDUCED (log entry 212). -/
def State.copReads (s : State) (c n : Nat) : List CopArg → List (List Byte) × Option Nat × State
  | [] => ([], none, s)
  | a :: r =>
    let x := s.bRead c n (n + 1) a.ptr a.len
    let t := State.copReads x.2.2 c n r
    let bad := if x.2.1 = 2 then
        ((List.range ((a.len + 7) / 8)).find? fun i => decide (s.cmem.code arrCmem (cmemAt c a.ptr / 8 + i) = 2)).map
          fun i => a.ptr + 8 * i
      else none
    (x.1 :: t.1, bad.orElse fun _ => t.2.1, t.2.2)

/-- The block at the head of the queue, when it holds opcode `opc`, with the fetch performed: time, and the block's bytes. -/
def State.copFetch (s : State) (c n opc : Nat) : Option (CopCmd × List Byte × State) :=
  match (s.cop c n).head? with
  | some k =>
    let r := (s.upToCyc ((s.cop c n).fetchAt k)).copBlock c n k
    if k.kind = 0 ∧ blkOpc r.1 = opc then some (k, r.1, r.2) else none
  | none => none

/-- Fetch a command of opcode `opc` and begin it: `f` says what its block asks and what it computes from its operands, given
the number of the next draw. An uncorrectable error in an operand ends it with OPERAND_UE and leaves free bytes in its
destinations; `ueState` is then the native state (R203). -/
def State.copRow (s : State) (c n opc : Nat) (job : State → Cop → List Byte → CopJob)
    (run : State → Cop → List Byte → List (List Byte) → CopRes) (ueState : Cop → List Byte → List Byte) : State :=
  match s.copFetch c n opc with
  | none => s
  | some (k, b, s) =>
    let x := s.cop c n
    let sl := s.stateless c n b
    let j := job s x b
    if j.check ≠ 0 then s.copBegin c n k opc sl (copRes x j.check 0 []) []
    else
      match s.copReads c (x.fetchAt k) j.args with
      | (_, some o, s) =>
        let r := { copRes x 6 (Config.count s.draw % 4096) (j.dests.map fun d => s.freeBytes d.len) with
                   state := ueState x (s.freeBytes 200) }
        ({ s.cmemUe c o with draw := s.draw + 1 + (j.dests.map CopArg.len).foldl (· + ·) 200 }).copBegin c n k opc sl r j.dests
      | (v, none, s) => { s with draw := s.draw + 512 }.copBegin c n k opc sl (run s x b v) j.dests

/-- A row whose native state an OPERAND_UE leaves alone. -/
def keepState (x : Cop) (_ : List Byte) : List Byte := x.state

/-- The job of a command that needs nothing but its operands. -/
def copJob (args dests : List CopArg) : CopJob := { lens := 0, args := args, dests := dests, need := 0 }

/-- BAD_LEN where a condition on lengths fails. -/
def badLen (ok : Bool) : Nat := if ok then 0 else 4

/-- An operand, by pointer number. -/
def arg (b : List Byte) (i len : Nat) (key : Bool) : CopArg := { ptr := blkPtr b i, len := len, key := key }

/-! ## LX -/

/-- VAR of the primitive commands names a ring (R204). -/
def lxVarOk (b : List Byte) : Nat := if blkVar b < 2 then 0 else 2

/-- The bytes of a polynomial. -/
def lxLen (b : List Byte) : Nat := 2 * (ringOf (blkVar b)).n

/-- A primitive command on one or two polynomials: an input coefficient not below q ends it with INPUT_INVALID. -/
def lxPrim (x : Cop) (b : List Byte) (c0 c1 : Nat) (v : List (List Byte)) (f : Ring → List (List Nat) → List Nat) : CopRes :=
  let r := ringOf (blkVar b)
  let ps := v.map polyOf
  let n := if blkVar b = 0 then c0 else c1
  if ps.all fun p => p.all fun a => decide (a < r.q) then copRes x 0 n [polyBytes (f r ps)] else copRes x 7 n []

/-- A primitive command with one operand and with two. -/
def State.lx1 (s : State) (c opc : Nat) (f : Ring → List Nat → List Nat) : State :=
  s.copRow c 0 opc (fun _ _ b => { copJob [arg b 0 (lxLen b) false] [arg b 1 (lxLen b) false] with lens := lxVarOk b })
    (fun _ x b v => lxPrim x b 240 1360 v fun r ps => f r (ps.getD 0 [])) keepState
def State.lx2 (s : State) (c opc c0 c1 : Nat) (f : Ring → List Nat → List Nat → List Nat) : State :=
  s.copRow c 0 opc
    (fun _ _ b => { copJob [arg b 0 (lxLen b) false, arg b 1 (lxLen b) false] [arg b 2 (lxLen b) false] with lens := lxVarOk b })
    (fun _ x b v => lxPrim x b c0 c1 v fun r ps => f r (ps.getD 0 []) (ps.getD 1 [])) keepState

/-- NTT (R204). -/
def execNtt (c : ClusterId) (s : State) : Host.Outcome State Fault Refusal := .next (s.lx1 c.val 0x01 ntt)

/-- INTT (R204). -/
def execIntt (c : ClusterId) (s : State) : Host.Outcome State Fault Refusal := .next (s.lx1 c.val 0x02 intt)

/-- PMUL (R204). -/
def execPmul (c : ClusterId) (s : State) : Host.Outcome State Fault Refusal := .next (s.lx2 c.val 0x03 96 272 nttMul)

/-- PADD (R204). -/
def execPadd (c : ClusterId) (s : State) : Host.Outcome State Fault Refusal :=
  .next (s.lx2 c.val 0x04 40 136 fun r a b => polyAdd r.q a b)

/-- PSUB (R204). -/
def execPsub (c : ClusterId) (s : State) : Host.Outcome State Fault Refusal :=
  .next (s.lx2 c.val 0x05 40 136 fun r a b => polySub r.q a b)

/-- MLKEM_KEYGEN (R204). -/
def State.mlkemKeygen (s : State) (c : Nat) : State :=
  s.copRow c 0 0x10 (fun _ _ b => copJob [arg b 0 64 true] [arg b 1 1568 false, arg b 2 3168 true])
    (fun _ x _ v =>
      let k := kemKeygen (bytesAt (v.getD 0 []) 0 32) (bytesAt (v.getD 0 []) 32 32)
      copRes x 0 9800 [k.1, k.2]) keepState

/-- MLKEM_KEYGEN. -/
def execMlkemKeygen (c : ClusterId) (s : State) : Host.Outcome State Fault Refusal := .next (s.mlkemKeygen c.val)

/-- MLKEM_ENCAPS (R204): a failing modulus check ends it with INPUT_INVALID. -/
def State.mlkemEncaps (s : State) (c : Nat) : State :=
  s.copRow c 0 0x11
    (fun _ _ b => copJob [arg b 0 1568 false, arg b 1 32 true] [arg b 2 1568 false, arg b 3 32 true])
    (fun _ x _ v =>
      if kemEkOk (v.getD 0 []) then
        let k := kemEncaps (v.getD 0 []) (v.getD 1 [])
        copRes x 0 11600 [k.1, k.2]
      else copRes x 7 11600 []) keepState

/-- MLKEM_ENCAPS. -/
def execMlkemEncaps (c : ClusterId) (s : State) : Host.Outcome State Fault Refusal := .next (s.mlkemEncaps c.val)

/-- MLKEM_DECAPS (R204): implicit rejection, always OK. -/
def State.mlkemDecaps (s : State) (c : Nat) : State :=
  s.copRow c 0 0x12 (fun _ _ b => copJob [arg b 0 3168 true, arg b 1 1568 false] [arg b 2 32 true])
    (fun _ x _ v => copRes x 0 13900 [kemDecaps (v.getD 0 []) (v.getD 1 [])]) keepState

/-- MLKEM_DECAPS. -/
def execMlkemDecaps (c : ClusterId) (s : State) : Host.Outcome State Fault Refusal := .next (s.mlkemDecaps c.val)

/-- FALCON_VERIFY (R204). -/
def State.falconVerify (s : State) (c : Nat) : State :=
  s.copRow c 0 0x20
    (fun _ _ b => { copJob [arg b 0 1793 false, arg b 1 (blkLen b 1) false, arg b 2 (blkLen2 b) false] [] with
      lens := badLen (decide (blkLen b 1 ≤ 65536) && decide (blkLen2 b ≤ 1280)) })
    (fun _ x b v =>
      let r := Sys2Proof.Machine.falconVerify (v.getD 0 []) (v.getD 1 []) (v.getD 2 [])
      copRes x (if r.1 then 0 else 1) (9400 + 28 * ((40 + blkLen b 1 + 135) / 136 + r.2)) []) keepState

/-- FALCON_VERIFY. -/
def execFalconVerify (c : ClusterId) (s : State) : Host.Outcome State Fault Refusal := .next (s.falconVerify c.val)

/-! ## SP: the native state is the 200 bytes, the algorithm, whether a squeeze has padded, and the position (R196) -/

/-- The parts of SP's native state. -/
def spAlg (st : List Byte) : Nat := (st.getD 200 0).toNat
def spSqueezed (st : List Byte) : Bool := decide (st.getD 201 0 ≠ 0)
def spPos (st : List Byte) : Nat := (st.getD 202 0).toNat

/-- SP's native state from its parts. -/
def spState (st : List Byte) (alg : Nat) (sq : Bool) (pos : Nat) : List Byte :=
  padTo 200 st ++ [BitVec.ofNat 8 alg, BitVec.ofNat 8 (b2n sq), BitVec.ofNat 8 pos]

/-- VAR names an algorithm (R205). -/
def spVarOk (b : List Byte) : Nat := if blkVar b < 5 then 0 else 2

/-- The length limits of an algorithm's output (R205). -/
def spOutOk (alg n : Nat) : Bool :=
  decide (n ≤ 262144) && (match spDigest alg with
    | some d => decide (n = d)
    | none => true)

/-- INIT (R205): an empty sponge of the algorithm. -/
def State.spInit (s : State) (c : Nat) : State :=
  s.copRow c 1 0x01 (fun _ _ b => { copJob [] [] with lens := spVarOk b })
    (fun _ x b _ => { copRes x 0 16 [] with state := spState spZero (blkVar b) false 0, valid := true }) keepState

/-- INIT. -/
def execInit (c : ClusterId) (s : State) : Host.Outcome State Fault Refusal := .next (s.spInit c.val)

/-- ABSORB (R205): NO_STATE without an INIT; what absorbing after a squeeze gives is open, and the state is then free. -/
def State.spAbsorbRow (s : State) (c : Nat) : State :=
  s.copRow c 1 0x02
    (fun _ x b => { copJob [arg b 0 (blkLen b 0) false] [] with
      lens := badLen (decide (blkLen b 0 ≤ 262144)), need := if x.valid then 0 else 8 })
    (fun s x _ v =>
      let r := spAbsorb (spRate (spAlg x.state)) (x.state.take 200) (spPos x.state) (v.getD 0 [])
      let st := if spSqueezed x.state then s.freeBytes 200 else r.1
      { copRes x 0 (16 + 40 * r.2.2) [] with state := spState st (spAlg x.state) (spSqueezed x.state) r.2.1 })
    (fun x fb => spState fb (spAlg x.state) (spSqueezed x.state) (spPos x.state))

/-- ABSORB. -/
def execAbsorb (c : ClusterId) (s : State) : Host.Outcome State Fault Refusal := .next (s.spAbsorbRow c.val)

/-- SQUEEZE (R205): the first squeeze pads. -/
def State.spSqueezeRow (s : State) (c : Nat) : State :=
  s.copRow c 1 0x03
    (fun _ x b => { copJob [] [arg b 1 (blkLen b 1) false] with
      lens := badLen (!x.valid || spOutOk (spAlg x.state) (blkLen b 1)), need := if x.valid then 0 else 8 })
    (fun _ x b _ =>
      let alg := spAlg x.state
      let st := if spSqueezed x.state then x.state.take 200 else spPad alg (x.state.take 200) (spPos x.state)
      let pos := if spSqueezed x.state then spPos x.state else 0
      let r := spSqueeze (spRate alg) st pos (blkLen b 1)
      { copRes x 0 (16 + 40 * (r.2.2.2 + b2n (!spSqueezed x.state))) [r.1] with state := spState r.2.1 alg true r.2.2.1 })
    keepState

/-- SQUEEZE. -/
def execSqueeze (c : ClusterId) (s : State) : Host.Outcome State Fault Refusal := .next (s.spSqueezeRow c.val)

/-- HASH (R205). -/
def State.spHashRow (s : State) (c : Nat) : State :=
  s.copRow c 1 0x04
    (fun _ _ b => { copJob [arg b 0 (blkLen b 0) false] [arg b 1 (blkLen b 1) false] with
      lens := if spVarOk b ≠ 0 then 2 else badLen (decide (blkLen b 0 ≤ 262144) && spOutOk (blkVar b) (blkLen b 1)) })
    (fun _ x b v =>
      let r := spRate (blkVar b)
      copRes x 0 (16 + 40 * (blkLen b 0 / r + (blkLen b 1 + r - 1) / r)) [spHash (blkVar b) (v.getD 0 []) (blkLen b 1)])
    keepState

/-- HASH. -/
def execHash (c : ClusterId) (s : State) : Host.Outcome State Fault Refusal := .next (s.spHashRow c.val)

/-- PERMUTE (R205). -/
def State.spPermute (s : State) (c : Nat) : State :=
  s.copRow c 1 0x05 (fun _ _ b => copJob [arg b 0 200 false] [arg b 1 200 false])
    (fun _ x _ v => copRes x 0 56 [keccakF (v.getD 0 [])]) keepState

/-- PERMUTE. -/
def execPermute (c : ClusterId) (s : State) : Host.Outcome State Fault Refusal := .next (s.spPermute c.val)

/-- The source's health test has failed: SEC_STAT.RNG_FAIL (R464). -/
def State.rngFailed (s : State) : Bool := s.rb (ra (mPage 4) 0x100) 28

/-- Bytes of the random source, from the next draw on. -/
def State.randomBytes (s : State) (n : Nat) : List Byte := (List.range n).map fun i => Config.randomByte (s.draw + i)

/-- The tick at which the source serves the next draw: no more than 4,000,000 a second to the whole part (R206). -/
def State.rngFrom (s : State) : Nat := max s.rngAt s.now

/-- `k` draws are served: the next is served 250 ns after the last of them. -/
def State.rngTake (s : State) (k : Nat) : State :=
  { s with rngAt := s.rngFrom + 6000 * k, sec := { s.sec with draws := (if 2 ^ 20 ≤ s.sec.draws then 0 else s.sec.draws) + k } }

/-- The count of a RAND of `k` draws: it waits at the source while the rate is exceeded, then takes a free count of at most 2,336 within which
its last draw is served (R192, R206). -/
def State.randCount (s : State) (k : Nat) : Nat :=
  let cycles (d : Nat) : Nat := (d + coreTicks s.clk.point - 1) / coreTicks s.clk.point
  cycles (s.rngFrom - s.now) + max (Config.count s.draw % 2337) (cycles (6000 * (k - 1)))

/-- RAND (R206): it waits at the source while the rate is exceeded. -/
def State.spRand (s : State) (c : Nat) : State :=
  let t := s.copRow c 1 0x06
    (fun _ _ b => { copJob [] [arg b 1 (blkLen b 1) false] with lens := badLen (decide (blkLen b 1 = 32 ∨ blkLen b 1 = 64)) })
    (fun s x b _ =>
      if s.rngFailed then copRes x 0x0D (Config.count s.draw % 2337) []
      else copRes x 0 (s.randCount (blkLen b 1 / 32)) [s.randomBytes (blkLen b 1)]) keepState
  match (s.cop c 1).run, (t.cop c 1).run with
  | none, some r => if r.code = 0 then t.rngTake ((r.writes.map (·.2.length)).foldl (· + ·) 0 / 32) else t
  | _, _ => t

/-- RAND. -/
def execRand (c : ClusterId) (s : State) : Host.Outcome State Fault Refusal := .next (s.spRand c.val)

/-! ## EC -/

/-- The u-coordinate of the base point of X25519, and the little-endian element of a number. -/
def x25519Base : List Byte := 9 :: List.replicate 31 0
def ecElem (var n : Nat) : List Byte := leBytes (ecBytes var) n

/-- X25519 (R207): a result of zeros is written and reported as INPUT_INVALID. -/
def State.x25519 (s : State) (c : Nat) : State :=
  s.copRow c 2 0x01
    (fun _ _ b => copJob ([arg b 0 32 true] ++ (if blkVar b % 2 = 1 then [] else [arg b 1 32 false])) [arg b 2 32 true])
    (fun _ x _ v =>
      let r := x25519Fn (leNat (v.getD 0 [])) (leNat (v.getD 1 x25519Base))
      copRes x (if r = 0 then 7 else 0) 15968 [ecElem 0 r]) keepState

/-- X25519. -/
def execX25519 (c : ClusterId) (s : State) : Host.Outcome State Fault Refusal := .next (s.x25519 c.val)

/-- P384_MUL (R207): a point off the curve gives zeros and INPUT_INVALID; a multiple that has no affine coordinates is open. -/
def State.p384Mul (s : State) (c : Nat) : State :=
  s.copRow c 2 0x02
    (fun _ _ b => copJob ([arg b 0 48 true] ++ (if blkVar b % 2 = 1 then [] else [arg b 1 96 false])) [arg b 2 96 true])
    (fun s x b v =>
      let pt := if blkVar b % 2 = 1 then p384G else (leAt (v.getD 1 []) 0 48, leAt (v.getD 1 []) 48 48)
      if p384On pt.1 pt.2 then
        match p384Mult (leNat (v.getD 0 [])) pt.1 pt.2 with
        | some r => copRes x 0 51968 [ecElem 1 r.1 ++ ecElem 1 r.2]
        | none => copRes x 0 51968 [s.freeBytes 96]
      else copRes x 7 51968 [List.replicate 96 0]) keepState

/-- P384_MUL. -/
def execP384Mul (c : ClusterId) (s : State) : Host.Outcome State Fault Refusal := .next (s.p384Mul c.val)

/-- A field command of two operands (R207). -/
def State.ecField (s : State) (c opc c0 c1 : Nat) (f : Nat → Nat → Nat → Nat) : State :=
  s.copRow c 2 opc
    (fun _ _ b => copJob [arg b 0 (ecBytes (blkVar b)) false, arg b 1 (ecBytes (blkVar b)) false]
      [arg b 2 (ecBytes (blkVar b)) false])
    (fun _ x b v => copRes x 0 (if blkVar b % 2 = 0 then c0 else c1)
      [ecElem (blkVar b) (f (ecPrime (blkVar b)) (leNat (v.getD 0 [])) (leNat (v.getD 1 [])))]) keepState

/-- FMUL (R207). -/
def execFmul (c : ClusterId) (s : State) : Host.Outcome State Fault Refusal := .next (s.ecField c.val 0x10 24 40 fMul)

/-- FADD (R207). -/
def execFadd (c : ClusterId) (s : State) : Host.Outcome State Fault Refusal := .next (s.ecField c.val 0x11 8 12 fAdd)

/-- FSUB (R207). -/
def execFsub (c : ClusterId) (s : State) : Host.Outcome State Fault Refusal := .next (s.ecField c.val 0x12 8 12 fSub)

/-- FINV (R207): the inverse of an element that is 0 is open. -/
def State.ecFinv (s : State) (c : Nat) : State :=
  s.copRow c 2 0x13
    (fun _ _ b => copJob [arg b 0 (ecBytes (blkVar b)) false] [arg b 1 (ecBytes (blkVar b)) false])
    (fun s x b v =>
      let p := ecPrime (blkVar b)
      let a := leNat (v.getD 0 []) % p
      copRes x 0 (if blkVar b % 2 = 0 then 1600 else 2600)
        [if a = 0 then s.freeBytes (ecBytes (blkVar b)) else ecElem (blkVar b) (fInv p a)]) keepState

/-- FINV. -/
def execFinv (c : ClusterId) (s : State) : Host.Outcome State Fault Refusal := .next (s.ecFinv c.val)

/-! ## KW: the native state is the working key; its size is its length (R196) -/

/-- A key length of AES-128 or AES-256. -/
def keyLenOk (n : Nat) : Bool := decide (n = 16 ∨ n = 32)

/-- A of R209. -/
def kwA (key : List Byte) : Nat := if key.length = 16 then 12 else 16

/-- KW slot `k` of a cluster, a KEY_LOAD that has ended taken in; an empty slot is the empty key (R208). -/
def State.kekAt (s : State) (c k : Nat) : List Byte :=
  match s.secDone.bind (·.kek) with
  | some (_, kw, mask, key) => if mask.testBit c ∧ kw = k then key else tGet (fun _ => []) s.kek (c * 16 + k)
  | none => tGet (fun _ => []) s.kek (c * 16 + k)

/-- The KEK slot that a block names. -/
def State.kekOf (s : State) (c : Nat) (b : List Byte) : List Byte := s.kekAt c (blkParam b 0 % 16)

/-- KEK_EMPTY where the slot is empty. -/
def State.kekNeed (s : State) (c : Nat) (b : List Byte) : Nat := if s.kekOf c b = [] then 0x0A else 0

/-- The count of a wrap of `n` semiblocks. -/
def wrapCount (var n a : Nat) : Nat := if var = 1 ∧ n = 1 then 48 + a else 48 + 6 * n * a

/-- The length that WRAP accepts, and that UNWRAP accepts (R209). -/
def wrapLenOk (var n : Nat) : Bool := if var = 0 then decide (n % 8 = 0 ∧ 16 ≤ n) else decide (1 ≤ n ∧ n ≤ 512)
def unwrapLenOk (var n : Nat) : Bool :=
  if var = 0 then decide (n % 8 = 0 ∧ 24 ≤ n) else decide (n % 8 = 0 ∧ 16 ≤ n ∧ n ≤ 520)

/-- VAR 0 and 1 are defined for wrapping. -/
def kwLens (b : List Byte) (ok : Nat → Nat → Bool) : Nat := if blkVar b < 2 then badLen (ok (blkVar b) (blkLen b 0)) else 2

/-- The plaintext that a wrapped key unwraps to. -/
def kwOpen (var : Nat) (key w : List Byte) : Option (List Byte) := if var = 0 then kwUnwrapOk key w else kwpUnwrap key w

/-- KEYSET (R209). -/
def State.kwKeyset (s : State) (c : Nat) : State :=
  s.copRow c 3 0x01
    (fun _ _ b => { copJob [arg b 0 (blkLen b 0) true] [] with lens := badLen (keyLenOk (blkLen b 0)) })
    (fun _ x _ v => { copRes x 0 32 [] with state := v.getD 0 [], valid := true })
    (fun x fb => fb.take x.state.length)

/-- KEYSET. -/
def execKeyset (c : ClusterId) (s : State) : Host.Outcome State Fault Refusal := .next (s.kwKeyset c.val)

/-- WRAP (R209). -/
def State.kwWrapRow (s : State) (c : Nat) : State :=
  s.copRow c 3 0x02
    (fun s _ b => { copJob [arg b 0 (blkLen b 0) true] [arg b 1 ((blkLen b 0 + 15) / 8 * 8) false] with
      lens := kwLens b wrapLenOk, need := s.kekNeed c b })
    (fun s x b v =>
      let k := s.kekOf c b
      let n := (blkLen b 0 + 7) / 8
      copRes x 0 (wrapCount (blkVar b) n (kwA k))
        [if blkVar b = 0 then kwWrap k kwIv (v.getD 0 []) else kwpWrap k (v.getD 0 [])]) keepState

/-- WRAP. -/
def execWrap (c : ClusterId) (s : State) : Host.Outcome State Fault Refusal := .next (s.kwWrapRow c.val)

/-- UNWRAP (R209): a failed integrity check writes zeros over the whole destination. -/
def State.kwUnwrapRow (s : State) (c : Nat) : State :=
  s.copRow c 3 0x03
    (fun s _ b => { copJob [arg b 0 (blkLen b 0) false] [arg b 1 (blkLen b 0 - 8) true] with
      lens := kwLens b unwrapLenOk, need := s.kekNeed c b })
    (fun s x b v =>
      let k := s.kekOf c b
      let n := blkLen b 0 / 8 - 1
      match kwOpen (blkVar b) k (v.getD 0 []) with
      | some p => copRes x 0 (wrapCount (blkVar b) n (kwA k)) [padTo (8 * n) p]
      | none => copRes x 0x0B (wrapCount (blkVar b) n (kwA k)) [List.replicate (8 * n) 0]) keepState

/-- UNWRAP. -/
def execUnwrap (c : ClusterId) (s : State) : Host.Outcome State Fault Refusal := .next (s.kwUnwrapRow c.val)

/-- VAULT_UNWRAP (R209, R210): only a key of 16 or 32 bytes is accepted. -/
def State.kwVault (s : State) (c : Nat) : State :=
  s.copRow c 3 0x04
    (fun s _ b => { copJob [arg b 0 (blkLen b 0) false] [] with lens := kwLens b unwrapLenOk, need := s.kekNeed c b })
    (fun s x b v =>
      let k := s.kekOf c b
      let n := blkLen b 0 / 8 - 1
      let cnt := wrapCount (blkVar b) n (kwA k) + Config.vaultCount (blkVar b) n k.length % 401
      match kwOpen (blkVar b) k (v.getD 0 []) with
      | some p =>
        if keyLenOk p.length then { copRes x 0 cnt [] with vault := some (blkParam b 1 % 2 ^ 20, p) } else copRes x 4 0 []
      | none => copRes x 0x0B cnt []) keepState

/-- VAULT_UNWRAP. -/
def execVaultUnwrap (c : ClusterId) (s : State) : Host.Outcome State Fault Refusal := .next (s.kwVault c.val)

/-- GMAC and AES_BLOCK use the key at PTR3 (R209). -/
def ownKey (b : List Byte) : Bool := blkParam b 2 % 2 = 1

/-- The operand of that key, when it is used. -/
def keyArgs (b : List Byte) : List CopArg := if ownKey b then [arg b 3 (blkLen2 b) true] else []

/-- The key of a command: its own, read after its other operands, or the working key. -/
def kwKey (x : Cop) (b : List Byte) (own : Option (List Byte)) : List Byte := if ownKey b then own.getD [] else x.state

/-- NO_STATE where the working key is used and absent. -/
def kwNeed (x : Cop) (b : List Byte) : Nat := if ownKey b || x.valid then 0 else 8

/-- GMAC (R209). -/
def State.kwGmac (s : State) (c : Nat) : State :=
  s.copRow c 3 0x05
    (fun _ x b => { copJob ([arg b 0 12 false, arg b 1 (blkLen b 1) false] ++ keyArgs b) [arg b 2 16 false] with
      lens := badLen (!ownKey b || keyLenOk (blkLen2 b)), need := kwNeed x b })
    (fun _ x b v =>
      let k := kwKey x b v[2]?
      copRes x 0 (40 + kwA k + 2 * ((blkLen b 1 + 15) / 16)) [gcmTag k (v.getD 0 []) (v.getD 1 []) []]) keepState

/-- GMAC. -/
def execGmac (c : ClusterId) (s : State) : Host.Outcome State Fault Refusal := .next (s.kwGmac c.val)

/-- AES_BLOCK (R209). -/
def State.kwAesBlock (s : State) (c : Nat) : State :=
  s.copRow c 3 0x06
    (fun _ x b => { copJob ([arg b 0 16 false] ++ keyArgs b) [arg b 1 16 false] with
      lens := badLen (!ownKey b || keyLenOk (blkLen2 b)), need := kwNeed x b })
    (fun _ x b v =>
      let k := kwKey x b v[1]?
      copRes x 0 (24 + kwA k) [if blkVar b % 2 = 1 then aesDec k (v.getD 0 []) else aesEnc k (v.getD 0 [])]) keepState

/-- AES_BLOCK. -/
def execAesBlock (c : ClusterId) (s : State) : Host.Outcome State Fault Refusal := .next (s.kwAesBlock c.val)

/-! ## CSAVE and CRESTORE -/

/-- The save area of a command: 256 bytes, in a key area for SP and KW (R196). -/
def saveArg (n ptr : Nat) : CopArg := { ptr := ptr, len := 256, key := decide (n = 1 ∨ n = 3) }

/-- Mask or unmask the bytes of words 1 to 63. -/
def saveMasked (n : Nat) (b : List Byte) : List Byte := (List.range 252).map fun i => b.getD i 0 ^^^ Config.saveMask n i

/-- The image of a native state: whether it is present, its length, its bytes. -/
def saveBody (x : Cop) : List Byte := padTo 252 ([BitVec.ofNat 8 (b2n x.valid), BitVec.ofNat 8 x.state.length] ++ x.state)

/-- Word 0 of a save area over its other words (R196). -/
def saveWord0 (n : Nat) (body : List Byte) : Nat := 0xC5 * 2 ^ 24 + n * 2 ^ 20 + 1 * 2 ^ 16 + (Config.saveCheck body).toNat

/-- The bytes of a save area. -/
def saveImage (n : Nat) (x : Cop) : List Byte :=
  let body := saveMasked n (saveBody x)
  leBytes 4 (saveWord0 n body) ++ body

/-- CSAVE at its fetch (R196). -/
def State.csave (s : State) (c n : Nat) : State :=
  match s.copHead c n 1 with
  | none => s
  | some (k, s) =>
    let x := s.cop c n
    let j := copJob [] [saveArg n k.ptr]
    let sl := s.rb (ra (cluPage c 4) 0x110) n
    if j.check ≠ 0 then s.copBegin c n k 0 sl (copRes x j.check 0 []) []
    else s.copBegin c n k 0 sl (copRes x 0 48 [saveImage n x]) j.dests

/-- CSAVE. -/
def execCsave (c : ClusterId) (n : Fin 4) (s : State) : Host.Outcome State Fault Refusal := .next (s.csave c.val n.val)

/-- What a restore takes from a save area: a word 0 that does not match ends it with BAD_STATE and the state cleared (R196). -/
def restored (n : Nat) (x : Cop) (b : List Byte) : CopRes :=
  let body := b.drop 4
  let img := saveMasked n body
  let len := (img.getD 1 0).toNat
  if leAt b 0 4 = saveWord0 n body then
    { copRes x 0 48 [] with state := bytesAt img 2 len, valid := decide (img.getD 0 0 ≠ 0) }
  else { copRes x 9 48 [] with state := [], valid := false }

/-- CRESTORE at its fetch (R196). -/
def State.crestore (s : State) (c n : Nat) : State :=
  match s.copHead c n 2 with
  | none => s
  | some (k, s) =>
    let x := s.cop c n
    let a := saveArg n k.ptr
    let j := copJob [a] []
    let sl := s.rb (ra (cluPage c 4) 0x110) n
    if j.check ≠ 0 then s.copBegin c n k 0 sl (copRes x j.check 0 []) []
    else
      match s.copReads c (x.fetchAt k) [a] with
      | (_, some o, s) => (s.cmemUe c o).copBegin c n k 0 sl { copRes x 6 48 [] with state := [], valid := false } []
      | (v, none, s) => s.copBegin c n k 0 sl (restored n x (v.getD 0 [])) []

/-- CRESTORE. -/
def execCrestore (c : ClusterId) (n : Fin 4) (s : State) : Host.Outcome State Fault Refusal := .next (s.crestore c.val n.val)

/-! ## Completion and zeroization -/

/-- CP_COMMAND_DONE (R190 to R192): the running command completes in the core cycle of its bit. -/
def State.copDone (s : State) (c n : Nat) : State :=
  let s := s.copUnknown c n
  match (s.cop c n).run with
  | some r => (s.upToCyc r.due).copFinish c n r
  | none => s

/-- CP_COMMAND_DONE. -/
def execCpCommandDone (c : ClusterId) (n : Fin 4) (s : State) : Host.Outcome State Fault Refusal := .next (s.copDone c.val n.val)

/-- Zeroization of a coprocessor (R202): its commands end with ZEROIZED, its state is cleared; one whose issuer is in RESETTING
is aborted instead. The CYCLES of a ZEROIZED status are 0, and the command counts as completed in CPX_CMD_CNT: DESIGN CHOICE (log entry 185). -/
def State.copZeroize (s : State) (c n : Nat) : State :=
  let s := s.abortCop c n 1 fun k => decide ((s.th k.thread).st = .resetting) && !k.gone
  let s := match (s.cop c n).run with
    | some r => s.copEnd c n { r with code := 0x0E } [] (0x0E * 2 ^ 24) s.cyc
    | none => s
  let q := (s.cop c n).queue
  let s := s.putCop c n { s.cop c n with queue := [] }
  let s := q.foldl (fun s k => s.copEnd c n
    { cmd := k, opc := s.blockOpc c k, code := 0x0E, count := 0, writes := [], vault := none, state := [], valid := false,
      due := s.cyc } [] (0x0E * 2 ^ 24) s.cyc) s
  s.putCop c n { s.cop c n with state := [], valid := false }

/-- Zeroization of every coprocessor, with the KEK slots (R202). -/
def State.copsZeroize (s : State) : State :=
  let s := s.cops.foldl (fun s e => s.copZeroize (e.1 / 4) (e.1 % 4)) s
  { s with kek := [] }

end Sys2Proof.Machine
end

