-- ==== Sys2Proof/Machine/Capture.lean ====
section
/-! DEFINITION. Debug capture (R565): copies of frames to a ring in device DRAM. -/

namespace Sys2Proof.Machine

/-- A register of the DBG page, by the number that `Config.dbgOffset` gives it. -/
def State.dbgReg (s : State) (i : Nat) : Word := tGet (fun _ => 0) s.dbg i
def State.setDbg (s : State) (i : Nat) (v : Word) : State := { s with dbg := tSet (fun _ => 0) s.dbg i v }

/-- A debug permission (R475, SEC_DBG_PERM): 0 PAGE_READ, 1 PAGE_WRITE, 2 THREAD, 3 MEM_READ, 4 MEM_WRITE, 5 CAPTURE. -/
def State.perm (s : State) (i : Nat) : Bool := s.rb (ra (mPage 4) 0x10C) i

/-- The bytes that SNAP keeps. -/
def State.capSnap (s : State) : Nat := 64 * (fld (s.dbgReg 2) 27 26 + 1)

/-- The copy of a frame written at the ring's write index. -/
def State.capPut (s : State) (point port : Nat) (b : List Byte) : State :=
  let a := (s.dbgReg 3).toNat + 2 ^ 32 * (s.dbgReg 4).toNat + s.capWr * (32 + s.capSnap)
  let h := [Config.capHeader 0 point port b.length, nw s.tb, nw (s.tb / 2 ^ 32)]
    ++ (List.range 5).map fun i => Config.capHeader (i + 3) point port b.length
  let rec_ := (h.map fun w => leBytes 4 w.toNat).flatten ++ b.take s.capSnap
  let s := if s.dramRange a rec_.length then (s.dramWrite a rec_).2 else s
  { s with capWr := (s.capWr + 1) % 2 ^ fld (s.dbgReg 5) 4 0 }

/-- Capture a frame at a point of port context `i` of P-die `d`: copied, or counted in DBG_CAP_LOST where the ring is full. -/
def State.capture (s : State) (point d i : Nat) (b : List Byte) : State :=
  let c := s.dbgReg 2
  if !(bit c 31 && s.perm 5 && decide (fld c 30 29 = point ∧ fld c 28 28 = d) && bit c (i / 8)) then s
  else if (s.capWr + 1) % 2 ^ fld (s.dbgReg 5) 4 0 = (s.dbgReg 6).toNat % 2 ^ fld (s.dbgReg 5) 4 0 then
    s.setDbg 7 (nw (satAdd (2 ^ 32 - 1) (s.dbgReg 7).toNat 1))
  else s.capPut point (64 * d + i) b

end Sys2Proof.Machine
end

