-- ==== Sys2Proof/Machine/Bpm.lean ====
section
/-! DEFINITION. Buffer pools and the Till (R360 to R378): admission, levels, storing and reading a frame, freeing, the commands,
and sweeps. -/

namespace Sys2Proof.Machine

/-! ## Pools -/

/-- A P-die. -/
def State.pd (s : State) (d : Nat) : PDieState := tGet (fun _ => PDieState.empty) s.pdies d

/-- Change a P-die. -/
def State.modPd (s : State) (d : Nat) (f : PDieState → PDieState) : State :=
  { s with pdies := tUpd (fun _ => PDieState.empty) s.pdies d f }

/-- The BPM page of a P-die, a pool's register word, an account's register word. -/
def bpmPage (d : Nat) : Nat := pdPage d 5
def aPool (d p w : Nat) : Nat := ra (bpmPage d) (0x800 + 32 * p + 4 * w)
def aAcct (d a w : Nat) : Nat := ra (bpmPage d) (0x200 + 8 * a + 4 * w)

/-- A BPM counter (R378). -/
def State.bpmCnt (s : State) (d off : Nat) : State := s.bump (ra (bpmPage d) off)

/-- Cells and bytes of a buffer of a KIND (R360); a reserved KIND has none. -/
def kindCells (k : Nat) : Nat :=
  match k with
  | 0 => 1
  | 1 => 8
  | 2 => 40
  | _ => 0

/-- A pool of a P-die, and its configuration. -/
def State.pool (s : State) (d p : Nat) : Pool := tGet (fun _ => Pool.empty) s.pools (d * 64 + p)
def State.modPool (s : State) (d p : Nat) (f : Pool → Pool) : State :=
  { s with pools := tUpd (fun _ => Pool.empty) s.pools (d * 64 + p) f }
def State.poolEn (s : State) (d p : Nat) : Bool := s.rb (aPool d p 0) 31
def State.poolCells (s : State) (d p : Nat) : Nat := kindCells (s.rf (aPool d p 0) 29 28)
def State.poolBase (s : State) (d p : Nat) : Nat := s.rf (aPool d p 1) 17 0
def State.poolSize (s : State) (d p : Nat) : Nat := s.rf (aPool d p 2) 17 0
def State.poolDram (s : State) (d p : Nat) : Bool := s.rb (aPool d p 0) 27

/-- USED, MIN, MAX and the pool of an account (R366). -/
def State.acctUsed (s : State) (d a : Nat) : Nat := tGet (fun _ => 0) s.used (d * 256 + a)
def State.acctMin (s : State) (d a : Nat) : Nat := s.af (aAcct d a 0) 15 0
def State.acctMax (s : State) (d a : Nat) : Nat := s.af (aAcct d a 0) 25 16
def State.acctPool (s : State) (d a : Nat) : Nat := s.rf (aAcct d a 0) 31 26

/-- SHARED of a pool (R367). -/
def State.shared (s : State) (d p : Nat) : Nat :=
  ((List.range 138).map fun a => if s.acctPool d a = p then s.acctUsed d a - s.acctMin d a else 0).foldl (· + ·) 0

/-- The threshold `i` of a pool in buffers: WARN, PAUSE, HOLD, EXH (R368). -/
def State.poolThr (s : State) (d p i : Nat) : Nat :=
  8 * match i with
    | 0 => s.af (aPool d p 3) 15 0
    | 1 => s.af (aPool d p 3) 31 16
    | 2 => s.af (aPool d p 4) 15 0
    | _ => s.af (aPool d p 4) 31 16

/-- The hysteresis of a pool in buffers. -/
def State.hyst (s : State) (d p : Nat) : Nat := 8 * s.af (aPool d p 5) 28 18

/-- Whether threshold `i` of a pool is in force. -/
def State.atLevel (s : State) (d p i : Nat) : Bool := (s.pool d p).levels.testBit i

/-- LEVEL of a pool: the highest threshold in force (R378). -/
def State.level (s : State) (d p : Nat) : Nat :=
  (((List.range 4).filter fun i => s.atLevel d p i).getLast?.map (· + 1)).getD 0

/-! ## Levels and PFC (R368, R369) -/

/-- The slice of a port context, and its MAC and PRS pages. -/
def macPage (d s : Nat) : Nat := slicePage d s 0
def prsPage (d s : Nat) : Nat := slicePage d s 1

/-- ROLE of a slice: black (R292). -/
def State.sliceBlack (s : State) (d sl : Nat) : Bool := s.rb (ra (prsPage d sl) 0x100) 31

/-- MAC_PORT_CFG of a port context (slice × 8 + context). -/
def aPort (d i : Nat) : Nat := ra (macPage d (i / 8)) (0x110 + 4 * (i % 8))

/-- A port of P-die `d` whose frames wait for the cross link (R376). -/
def State.waitsCross (s : State) (d i : Nat) : Bool := (s.pd d).xwait.any fun t => decide (t.inPort = 64 * d + i)

/-- The red, enabled ports that a pool pauses: those whose port accounts draw on it; accounts of other kinds never cause PFC (R368, R369). -/
def State.pausePorts (s : State) (d p : Nat) : List Nat :=
  (List.range 64).filter fun i => decide (s.acctPool d i = p) && !s.sliceBlack d (i / 8) && s.rb (aPort d i) 31

/-- The nominal rate of a port MODE in Gb/s (R262). -/
def modeGbps (m : Nat) : Nat :=
  match m with
  | 1 => 100
  | 2 => 200
  | 3 => 400
  | 4 => 800
  | 5 => 50
  | 6 => 100
  | 7 => 200
  | 8 => 25
  | 9 => 100
  | _ => 0

/-- The ticks of `n` bit times at a port's rate. -/
def State.bitTicks (s : State) (d i n : Nat) : Nat :=
  let g := modeGbps (s.rf (aPort d i) 27 24)
  if g = 0 then 0 else (n * 24 + g - 1) / g

/-- Send the PFC frame of a pool on one port: XOFF with PFC_QUANTA, or XON with 0; a pool whose PFC_PRI is 0 sends none. -/
def State.sendPfc (s : State) (d p i : Nat) (off : Bool) : State :=
  let pri := s.af (aPool d p 0) 23 16
  let q := s.af (aPool d p 0) 15 0
  if pri = 0 then s
  else
    s.emit (.pfc (d * 64 + i) pri ((List.range 8).map fun k => if off ∧ pri.testBit k then q else 0))

/-- Send the PFC frames of a pool and arm or end the repeats (R369). -/
def State.sendPfcs (s : State) (d p : Nat) (off : Bool) : State :=
  (s.pausePorts d p).foldl (fun s i =>
    let s := s.sendPfc d p i off
    { s with xoffAt := if off then tPut s.xoffAt (d * 64 + i) (s.now + s.bitTicks d i (256 * s.af (aPool d p 0) 15 0))
                       else tDel s.xoffAt (d * 64 + i) }) s

/-- The thresholds in force after a change of SHARED, where `old` were in force: entered at the threshold, left below it minus HYST. A disabled
pool has none. -/
def State.newLevels (s : State) (d p old : Nat) : Nat :=
  let sh := s.shared d p
  if !s.poolEn d p then 0
  else (List.range 4).foldl (fun a i =>
    if s.poolThr d p i ≤ sh ∨ (old.testBit i ∧ s.poolThr d p i ≤ sh + s.hyst d p) then a + 2 ^ i else a) 0

/-- A pool's levels go from `old` to `new`: the WARN event on its entry, XOFF on entering PAUSE and XON on leaving it (R368, R369). -/
def State.putLevels (s : State) (d p old new : Nat) : State :=
  let s := s.modPool d p fun x => { x with levels := new }
  let s := if new.testBit 0 && !old.testBit 0 then s.raise (bpmPage d) 8 else s
  if new.testBit 1 && !old.testBit 1 then s.sendPfcs d p true
  else if old.testBit 1 && !new.testBit 1 then s.sendPfcs d p false
  else s

/-- What the levels of a pool had done before this fabric cycle. -/
def State.levelCyc (s : State) (d p : Nat) : LevelCyc :=
  (s.lvlWas.before s.fab (d * 64 + p)).getD
    { levels := (s.pool d p).levels, event := s.rb (ra (bpmPage d) 0x010) 8,
      xoff := (s.pausePorts d p).map fun i => (d * 64 + i, tFind s.xoffAt (d * 64 + i)), sent := [] }

/-- Another pool of the P-die has entered WARN in this fabric cycle. -/
def State.warnElse (s : State) (d p : Nat) : Bool :=
  (List.range 64).any fun q => decide (q ≠ p) && s.atLevel d q 0 && (s.lvlWas.before s.fab (d * 64 + q)).any fun x => !x.levels.testBit 0

/-- What the levels of a pool have done in this fabric cycle is withdrawn. -/
def State.levelBack (s : State) (d p : Nat) (x : LevelCyc) : State :=
  let s := { s with out := x.sent.foldl (·.erase ·) s.out, xoffAt := x.xoff.foldl (fun t e => tOpt t e.1 e.2) s.xoffAt }
  if x.event || s.warnElse d p then s else s.setRb (ra (bpmPage d) 0x010) 8 false

/-- Recompute a pool's level: one fabric cycle moves it once, to what SHARED is after all its allocations and frees (R368). -/
def State.relevel (s : State) (d p : Nat) : State :=
  let x := s.levelCyc d p
  let new := s.newLevels d p x.levels
  if new = (s.pool d p).levels then s
  else
    let s := s.levelBack d p x
    let t := s.putLevels d p x.levels new
    { t with lvlWas := t.lvlWas.put t.fab (d * 64 + p) { x with sent := t.out.take (t.out.length - s.out.length) } }

/-- The ports of a pool at HOLD are held (R368, R370). -/
def State.poolHeld (s : State) (d i : Nat) : Bool := s.atLevel d (s.acctPool d i) 2

/-! ## Admission (R367) -/

/-- Whether an account is a cluster's or the host's. -/
def isHostAcct (a : Nat) : Bool := decide (72 ≤ a ∧ a ≤ 136)

/-- The decision for one buffer of an account: 0 granted, or the offset of the counter of its refusal. -/
def State.admission (s : State) (d a : Nat) : Nat :=
  let p := s.acctPool d a
  let x := s.pool d p
  if !s.poolEn d p || !x.ready || x.till = [] then 0x120
  else if s.acctUsed d a < s.acctMin d a then 0
  else if s.acctMax d a ≠ 0 ∧ s.acctMax d a * 256 ≤ s.acctUsed d a then 0x124
  else if s.poolThr d p 3 ≤ s.shared d p then 0x128
  else if isHostAcct a ∧ 3 ≤ s.level d p then 0x11C
  else 0

/-! ## The ring of free pointers (R363, R364) -/

/-- The ring of a pool with a pointer appended: a run that it continues grows. -/
def ringPush (k : Nat) (c : Nat) : List (Nat × Nat) → List (Nat × Nat)
  | [] => [(c, 1)]
  | [(a, n)] => if a + n * k = c then [(a, n + 1)] else [(a, n), (c, 1)]
  | e :: f :: r => e :: ringPush k c (f :: r)

/-- The pointers on a ring. -/
def ringCount (r : List (Nat × Nat)) : Nat := (r.map (·.2)).foldl (· + ·) 0

/-- The oldest `n` pointers of a ring, and the rest. -/
def ringTake (k : Nat) : Nat → List (Nat × Nat) → List Nat × List (Nat × Nat)
  | 0, r => ([], r)
  | _ + 1, [] => ([], [])
  | n + 1, (a, m) :: r =>
    if m ≤ 1 then
      let t := ringTake k n r
      (a :: t.1, t.2)
    else
      let t := ringTake k n ((a + k, m - 1) :: r)
      (a :: t.1, t.2)

/-- The base of P-die `d`'s DRAM rings (R378). -/
def State.ringDram (s : State) (d : Nat) : Nat := s.rf (ra (bpmPage d) 0x10C) 31 26 * 2 ^ 26 + 2 ^ 32 * (s.reg (ra (bpmPage d) 0x110)).toNat

/-- Where entry `i` of a pool's ring stands: the byte of the packet buffer, or the device address (R363). -/
def State.ringSlot (s : State) (d p i : Nat) : Nat :=
  let o := 4 * (i % max 1 (s.poolSize d p))
  if s.poolDram d p then s.ringDram d + 2 ^ 20 * p + o else d * 2 ^ 26 + 256 * s.rf (aPool d p 7) 17 0 + o

/-- The BPM writes the whole ring of a pool at its enable: the first cells of its buffers, ascending; the rest of the last word is 0 (R363). -/
def State.ringInit (s : State) (d p : Nat) : State :=
  let n := s.poolSize d p
  let b := ((List.range n).map fun i => leBytes 4 (s.poolBase d p + s.poolCells d p * i)).flatten ++ List.replicate (4 * (n % 2)) 0
  if s.poolDram d p then (s.dramWrite (s.ringSlot d p 0) b).2 else { s with pktMem := s.pktMem.write (arrPkt d) (s.ringSlot d p 0) b }

/-- The BPM writes a pointer, the first cell of its buffer, into entry `i` of a pool's ring. R363 gives the entry 4 bytes and no format: DESIGN
CHOICE (log entry 57). -/
def State.ringPut (s : State) (d p i c : Nat) : State :=
  if s.poolDram d p then (s.dramWrite (s.ringSlot d p i) (leBytes 4 c)).2
  else { s with pktMem := s.pktMem.write (arrPkt d) (s.ringSlot d p i) (leBytes 4 c) }

/-- The BPM reads entry `i` of a pool's ring: the pointer, or none where it meets an uncorrectable error, which is recorded as class 2. -/
def State.ringGet (s : State) (d p i : Nat) : Option Nat × State :=
  let a := s.ringSlot d p i
  if s.poolDram d p then
    let r := s.dramRead a 4
    if r.2.1 then (none, r.2.2) else (some (leNat r.1), r.2.2)
  else
    match s.pktMem.code (arrPkt d) (a / 8) with
    | 2 => (none, s.eccUe (bpmPage d) 2 (s.pktMem.synd (arrPkt d) (a / 8)) (a / 256 % 2 ^ 18))
    | 1 => (some (leNat (s.pktMem.read (arrPkt d) a 4)), s.eccCe (bpmPage d) (s.pktMem.flaw (arrPkt d) (a / 8)) (a / 8 * 8 % 2 ^ 26))
    | _ => (some (leNat (s.pktMem.read (arrPkt d) a 4)), s)

/-- Start a refill when the Till holds fewer than 128 pointers, the ring holds some beyond those of the refills in flight, and
fewer than 4 are in flight (R364). -/
def State.startRefill (s : State) (d p : Nat) : State :=
  let x := s.pool d p
  if x.till.length < 128 ∧ x.refills.length < 4 ∧ 64 * x.refills.length < ringCount x.ring then
    s.modPool d p fun x => { x with refills := x.refills ++ [s.now + fabricTicks * if s.poolDram d p then 2304 else 24] }
  else s

/-- Charge and release an account. -/
def State.charge (s : State) (d a : Nat) : State := { s with used := tUpd (fun _ => 0) s.used (d * 256 + a) (· + 1) }
def State.discharge (s : State) (d a : Nat) : State := { s with used := tUpd (fun _ => 0) s.used (d * 256 + a) (· - 1) }

/-- The key of a buffer in the link array, by P-die and first cell. -/
def bufKey (d cell : Nat) : Nat := d * 2 ^ 18 + cell
def State.buf? (s : State) (d cell : Nat) : Option Buf := tFind s.bufs (bufKey d cell)
def State.putBuf (s : State) (d cell : Nat) (b : Buf) : State :=
  { s with bufs := tPut s.bufs (bufKey d cell) b, bufBad := tDel s.bufBad (bufKey d cell) }

/-- The link-array entry of a buffer has an uncorrectable error (R375). -/
def State.linkBad (s : State) (d cell : Nat) : Bool := (tFind s.bufBad (bufKey d cell)).isSome

/-- The link-array entry of a buffer as a walk reads it. -/
def State.link? (s : State) (d cell : Nat) : Option Buf := if s.linkBad d cell then none else s.buf? d cell

/-- Take the pointer on top of a pool's Till for an account, with an owner tag. -/
def State.takeBuf (s : State) (d p a : Nat) (tag : OwnerId) : Option Nat × State :=
  match (s.pool d p).till with
  | [] => (none, s)
  | c :: r =>
    let s := (s.modPool d p fun x => { x with till := r }).charge d a
    let s := s.putBuf d c { next := none, off := 0, cnt := 0, tag := tag, acct := a, pool := p, poison := false }
    (some c, ((s.startRefill d p).relevel d p).relevel d (s.acctPool d a))

/-- The byte address of a cell in the packet buffer of its P-die, and reading and writing there: whole 8-byte words, with 0 beyond the frame
(R446). -/
def State.pktWrite (s : State) (d cell : Nat) (b : List Byte) : State :=
  { s with pktMem := s.pktMem.write (arrPkt d) (bufKey d cell * 256) (b ++ List.replicate ((8 - b.length % 8) % 8) 0) }
def State.pktRead (s : State) (d cell off n : Nat) : List Byte := s.pktMem.read (arrPkt d) (bufKey d cell * 256 + off) n
def State.pktCode (s : State) (d cell off n : Nat) : Nat := s.pktMem.codes (arrPkt d) (bufKey d cell * 256 + off) n

/-- The cell of the first word with an uncorrectable error among `n` bytes from `off` of a buffer. -/
def State.pktUe (s : State) (d cell off n : Nat) : Nat := s.pktMem.first (arrPkt d) (bufKey d cell * 256 + off) n 2 / 32 % 2 ^ 18

/-- A read of a cell or of a link-array entry that meets an uncorrectable error is logged as class 2 with the cell index (R375). -/
def State.bufUe (s : State) (d cell : Nat) : State :=
  let synd := match tFind s.bufBad (bufKey d cell) with
    | some f => f.synd
    | none => s.pktMem.synd (arrPkt d) (s.pktMem.first (arrPkt d) (bufKey d cell * 256) 256 2)
  s.eccUe (bpmPage d) 2 synd cell

/-! ## Freeing (R364, R371) -/

/-- Pointers are appended to a pool's ring, oldest first. -/
def State.ringAppend (s : State) (d p : Nat) (l : List Nat) : State :=
  let k := s.poolCells d p
  l.foldl (fun s c =>
    let x := s.pool d p
    (s.ringPut d p (x.head + ringCount x.ring) c).modPool d p fun x => { x with ring := ringPush k c x.ring }) s

/-- Spill the 64 pointers freed least recently to the ring (R364). -/
def State.spill (s : State) (d p : Nat) : State :=
  let l := (s.pool d p).till
  let keep := l.length - 64
  (s.modPool d p fun x => { x with till := l.take keep }).ringAppend d p (l.drop keep).reverse

/-- Release one buffer: the pointer enters the Till, after a spill where the Till is full. -/
def State.releaseBuf (s : State) (d cell : Nat) : State :=
  match s.buf? d cell with
  | none => s
  | some b =>
    let s := { s with bufs := tDel s.bufs (bufKey d cell), bufBad := tDel s.bufBad (bufKey d cell) }
    let s := if 512 ≤ (s.pool d b.pool).till.length then s.spill d b.pool else s
    (((s.modPool d b.pool fun x => { x with till := cell :: x.till }).discharge d b.acct).relevel d b.pool).relevel d (s.acctPool d b.acct)

/-- Release a chain that hardware owns. A link-array entry that cannot be read stops the walk: its buffer and what follows it stay
allocated under their tag (R375). -/
def State.freeCells : Nat → State → Nat → Nat → State
  | 0, s, _, _ => s
  | k + 1, s, d, cell =>
    match s.link? d cell with
    | none => if s.linkBad d cell then s.bufUe d cell else s
    | some b =>
      let s := s.releaseBuf d cell
      match b.next with
      | some c => State.freeCells k s d c
      | none => s

/-- HANDLE (R361): its pool and cell, and a handle from them. -/
def hPool (h : Nat) : Nat := h / 2 ^ 26 % 64
def hCell (h : Nat) : Nat := h % 2 ^ 18
def mkHandle (p c : Nat) : Nat := p * 2 ^ 26 + c

/-- Release the frame that a handle names. -/
def State.freeFrame (s : State) (d h : Nat) : State := State.freeCells (s.bufs.length + 1) s d (hCell h)

/-- The first check of R371 that a pointer fails, or 0; 5 where its link-array entry cannot be read (R375). -/
def State.freeCheck (s : State) (d p c : Nat) : Nat :=
  let k := s.poolCells d p
  if !s.poolEn d p then 1
  else if c < s.poolBase d p ∨ s.poolBase d p + s.poolSize d p * k ≤ c then 2
  else if (c - s.poolBase d p) % k ≠ 0 then 3
  else if s.linkBad d c then 5
  else if (s.buf? d c).isNone then 4
  else 0

/-- Record a failing pointer (R371, R372): the counter, the log, the error. -/
def State.badFree (s : State) (d p c code owner : Nat) : State :=
  let a := fun i => ra (bpmPage d) (0x180 + 8 * i)
  let free := (List.range 8).find? fun i => !s.rb (a i) 31
  let i := free.getD ((s.pd d).badOld.headD 0)
  let s := s.bpmCnt d 0x130
  let s := if free.isNone then s.bumpF (ra (bpmPage d) 0x1C0) 15 0 1 else s
  let s := ((s.hwMark (a i) (maskOf 31 31)).setReg (a i) (nw (2 ^ 31 + code * 2 ^ 28 + c))).setReg (a i + 4) (nw (p * 2 ^ 16 + owner))
  let s := s.modPd d fun x => { x with badOld := x.badOld.erase i ++ [i] }
  s.err (bpmPage d) 0 0x11 code c

/-- FREE of a chain by software (R371): each pointer is checked before it is released; the code of the first failure. A link-array entry that
cannot be read stops the walk with code 5, as a failed check does; R372's log has no code for it, and it is recorded as class 2 alone: DESIGN
CHOICE (log entry 58). -/
def State.freeChain : Nat → State → Nat → Nat → Nat → Nat → Nat × State
  | 0, s, _, _, _, _ => (0, s)
  | k + 1, s, d, p, c, owner =>
    let e := s.freeCheck d p c
    if e = 5 then (5, s.bufUe d c)
    else if e ≠ 0 then (e, s.badFree d p c e owner)
    else
      let nx := (s.buf? d c).bind (·.next)
      let s := s.releaseBuf d c
      match nx with
      | some c' => State.freeChain k s d p c' owner
      | none => (0, s)

/-! ## Frames -/

/-- Store the bytes of a frame in buffers of an account, one at a time: the cells taken, or the refusal's counter offset. -/
def State.storeGo : Nat → State → Nat → Nat → OwnerId → List Byte → List Nat → Nat × List Nat × State
  | 0, s, _, _, _, _, cs => (0, cs, s)
  | k + 1, s, d, a, tag, b, cs =>
    if b = [] then (0, cs, s)
    else
      let p := s.acctPool d a
      let e := s.admission d a
      if e ≠ 0 then (e, cs, s)
      else
        match s.takeBuf d p a tag with
        | (none, s) => (0x120, cs, s)
        | (some c, s) =>
          let n := 256 * s.poolCells d p
          let s := s.pktWrite d c (b.take n)
          let s := s.putBuf d c { next := none, off := 0, cnt := min n b.length, tag := tag, acct := a, pool := p, poison := false }
          State.storeGo k s d a tag (b.drop n) (cs ++ [c])

/-- Link the buffers of a list into a chain. -/
def State.linkCells (s : State) (d : Nat) : List Nat → State
  | a :: b :: r =>
    let s := match s.buf? d a with
      | some x => s.putBuf d a { x with next := some b }
      | none => s
    State.linkCells s d (b :: r)
  | _ => s

/-- Store a frame (R366, R367): its handle, or none where a buffer is refused; the frame is then dropped whole and counted once. -/
def State.storeFrame (s : State) (d a : Nat) (tag : OwnerId) (b : List Byte) : Option Nat × State :=
  match State.storeGo (b.length / 256 + 2) s d a tag b [] with
  | (0, cs, s) => (some (mkHandle (s.acctPool d a) (cs.headD 0)), s.linkCells d cs)
  | (e, cs, s) => (none, (cs.foldl (fun s c => s.releaseBuf d c) s).bpmCnt d e)

/-- The cells of a chain. -/
def State.chain : Nat → State → Nat → Nat → List Nat
  | 0, _, _, _ => []
  | k + 1, s, d, c =>
    match s.link? d c with
    | none => []
    | some b => c :: (match b.next with | some n => State.chain k s d n | none => [])
def State.chainOf (s : State) (d h : Nat) : List Nat := State.chain (s.bufs.length + 1) s d (hCell h)

/-- The bytes of the frame that a handle names, as the link array gives them, and whether a read met an uncorrectable error. -/
def State.frameBytes (s : State) (d h : Nat) : List Byte × Bool :=
  (s.chainOf d h).foldl (fun a c =>
    match s.buf? d c with
    | some b => (a.1 ++ s.pktRead d c b.off b.cnt, a.2 || decide (s.pktCode d c b.off b.cnt = 2))
    | none => a) ([], false)

/-- The cell at which a read of a frame meets an uncorrectable error first: in its bytes, or in a link-array entry (R375). -/
def State.ueCell : Nat → State → Nat → Nat → Option Nat
  | 0, _, _, _ => none
  | k + 1, s, d, c =>
    match s.link? d c with
    | none => if s.linkBad d c then some c else none
    | some b =>
      if s.pktCode d c b.off b.cnt = 2 then some (s.pktUe d c b.off b.cnt)
      else match b.next with
        | some n => State.ueCell k s d n
        | none => none
def State.frameUe (s : State) (d h : Nat) : Option Nat := State.ueCell (s.bufs.length + 1) s d (hCell h)

/-- The poison bit of a frame; one whose head entry cannot be read is poisoned. -/
def State.framePoison (s : State) (d h : Nat) : Bool := s.linkBad d (hCell h) || ((s.buf? d (hCell h)).map (·.poison)).getD false

/-- Set the poison bit of a frame where `p` holds. -/
def State.setPoison (s : State) (d h : Nat) (p : Bool) : State :=
  match s.link? d (hCell h) with
  | some b => if p then s.putBuf d (hCell h) { b with poison := true } else s
  | none => s

/-- The correctable errors that soft errors have left in the first `n` bytes of a chain are logged (R449). -/
def State.frameCes : Nat → State → Nat → Nat → Nat → State
  | 0, s, _, _, _ => s
  | k + 1, s, d, c, n =>
    match s.link? d c with
    | none => s
    | some b =>
      let a := bufKey d c * 256 + b.off
      let m := min n b.cnt
      let s := (s.pktMem.hurt.filter fun e => decide (a / 8 ≤ e.1 ∧ e.1 < (a + m + 7) / 8 ∧ 0 < m) && !e.2.ue).foldl (fun s e =>
        s.eccCe (bpmPage d) (e.2.bit, e.2.synd) (8 * e.1 % 2 ^ 26)) s
      match b.next with
      | some x => State.frameCes k s d x (n - m)
      | none => s

/-- Read a frame: an uncorrectable error sets its poison bit and is logged as class 2 with the index of the cell that met it (R375). -/
def State.readFrame (s : State) (d h : Nat) : List Byte × Bool × State :=
  let u := State.frameCes (s.bufs.length + 1) s d (hCell h) 65536
  match s.frameUe d h with
  | some c => ((s.frameBytes d h).1, true, (u.setPoison d h true).bufUe d c)
  | none => ((s.frameBytes d h).1, s.framePoison d h, u)

/-- Retag every buffer of a chain. -/
def State.retagFrame (s : State) (d h : Nat) (tag : OwnerId) : State :=
  (s.chainOf d h).foldl (fun s c =>
    match s.buf? d c with
    | some b => s.putBuf d c { b with tag := tag }
    | none => s) s

/-- Replace the contents of a stored frame by bytes no longer than it, keeping as many of its buffers as they need. -/
def State.rewriteGo : Nat → State → Nat → List Nat → List Byte → State
  | 0, s, _, _, _ => s
  | _ + 1, s, _, [], _ => s
  | k + 1, s, d, c :: cs, b =>
    match s.buf? d c with
    | none => s
    | some x =>
      let n := 256 * s.poolCells d x.pool
      let s := s.pktWrite d c (b.take n)
      let rest := b.drop n
      let s := s.putBuf d c { x with off := 0, cnt := min n b.length, next := if rest = [] then none else cs.head? }
      if rest = [] then cs.foldl (fun s c => s.releaseBuf d c) s else State.rewriteGo k s d cs rest
def State.rewriteFrame (s : State) (d h : Nat) (b : List Byte) : State :=
  State.rewriteGo (b.length / 256 + 2) s d (s.chainOf d h) b

/-! ## Write-back (R362) -/

/-- Drop the first `n` bytes of a chain: the buffers that lie wholly before byte `n` are freed, and the buffer that holds it has
its offset adjusted. Answers the cell of the first buffer that stays. -/
def State.dropHead : Nat → State → Nat → Nat → Nat → Option Nat × State
  | 0, s, _, _, _ => (none, s)
  | k + 1, s, d, c, n =>
    match s.link? d c with
    | none => (none, if s.linkBad d c then s.bufUe d c else s)
    | some b =>
      if b.cnt ≤ n then
        match b.next with
        | some c' => State.dropHead k (s.releaseBuf d c) d c' (n - b.cnt)
        | none => (none, s.releaseBuf d c)
      else (some c, s.putBuf d c { b with off := b.off + n, cnt := b.cnt - n })

/-- The write-back: the first `n` bytes of the stored frame are replaced by the bytes `w`; the new handle, or none where the Till
is empty (TILL_DRY). A walk that a link-array entry stops leaves a frame that lacks its rest, which is poisoned (R375). -/
def State.writeBack (s : State) (d h n : Nat) (w : List Byte) : Option Nat × State :=
  let c := hCell h
  match s.buf? d c with
  | none => (some h, s)
  | some b0 =>
    if w = [] then
      match State.dropHead (s.bufs.length + 1) s d c n with
      | (some c', s) =>
        let s := match s.buf? d c' with
          | some b => s.putBuf d c' { b with poison := b0.poison }
          | none => s
        (some (mkHandle b0.pool c'), s)
      | (none, s) => (none, s)
    else
      match s.takeBuf d b0.pool b0.acct b0.tag with
      | (none, s) => (none, s.bpmCnt d 0x120)
      | (some c1, s) =>
        let cut := s.linkBad d c || (s.chainOf d h).any fun x => (s.buf? d x).any fun b => b.next.any fun y => s.linkBad d y
        let r := State.dropHead (s.bufs.length + 1) s d c n
        let s := r.2.pktWrite d c1 w
        (some (mkHandle b0.pool c1),
          s.putBuf d c1 { next := r.1, off := 0, cnt := w.length, tag := b0.tag, acct := b0.acct, pool := b0.pool, poison := b0.poison || cut })

/-! ## Engine owner IDs (R541) -/

/-- The owner ID of an engine: die 0 West, 1 East, 2 M-die; kind; instance. -/
def engine (die kind inst : Nat) : OwnerId := BitVec.ofNat 14 (0x2000 + die * 0x800 + kind * 64 + inst)

/-! ## Command rings (R304, R377) -/

/-- The base address of a command ring and its entries' number: Flow Table rings stand in CLS, BPM rings in BPM (`k` 4 to 7). -/
def aRing (d k : Nat) : Nat := if k < 4 then ra (pdPage d 0) (0x200 + 16 * k) else ra (bpmPage d) (0x140 + 16 * (k - 4))
def State.ringBase (s : State) (d k : Nat) : Nat := s.pair (aRing d k)
def State.ringSize (s : State) (d k : Nat) : Nat := 2 ^ s.rf (aRing d k + 8) 4 0
def ringStride (k : Nat) : Nat := if k < 4 then 128 else 32

/-- A ring is in use: its SIZE is legal. -/
def State.ringOn (s : State) (d k : Nat) : Bool := decide (4 ≤ s.rf (aRing d k + 8) 4 0 ∧ s.rf (aRing d k + 8) 4 0 ≤ 16)

/-- The indices of a ring: the next entry to execute, and PROD as last read. -/
def State.ringAt (s : State) (d k : Nat) : Nat × Nat := tGet (fun _ => (0, 0)) (s.pd d).rings k

/-- Read PROD of a ring. -/
def State.ringPoll (s : State) (d k : Nat) : State :=
  if s.ringOn d k ∧ s.dramRange (s.ringBase d k) 8 then
    let r := s.dramRead (s.ringBase d k) 4
    if r.2.1 then r.2.2
    else r.2.2.modPd d fun x => { x with rings := tSet (fun _ => (0, 0)) x.rings k ((s.ringAt d k).1, leNat r.1 % s.ringSize d k) }
  else s

/-- The device address of the entry at the head of a ring, when one is posted. -/
def State.ringHead (s : State) (d k : Nat) : Option Nat :=
  let i := s.ringAt d k
  if s.ringOn d k ∧ i.1 ≠ i.2 then some (s.ringBase d k + 128 + ringStride k * i.1) else none

/-- Complete the entry at the head of a ring: words are written from word 1 on, then CONS advances. -/
def State.ringDone (s : State) (d k : Nat) (e : Nat) (words : List Nat) : State :=
  let s := (s.dramWrite (e + 4) ((words.map (leBytes 4)).flatten)).2
  let i := (s.ringAt d k)
  let n := (i.1 + 1) % s.ringSize d k
  let s := s.modPd d fun x => { x with rings := tSet (fun _ => (0, 0)) x.rings k (n, i.2) }
  (s.dramWrite (s.ringBase d k + 4) (leBytes 4 n)).2

end Sys2Proof.Machine
end

