-- ==== Sys2Proof/Machine/ClusterMem.lean ====
section
/-! DEFINITION. The commands of the cluster memory and the data cache: fill mode, the host window, maintenance, and the
changes of CDC_CTRL and the aperture (R232 to R257). -/

namespace Sys2Proof.Machine

/-- Register `off` of a cluster's CMEM page. -/
def aCmem (c off : Nat) : Nat := ra (cluPage c 1) off

/-- The area of R232 that a CMEM address lies in: 0 general data, 1 key area, 2 record section, 3 program section. -/
def cmemArea (o : Nat) : Nat := if o < 0xC8000 then 0 else if o < 0xD8000 then 1 else if o < 0xE0000 then 2 else 3

/-- Writes to the program section are accepted while the CLU page is OFF or STOPPED (R234). -/
def State.progWritable (s : State) (c : Nat) : Bool := s.pgHalted (cluPage c 0)

/-- A refused write to the program section: counted, and the CMEM page raises its error event (R234). -/
def State.progRefuse (s : State) (c : Nat) : State := (s.bumpF (aCmem c 0x11C) 15 0 1).raise (cluPage c 1) 0

/-- CMEM_FILL (R236): GO with BUSY = 0 starts a fill that meets the conditions, or ends REFUSED. -/
def State.cmemFillGo (s : State) (c : Nat) : State :=
  let ctl := aCmem c 0x110
  let o := s.rf (aCmem c 0x100) 19 0
  let n := s.rf (aCmem c 0x104) 20 0
  if s.rb ctl 31 then s
  else
    let ok := decide (o % 8 = 0 ∧ n % 8 = 0 ∧ n ≠ 0 ∧ o + n ≤ 0x100000 ∧ cmemArea o = cmemArea (o + n - 1) ∧ cmemArea o ≠ 2)
    if !ok then s.setRf ctl 29 28 1
    else if cmemArea o = 3 ∧ !s.progWritable c then (s.setRf ctl 29 28 1).progRefuse c
    else ((s.setRb ctl 31 true).setRf ctl 29 28 0).setClu c fun k =>
      { k with fill := some { addr := o, len := n, pat := s.pair (aCmem c 0x108), start := s.cyc, done := 0 } }

/-- CMEM_FILL. -/
def execCmemFill (c : ClusterId) (s : State) : Host.Outcome State Fault Refusal := .next (s.domGate (domClu c.val) fun s => s.cmemFillGo c.val)

/-- The end of a fill: the pattern stands in the whole range with valid check bits but where A-port stores of the cycles of its pieces, or later
ones, wrote (R65, R236); RESULT is OK. Words of the program section that come while the CLU page runs are ignored and counted once (R234; log
entry 183). -/
def State.cmemFillEnd (s : State) (c : Nat) : State :=
  match (s.clu? c).fill with
  | none => s
  | some f =>
    let s := s.upToCyc f.last
    let s := if cmemArea f.addr = 3 ∧ !s.progWritable c then s.progRefuse c else s.fillTo c s.cyc
    ((s.setClu c fun k => { k with fill := none }).setRb (aCmem c 0x110) 31 false).setRf (aCmem c 0x110) 29 28 0

/-- CMEM_FILL_DONE. -/
def execCmemFillDone (c : ClusterId) (s : State) : Host.Outcome State Fault Refusal := .next (s.cmemFillEnd c.val)

/-- Zeroization of the key area: zeros with valid check bits, and a running fill ends with RESULT = ZEROIZED (R235). Accesses of earlier core
cycles to the area are not taken back any more; those of later ones find it zeroized. -/
def State.cmemZeroize (s : State) (c : Nat) : State :=
  let s := match (s.clu? c).fill with
    | none => s
    | some f =>
      let s := if cmemArea f.addr = 3 then s else s.fillTo c s.cyc
      ((s.setRb (aCmem c 0x110) 31 false).setRf (aCmem c 0x110) 29 28 2).setClu c fun k => { k with fill := none }
  let lo := cmemAt c 0xC8000 / 8
  let hi := cmemAt c 0xD8000 / 8
  s.atPort c (s.cyc + 1) (s.cyc + 1) fun s =>
    (s.setClu c fun k =>
      { k with acc := k.acc.filter fun a => !inKeyArea a.addr,
               bacc := k.bacc.map fun b =>
                 { b with parts := b.parts.filter fun p => !inKeyArea p.1, saved := b.saved.filter fun e => !decide (lo ≤ e.1 ∧ e.1 < hi) } }).cmemPut c
      0xC8000 (List.replicate 0x10000 0)

/-- A read of word `i` of the host window (R235, R240): the word and the state after. -/
def State.cmemWinRead (s : State) (c i : Nat) : Word × State :=
  let o := s.rf (aCmem c 0x114) 19 11 * 2048 + 4 * i
  if inKeyArea o then (0, s.bumpF (aCmem c 0x118) 15 0 1)
  else
    let r := (s.fillTo c s.cyc).bRead c s.cyc (s.cyc + 1) o 4
    if r.2.1 = 2 then (0xFFFFFFFF, s.cmemUe c o) else (leWord r.1, r.2.2)

/-- A write of word `i` of the host window: merged into its 8-byte word, or dropped and logged over a UE (R234, R235, R240); lost where an
A-port store of the same core cycle writes that word (R65). -/
def State.cmemWinWrite (s : State) (c i : Nat) (v : Word) : State :=
  let o := s.rf (aCmem c 0x114) 19 11 * 2048 + 4 * i
  if inKeyArea o then s.bumpF (aCmem c 0x118) 15 0 1
  else if cmemArea o = 3 ∧ !s.progWritable c then s.progRefuse c
  else
    let s := if cmemArea o = 3 then s else s.fillTo c s.cyc
    if s.cmemMergeOk c o 4 then
      s.bPut c { g := s.cyc, who := 5, parts := [(o, leBytes 4 v.toNat)], merge := false, code := 0, stat := none, thread := none, saved := [] }
    else s.cmemUe c o

/-- CMEM_WIN_ACCESS: a read puts the word out; it reads 0 while the cluster's domain is not ON (R487). -/
def execCmemWinAccess (c : ClusterId) (off : Fin 512) (write : Option Word) (s : State) : Host.Outcome State Fault Refusal :=
  match write with
  | some v => .next (s.domGate (domClu c.val) fun s => s.cmemWinWrite c.val off.val v)
  | none =>
    let r := if s.domIsOn (domClu c.val) then s.cmemWinRead c.val off.val else (0, s)
    .next (r.2.emit (.data r.1))

/-- CLEAN (R248): write back the line if dirty; keep it. -/
def execClean (c : ClusterId) (src : Option ThreadId) (s : State) : Host.Outcome State Fault Refusal :=
  .next (s.runMaint c.val (src.map (·.val)) 1)

/-- INVAL (R248): discard the line. -/
def execInval (c : ClusterId) (src : Option ThreadId) (s : State) : Host.Outcome State Fault Refusal :=
  .next (s.runMaint c.val (src.map (·.val)) 2)

/-- FLUSH (R248): CLEAN, then invalidate. -/
def execFlush (c : ClusterId) (src : Option ThreadId) (s : State) : Host.Outcome State Fault Refusal :=
  .next (s.runMaint c.val (src.map (·.val)) 3)

/-- FLUSH_ALL (R248). -/
def execFlushAll (c : ClusterId) (src : Option ThreadId) (s : State) : Host.Outcome State Fault Refusal :=
  .next (s.runMaint c.val (src.map (·.val)) 4)

/-- INVAL_ALL (R248): in OFF and STOPPED only; otherwise REFUSED. -/
def execInvalAll (c : ClusterId) (src : Option ThreadId) (s : State) : Host.Outcome State Fault Refusal :=
  .next (s.runMaint c.val (src.map (·.val)) 5)

/-- SYNC (R248): waits for every writeback issued before it; CDC_STAT.SYNC_BUSY shows it. -/
def execSync (c : ClusterId) (src : Option ThreadId) (s : State) : Host.Outcome State Fault Refusal :=
  .next (s.runMaint c.val (src.map (·.val)) 6)

/-- WRITEBACK_ACK (R244): the oldest writeback lands in DRAM and is acknowledged. -/
def execWritebackAck (c : ClusterId) (s : State) : Host.Outcome State Fault Refusal := .next (s.ackWb c.val)

/-- A write to CDC_CTRL (R245, R246, R253): refused with BAD_SPM for more than 4 ways or a window that would reach
0xFFFF_E000; otherwise ways taken from the cache, or all of them where EN falls, are flushed before the fields take the value. A flush
that meets a class 3 error stops, FLUSHING stays 0 and the fields keep their values (R253). -/
def State.cdcCtrlWrite (s : State) (c : Nat) (v : Word) : State :=
  let a := aCdc c 0x100
  let pg := cluPage c 2
  let n := s.spmWays c
  let n' := fld v 6 4
  if !s.pgHalted pg then s.writeReg a v
  else if (s.clu? c).needFlush.isSome then s
  else if 4 < n' ∨ 0xFFFFE000 < (s.rf (aCdc c 0x110) 15 0 + n') * 65536 then s.err pg 0 4 n' 0
  else if s.cdcEn c ∧ (n < n' ∨ !bit v 0) then
    let p := fun (w : Nat) => !bit v 0 || decide (8 - n' ≤ w)
    let t := if bit v 0 then s.flushWays c p else s.flushAll c
    if (if bit v 0 then s.flushStuck c p else s.flushAllStuck c) then t
    else
      let s := t
      let f : Flush := { reg := a, value := v, wait := (s.clu? c).wbs.length }
      (s.setRb (aCdc c 0x104) 30 true).setClu c fun k => { k with needFlush := some f }
  else
    let s := (s.writeReg a v).spmClear c fun w => decide (w < 8 - n' ∨ w < 8 - n)
    if n < n' then s.setClu c fun k => { k with zeroing := some (s.cyc + 1056) } else s

/-- SPM_WAYS_CHANGE. -/
def execSpmWaysChange (c : ClusterId) (value : Word) (s : State) : Host.Outcome State Fault Refusal :=
  .next (s.domGate (domClu c.val) fun s => s.cdcCtrlWrite c.val value)

/-- CACHE_DISABLE (R253): EN is written 0. -/
def execCacheDisable (c : ClusterId) (s : State) : Host.Outcome State Fault Refusal :=
  .next (s.domGate (domClu c.val) fun s => s.cdcCtrlWrite c.val (setBit (s.reg (aCdc c.val 0x100)) 0 false))

/-- A write to CDC_APER_BASE or CDC_APER_LIMIT (R254): the cache ways are flushed and invalidated first. -/
def State.aperWrite (s : State) (c off : Nat) (v : Word) : State :=
  let a := aCdc c off
  if !s.pgHalted (cluPage c 2) then s.writeReg a v
  else if (s.clu? c).needFlush.isSome then s
  else if s.flushAllStuck c then s.flushAll c
  else
    let s := s.flushAll c
    let f : Flush := { reg := a, value := v, wait := (s.clu? c).wbs.length }
    (s.setRb (aCdc c 0x104) 30 true).setClu c fun k => { k with needFlush := some f }

/-- APERTURE_CHANGE. -/
def execApertureChange (c : ClusterId) (limit : Bool) (value : Word) (s : State) : Host.Outcome State Fault Refusal :=
  .next (s.domGate (domClu c.val) fun s => s.aperWrite c.val (if limit then 0x10C else 0x108) value)

/-- REQUIRED_FLUSH_DONE (R246, R253, R255): every writeback of the flush has been acknowledged, FLUSHING clears, the value
takes effect, the ways taken are zeroed in 1,056 core cycles, and the ways returned hold no line. -/
def State.flushDone (s : State) (c : Nat) : State :=
  match (s.clu? c).needFlush with
  | none => s
  | some f =>
    let s := State.ackAll f.wait s c
    let n := s.spmWays c
    let s := (s.setRb (aCdc c 0x104) 30 false).setClu c fun k => { k with needFlush := none }
    let s := s.setReg f.reg (f.value &&& (((regDef? f.reg).map (·.rwS)).getD 0))
    let n' := s.spmWays c
    let s := s.spmClear c fun w => decide (w < 8 - n' ∨ w < 8 - n)
    if n < n' then s.setClu c fun k => { k with zeroing := some (s.cyc + 1056) } else s

/-- REQUIRED_FLUSH_DONE. -/
def execRequiredFlushDone (c : ClusterId) (s : State) : Host.Outcome State Fault Refusal := .next (s.flushDone c.val)

/-- A write to CDC_SPM_BASE: refused with BAD_SPM when the window would reach 0xFFFF_E000 (R245). -/
def State.spmBaseWrite (s : State) (c : Nat) (v : Word) : State :=
  if s.pgHalted (cluPage c 2) ∧ 0xFFFFE000 < (fld v 15 0 + s.spmWays c) * 65536 then
    s.err (cluPage c 2) 0 4 (fld v 15 0) 0
  else s.writeReg (aCdc c 0x110) v

/-- The reset invalidation begins (R247): every line and victim entry is gone, dirty data is discarded, and CDC_CTRL has its
reset value; INVALIDATING reads 1 until 1,056 core cycles have passed. -/
def State.cdcInvalidate (s : State) (c : Nat) : State :=
  let s := { s with lines := s.lines.filter fun e => decide (e.1 / 8192 ≠ c) }.spmClear c fun _ => true
  let s := s.setClu c fun k => { k with victim := [], wbs := [], maint := [], needFlush := none, zeroing := none, invEnd := some (s.cyc + 1056) }
  ((s.setReg (aCdc c 0x100) 1).setReg (aCdc c 0x104) 0x80000000).setRb (aCdc c 0x118) 31 false

/-- The reset invalidation is complete: INVALIDATING reads 0 (R247). -/
def State.invalidated (s : State) (c : Nat) : State :=
  (s.setRb (aCdc c 0x104) 31 false).setClu c fun k => { k with invEnd := none }

/-- INVALIDATION_DONE (R247): 1,056 core cycles after its start, INVALIDATING clears; with none in progress, nothing is left to end. -/
def execInvalidationDone (c : ClusterId) (s : State) : Host.Outcome State Fault Refusal :=
  match (s.clu? c.val).invEnd with
  | none => .next s
  | some e => .next ((s.upToCyc e).invalidated c.val)

/-- The dirty lines of a cluster's cache ways (CDC_STAT.DIRTY). -/
def State.dirtyLines (s : State) (c : Nat) : Nat :=
  (s.lines.filter fun e => decide (e.1 / 8192 = c) && e.2.dirty).length

/-- CDC_STAT as it reads (R256). -/
def State.cdcStat (s : State) (c : Nat) : Word :=
  let k := s.clu? c
  let zero := match k.zeroing with | some e => decide (s.cyc < e) | none => false
  let sync := k.maint.any fun m => decide (m.code = 6 ∧ m.wait.isSome)
  let v := s.reg (aCdc c 0x104)
  setFld (setFld (setBit (setBit v 29 zero) 28 sync) 20 16 k.victim.length) 13 0 (s.dirtyLines c)

end Sys2Proof.Machine
end

