-- ==== Sys2Proof/Machine/Flags.lean ====
section
/-! DEFINITION. The arithmetic of the core units and every flag it computes: IA and IB, MU, DV, BF, GU, CK (R115 to R128). -/

namespace Sys2Proof.Machine

/-- What an arithmetic operation gives: its result, the carry where it writes one, and whether it sets OV. -/
structure AluOut where
  r     : Word
  carry : Option Bool
  ov    : Bool
  deriving DecidableEq, Repr

/-- A signed value lies outside the 32-bit range. -/
def sOver (i : Int) : Bool := decide (i < -(2 ^ 31 : Nat) ∨ (2 ^ 31 : Nat) ≤ i)

/-- A sum of two operands and a carry in. -/
def aluAdd (t o : Word) (c : Bool) : AluOut :=
  let n := t.toNat + o.toNat + b2n c
  { r := nw n, carry := some (decide (2 ^ 32 ≤ n)), ov := sOver (t.toInt + o.toInt + b2n c) }

/-- A difference with a borrow in; the carry is the borrow. -/
def aluSub (t o : Word) (c : Bool) : AluOut :=
  { r := iw (t.toInt - o.toInt - b2n c), carry := some (decide (t.toNat < o.toNat + b2n c)), ov := sOver (t.toInt - o.toInt - b2n c) }

/-- An operation that writes neither carry nor OV. -/
def aluPlain (r : Word) : AluOut := { r := r, carry := none, ov := false }

/-- IA and IB (R120): t is the trigger value, o the operand, c the carry. -/
def aluOp (x : Nat) (t o : Word) (c : Bool) : AluOut :=
  match x with
  | 0 => aluAdd t o false
  | 1 => aluSub t o false
  | 2 => aluSub 0 t false
  | 3 => aluPlain (t &&& o)
  | 4 => aluPlain (t ||| o)
  | 5 => aluPlain (t ^^^ o)
  | 6 => aluPlain (t &&& ~~~ o)
  | 7 => aluAdd t o c
  | 8 => aluSub t o c
  | 9 => aluPlain (if t.toInt ≤ o.toInt then t else o)
  | 10 => aluPlain (if t.toInt ≤ o.toInt then o else t)
  | 11 => aluPlain (if t.toNat ≤ o.toNat then t else o)
  | 12 => aluPlain (if t.toNat ≤ o.toNat then o else t)
  | 13 => aluPlain t
  | _ => { r := if t.toInt < 0 then iw (-t.toInt) else t, carry := none, ov := decide (t = 0x80000000) }

/-- MU (R121): the low and high words of the product, and whether OV is set. -/
def mulOp (x : Nat) (t o : Word) : Word × Word × Bool :=
  match x with
  | 1 =>
    let n := t.toNat * o.toNat
    (nw n, nw (n / 2 ^ 32), decide (2 ^ 32 ≤ n))
  | 2 =>
    let i := t.toInt * (o.toNat : Int)
    (iw i, iw (i / (2 ^ 32 : Nat)), sOver i)
  | _ =>
    let i := t.toInt * o.toInt
    (iw i, iw (i / (2 ^ 32 : Nat)), sOver i)

/-- DV (R122, R123): quotient, remainder, OV, DZ. A division by zero gives quotient −1 for a dividend of 0 or more and +1 for a
negative one (divs), all ones (divu), and the dividend as remainder. -/
def divOp (x : Nat) (t o : Word) : Word × Word × Bool × Bool :=
  if o = 0 then
    if x = 0 ∧ t.toInt < 0 then (1, t, false, true) else (0xFFFFFFFF, t, false, true)
  else if x = 0 then
    (iw (Int.tdiv t.toInt o.toInt), iw (Int.tmod t.toInt o.toInt), sOver (Int.tdiv t.toInt o.toInt), false)
  else (nw (t.toNat / o.toNat), nw (t.toNat % o.toNat), false, false)

/-- The number of leading 0 bits. -/
def clz (t : Word) : Nat := ((List.range 32).find? fun i => t.toNat.testBit (31 - i)).getD 32

/-- The number of trailing 0 bits. -/
def ctz (t : Word) : Nat := ((List.range 32).find? fun i => t.toNat.testBit i).getD 32

/-- A shift to the right with sign fill (R124). -/
def sarWord (t : Word) (n : Nat) : Word := iw (t.toInt / (2 ^ n : Nat))

/-- A rotate to the left. -/
def rolWord (t : Word) (n : Nat) : Word := nw (t.toNat * 2 ^ (n % 32) + t.toNat / 2 ^ (32 - n % 32))

/-- BF (R124, R125): o is BF.o, f is BF.f. -/
def bfOp (x : Nat) (t o f : Word) : Word :=
  let n := o.toNat % 256
  let pos := fld f 4 0
  let len := fld f 12 8 + 1
  let ext := t.toNat / 2 ^ pos % 2 ^ len
  match x with
  | 0 => nw (if 32 ≤ n then 0 else t.toNat * 2 ^ n)
  | 1 => nw (t.toNat / 2 ^ n)
  | 2 => sarWord t n
  | 3 => rolWord t n
  | 4 => rolWord t (32 - n % 32)
  | 5 => nw ext
  | 6 => iw (toSigned len ext)
  | 7 =>
    let m : Word := nw ((2 ^ len - 1) * 2 ^ pos)
    (o &&& ~~~ m) ||| (nw (t.toNat % 2 ^ len * 2 ^ pos) &&& m)
  | 8 => leWord (beBytes 4 t.toNat)
  | 9 => nw (fld t 23 16 * 2 ^ 24 + fld t 31 24 * 2 ^ 16 + fld t 7 0 * 2 ^ 8 + fld t 15 8)
  | 10 => nw (popCount 32 t.toNat)
  | 11 => nw (clz t)
  | _ => nw (ctz t)

/-- GU (R126). -/
def guOp (x : Nat) (t o : Word) : Bool :=
  match x with
  | 0 => decide (t = o)
  | 1 => decide (t ≠ o)
  | 2 => decide (t.toNat < o.toNat)
  | 3 => decide (o.toNat ≤ t.toNat)
  | 4 => decide (t.toInt < o.toInt)
  | 5 => decide (o.toInt ≤ t.toInt)
  | 6 => decide (t &&& o ≠ 0)
  | _ => decide (t &&& o = 0)

/-- Add the end-around carries of a ones' complement sum of at most five 16-bit terms until it fits 16 bits (R127). -/
def fold16 (n : Nat) : Nat :=
  let a := n % 65536 + n / 65536
  a % 65536 + a / 65536

/-- The ones' complement of 16 bits. -/
def not16 (n : Nat) : Nat := 65535 - n % 65536

/-- CK (R127): h is CK.h, o is CK.o. -/
def ckOp (x : Nat) (t h o : Word) : Word :=
  let lo (w : Word) := fld w 15 0
  let hi (w : Word) := fld w 31 16
  match x with
  | 0 => nw (not16 (fold16 (not16 (lo h) + not16 (lo o) + lo t)))
  | 1 => nw (not16 (fold16 (not16 (lo h) + not16 (hi o) + not16 (lo o) + hi t + lo t)))
  | 2 => nw (fold16 (lo h + hi t + lo t))
  | _ => nw (not16 (lo t))

end Sys2Proof.Machine
end

