-- ==== Sys2Proof/Machine/Operands.lean ====
section
/-! DEFINITION. The move set's encoding and its operand forms: issue words, the destination and source sockets, and the checks
at issue (R81 to R107, R592). -/

namespace Sys2Proof.Machine

/-- One move of an issue word. `imm` is the immediate, sign-extended or full; none where SRC names a socket. -/
structure Mv where
  g   : Nat
  imm : Option Word
  src : Nat
  dst : Nat
  x   : Nat
  deriving DecidableEq, Repr

/-- What an issue word is (R81, R96). -/
inductive WordKind where
  | pair (a b : Mv)
  | imm (m : Mv)
  | rep (g n : Nat)
  | repRc (g cap : Nat)
  | span (s : Nat)
  | bad
  deriving DecidableEq, Repr

/-- A short move from its 31 bits (R83, R89). -/
def shortMv (n : Nat) : Mv :=
  { g := bitsOf n 30 27, imm := if n.testBit 26 then some (iw (toSigned 12 (bitsOf n 25 14))) else none,
    src := bitsOf n 25 14, dst := bitsOf n 13 4, x := bitsOf n 3 0 }

/-- The reading of an issue word (R82 to R84, R96). -/
def wordKind (w : IssueWord) : WordKind :=
  let n := w.toNat
  if n.testBit 63 then .pair (shortMv (bitsOf n 62 32)) (shortMv (bitsOf n 30 0))
  else
    let g := bitsOf n 62 59
    match bitsOf n 44 40 with
    | 0 => .imm { g := g, imm := some (nw n), src := 0, dst := bitsOf n 58 49, x := bitsOf n 48 45 }
    | 1 => .rep g (bitsOf n 15 0)
    | 2 => .repRc g (bitsOf n 15 0)
    | 3 => .span (bitsOf n 15 0)
    | _ => .bad

/-- The moves of a word. -/
def WordKind.moves : WordKind → List Mv
  | .pair a b => [a, b]
  | .imm m => [m]
  | _ => []

/-! ## Building words (R82 to R84) -/

/-- The 31 bits of a short move. -/
def ShortMove.bits (m : ShortMove) : Nat :=
  m.g.toNat * 2 ^ 27 + m.i.toNat * 2 ^ 26 + m.src.toNat * 2 ^ 14 + m.dst.toNat * 2 ^ 4 + m.x.toNat

/-- A paired word. -/
def pairWord (a b : ShortMove) : IssueWord := BitVec.ofNat 64 (2 ^ 63 + ShortMove.bits a * 2 ^ 32 + ShortMove.bits b)

/-- A long word. -/
def longWord (g dst x k imm : Nat) : IssueWord :=
  BitVec.ofNat 64 (g * 2 ^ 59 + dst * 2 ^ 49 + x * 2 ^ 45 + k * 2 ^ 40 + imm)

/-- The word in which the move to socket `dst` with modifier `x` stands as its form says. -/
def formWord (f : MoveForm) (dst x : Nat) : IssueWord :=
  match f with
  | .slotA g i src o => pairWord { g := g, i := i, src := src, dst := BitVec.ofNat 10 dst, x := BitVec.ofNat 4 x } o
  | .slotB g i src o => pairWord o { g := g, i := i, src := src, dst := BitVec.ofNat 10 dst, x := BitVec.ofNat 4 x }
  | .long g imm => longWord g.toNat dst x 0 imm.toNat

/-! ## Sockets -/

/-- The reserved extension block (R95). -/
def inExt (k : Nat) : Bool := decide (0x340 ≤ k ∧ k ≤ 0x37F)

/-- The trigger sockets of R104 to R106. -/
def isTrigger (d : Nat) : Bool :=
  [0x041, 0x051, 0x061, 0x071, 0x081, 0x092, 0x0A1, 0x0B1, 0x0C0, 0x0E1, 0x0E2, 0x0F0, 0x109, 0x10A,
   0x380, 0x381, 0x382, 0x383, 0x385, 0x390, 0x391, 0x392, 0x393, 0x394, 0x395, 0x3A0, 0x3A1, 0x3B2].contains d
    || decide (0x0D8 ≤ d ∧ d ≤ 0x0DF) || decide (0x300 ≤ d ∧ d ≤ 0x33F ∧ d % 16 ≤ 2)

/-- The operand sockets of R104 and R105. -/
def isOperand (d : Nat) : Bool :=
  [0x040, 0x050, 0x060, 0x062, 0x070, 0x080, 0x090, 0x091, 0x0A0, 0x0B0, 0x0D0, 0x0E0, 0x108, 0x384, 0x3B0, 0x3B1].contains d
    || decide (0x100 ≤ d ∧ d ≤ 0x107)

/-- A destination that R103 to R106 name. -/
def dstNamed (d : Nat) : Bool :=
  decide (d ≤ 0x027) || isTrigger d || isOperand d || decide (d = 0x3FF) || inExt d

/-- A source that R107 names. -/
def srcNamed (k : Nat) : Bool :=
  decide (k ≤ 0x027) || decide (0x030 ≤ k ∧ k ≤ 0x03F)
    || [0x040, 0x050, 0x060, 0x070, 0x071, 0x080, 0x081, 0x090, 0x0A0, 0x0B0, 0x0C8, 0x0F0, 0x108, 0x300, 0x310, 0x320, 0x330,
        0x380, 0x381, 0x384, 0x386, 0x390, 0x396, 0x397, 0x398, 0x3B0, 0x3B1, 0x3B2, 0x3B3].contains k
    || decide (0x0C0 ≤ k ∧ k ≤ 0x0C7) || decide (0x0E0 ≤ k ∧ k ≤ 0x0EF) || decide (0x100 ≤ k ∧ k ≤ 0x107) || inExt k

/-- The highest X code of a trigger socket (R91, R105, R114, R163, R174, R176, R185). -/
def maxX (d : Nat) : Nat :=
  match d with
  | 0x041 => 14 | 0x051 => 14 | 0x061 => 12 | 0x071 => 2 | 0x081 => 1 | 0x092 => 3 | 0x0A1 => 7 | 0x0B1 => 7 | 0x0C0 => 1
  | 0x0E1 => 15 | 0x0E2 => 15 | 0x0F0 => 3 | 0x109 => 15 | 0x10A => 2 | 0x380 => 1 | 0x381 => 1 | 0x390 => 1
  | _ => if 0x0D8 ≤ d ∧ d ≤ 0x0DF then 7 else if 0x300 ≤ d ∧ d ≤ 0x33F then 15 else 0

/-- The unit that a destination triggers: its block of sixteen sockets (R92, R104). -/
def unitOf (d : Nat) : Option Nat := if isTrigger d then some (d / 16) else none

/-- The guard that a destination writes (R92 condition 3). -/
def guardOf (d : Nat) : Option Nat :=
  if 0x020 ≤ d ∧ d ≤ 0x027 then some (d - 0x020) else if 0x0D8 ≤ d ∧ d ≤ 0x0DF then some (d - 0x0D8) else none

/-- Source `k` is a result socket of unit `u` (R592). -/
def isResultOf (u k : Nat) : Bool :=
  match u with
  | 0x04 => k = 0x040 | 0x05 => k = 0x050 | 0x06 => k = 0x060 | 0x07 => k = 0x070 || k = 0x071
  | 0x08 => k = 0x080 || k = 0x081 | 0x09 => k = 0x090 | 0x0A => k = 0x0A0 | 0x0B => k = 0x0B0
  | 0x0C => decide (0x0C0 ≤ k ∧ k ≤ 0x0C8) | 0x0D => decide (0x020 ≤ k ∧ k ≤ 0x027)
  | 0x0E => decide (0x0E0 ≤ k ∧ k ≤ 0x0EF) | 0x0F => k = 0x0F0 | 0x10 => decide (0x100 ≤ k ∧ k ≤ 0x108)
  | 0x38 => k = 0x380 || k = 0x381 || k = 0x386 | 0x39 => k = 0x390 | 0x3A => decide (0x030 ≤ k ∧ k ≤ 0x03F)
  | 0x3B => k = 0x3B2
  | _ => decide (0x30 ≤ u ∧ u ≤ 0x33) && decide (k = 16 * u)

/-- SRC names a socket (I = 0) and the socket is `p`. -/
def Mv.reads (m : Mv) (p : Nat → Bool) : Bool := m.imm.isNone && p (m.src % 1024)

/-! ## Checks at issue (R94) -/

/-- Conditions 7 to 9 of one move. -/
def badDst (m : Mv) : Bool := !dstNamed m.dst
def badSrc (m : Mv) : Bool := m.imm.isNone && decide (m.src < 1024) && !srcNamed m.src
def badX (m : Mv) : Bool := if isTrigger m.dst then decide (maxX m.dst < m.x) else !inExt m.dst && decide (m.x ≠ 0)

/-- Condition 5 (RSVD_BIT) of a word. -/
def rsvdBit (w : IssueWord) : Bool :=
  let n := w.toNat
  match wordKind w with
  | .pair a b => n.testBit 31 || (a.imm.isNone && decide (1024 ≤ a.src)) || (b.imm.isNone && decide (1024 ≤ b.src))
  | .imm _ => decide (bitsOf n 39 32 ≠ 0)
  | .bad => decide (bitsOf n 39 32 ≠ 0)
  | .span _ => decide (bitsOf n 39 32 ≠ 0 ∨ bitsOf n 58 45 ≠ 0 ∨ bitsOf n 62 59 ≠ 0 ∨ bitsOf n 31 16 ≠ 0)
  | _ => decide (bitsOf n 39 32 ≠ 0 ∨ bitsOf n 58 45 ≠ 0 ∨ bitsOf n 31 16 ≠ 0)

/-- Conditions 1 to 4 of a word (R92). -/
def pairBad (w : IssueWord) : Option Nat :=
  match wordKind w with
  | .pair a b =>
    if a.dst = b.dst ∧ a.dst ≠ 0x3FF then some 1
    else if (unitOf a.dst).isSome ∧ unitOf a.dst = unitOf b.dst then some 2
    else if (guardOf a.dst).isSome ∧ guardOf a.dst = guardOf b.dst then some 3
    else
      match unitOf a.dst with
      | some u => if b.reads (isResultOf u) then some 4 else none
      | none => none
  | _ => none

/-- A repeat body may not be a prefix or a marker, nor trigger a CU socket or fork, join, yield, wait or exit; it may write CU.rc (R97). -/
def badBody (w : IssueWord) : Bool :=
  match wordKind w with
  | .rep _ _ => true
  | .repRc _ _ => true
  | .span _ => true
  | k => k.moves.any fun m => decide (0x380 ≤ m.dst ∧ m.dst ≤ 0x385 ∧ m.dst ≠ 0x384) || [0x390, 0x391, 0x392, 0x393, 0x395].contains m.dst

/-- The lowest-numbered failing condition of R94, for a word that issues in packet mode or not, as the first issue of a
repeat body or not, at slot 0 of a packet program or not. -/
def illegal (w : IssueWord) (pkt body slot0 : Bool) : Option Nat :=
  match pairBad w with
  | some n => some n
  | none =>
    let ms := (wordKind w).moves
    if rsvdBit w then some 5
    else if wordKind w = .bad then some 6
    else if ms.any badDst then some 7
    else if ms.any badSrc then some 8
    else if ms.any badX then some 9
    else if body && badBody w then some 10
    else
      match wordKind w with
      | .span _ => if pkt && !slot0 then some 11 else none
      | .repRc _ cap => if pkt && decide (cap = 0) then some 12 else none
      | _ => if pkt && ms.any (fun m => [0x390, 0x391, 0x392, 0x393, 0x395].contains m.dst) then some 13 else none

/-- A word that touches the extension block (R95). -/
def unpopulated (w : IssueWord) : Bool := (wordKind w).moves.any fun m => inExt m.dst || m.reads inExt

/-- The guard of R86 against the guards p0 to p7. -/
def guardTrue (g : Nat) (p : BitVec 8) : Bool :=
  if g = 0 then true else if g ≤ 8 then p.toNat.testBit (g - 1) else !p.toNat.testBit (g - 8)

end Sys2Proof.Machine
end

