-- ==== Sys2Proof/Machine/Teller.lean ====
section
/-! DEFINITION. The Teller: TCBs, the Ledger, staging, ready lists, placement, saving and restoring (R214 to R231). -/

namespace Sys2Proof.Machine

/-- Register `off` of a region's TEL page. -/
def aTel (r off : Nat) : Nat := ra (rgnPage r 0) off

/-- What the Teller holds of TCB `n` of region `r`. -/
def State.tcb (s : State) (r n : Nat) : Tcb := tGet (fun _ => Tcb.fresh) s.tcbs (r * 4096 + n)

/-- The DRAM address of byte `o` of a TCB (R214). -/
def State.tcbAddr (s : State) (r n o : Nat) : Nat :=
  (s.rf (aTel r 0x104) 31 12 * 4096 + (s.reg (aTel r 0x108)).toNat * 2 ^ 32) + 512 * n + o

/-- Write words of a TCB in DRAM. -/
def State.tcbWrite (s : State) (r n o : Nat) (ws : List Word) : State :=
  (s.dramWrite (s.tcbAddr r n o) (ws.flatMap fun w => leBytes 4 w.toNat)).2

/-- Hold a TCB's new CTRL and PLACE, and write them back to DRAM (R217). -/
def State.putTcb (s : State) (r n : Nat) (x : Tcb) : State :=
  ({ s with tcbs := tSet (fun _ => Tcb.fresh) s.tcbs (r * 4096 + n) x }).tcbWrite r n 0 [x.ctrl, x.place]

/-- CTRL fields (R216). -/
def Tcb.state (x : Tcb) : Nat := fld x.ctrl 23 20
def Tcb.prio (x : Tcb) : Nat := fld x.ctrl 29 24
def Tcb.quantum (x : Tcb) : Nat := fld x.ctrl 15 0
def Tcb.wakePend (x : Tcb) : Bool := bit x.ctrl 30
def Tcb.setState (x : Tcb) (n : Nat) : Tcb := { x with ctrl := setFld x.ctrl 23 20 n }

/-- A Ledger record (R229), written or lost as R230 says. -/
def State.ledger (s : State) (r type reason tcb prio ctx aux : Nat) : State :=
  if !s.rb (aTel r 0x100) 0 then s
  else
    let size := 2 ^ s.rf (aTel r 0x138) 4 0
    let wr := s.rf (aTel r 0x13C) 19 0
    let rd := s.rf (aTel r 0x140) 19 0
    let seq := (s.teller r).seq
    let full := decide ((wr + 1) % size = rd % size)
    let s := s.setTeller r fun t => { t with seq := t.seq + 1 }
    let s := if full then s.bump (aTel r 0x144) else s
    if full && s.rb (aTel r 0x100) 1 then s
    else
      let s := if full then s.setRf (aTel r 0x140) 19 0 ((rd + 1) % size) else s
      let base := s.rf (aTel r 0x130) 31 12 * 4096 + (s.reg (aTel r 0x134)).toNat * 2 ^ 32
      let b := leBytes 8 s.tb ++ leBytes 4 (type * 2 ^ 24 + reason * 2 ^ 16 + tcb) ++ leBytes 4 (prio * 2 ^ 24 + ctx)
        ++ leBytes 4 aux ++ leBytes 4 seq ++ List.replicate 8 0
      (s.dramWrite (base + 32 * wr) b).2.setRf (aTel r 0x13C) 19 0 ((wr + 1) % size)

/-- Put a TCB at the tail, or the head, of its ready level (R222, R223); a SETPRIO that waits takes effect (R218; log entry 192). -/
def State.makeReady (s : State) (r n : Nat) (head : Bool) : State :=
  let x := (s.tcb r n).setState 1
  let p := x.newPrio.getD x.prio
  (s.putTcb r n { x with ctrl := setFld x.ctrl 29 24 p, ctx := none, newPrio := none }).setTeller r fun t =>
    { t with ready := if head then (p, n) :: t.ready else t.ready ++ [(p, n)] }

/-- The value that a killed thread delivers (R158, R215). -/
def killValue (x : Thread) : Word := 0xFFFF0000 ||| (x.cause &&& 0xFFFF)

/-- A Teller-dispatched thread ends: EXIT is written, and STATE becomes EXITED or KILLED (R157, R215). -/
def State.tellerEnd (s : State) (t : Nat) (val : Word) (killed : Bool) : State :=
  match (s.th t).tcb with
  | none => s
  | some n =>
    let r := rgnOf t
    let x := (s.tcb r n).setState (if killed then 5 else 4)
    let s := (s.putTcb r n { x with ctx := none }).tcbWrite r n 0x10 [val]
    let s := if killed && decide ((s.th t).killBy = 1) then s
      else s.ledger r (if killed then 8 else 7) (if killed then (s.th t).killBy else 0) n x.prio (2 * t) val.toNat
    s.setTeller r fun k => { k with noPlace := k.noPlace.filter (· ≠ n) }

/-! ## Staging (R218 to R221) -/

/-- The fields of a Teller command word. -/
def stageOf (w : Word) (reason aux : Nat) (th : Option (Nat × Nat)) : Stage :=
  { op := fld w 31 28, prio := fld w 27 22, tcb := fld w 11 0, reason := reason, aux := aux, thread := th }

/-- A window store reaches the Teller: it waits, unacknowledged, for a place in the staging. -/
def State.windowStore (s : State) (t sb : Nat) (w : Word) : State :=
  s.setTeller (rgnOf t) fun k => { k with waiting := k.waiting ++ [{ stageOf w 1 0 (some (t, sb)) with own := (s.th t).tcb }] }

/-- The window store that is staged in core cycle `c`: the first in the rotating order over the region's cores, and the oldest of its core
(R221). -/
def firstStore (l : List Stage) (c : Nat) : Option Stage :=
  let place (e : Stage) : Nat := rotRank 32 (((e.thread.map (·.1)).getD 0) / 8) c
  l.foldl (fun a e => match a with
    | none => some e
    | some b => if place e < place b then some e else some b) none

/-- The lowest event source whose binding keeps a pending mark. -/
def State.bindPend (s : State) (r : Nat) : Option Nat :=
  (List.range 512).find? fun i => s.rb (aTel r (0x800 + 4 * i)) 30

/-- Add an entry to the staging; a window store is acknowledged as it enters. -/
def State.stageIn (s : State) (r : Nat) (e : Stage) : State :=
  let s := s.setTeller r fun k => { k with stage := k.stage ++ [e] }
  match e.thread with
  | some (t, sb) => s.sbDone t sb false
  | none => s

/-- The ring index after `i` in a ring of 2^n entries. -/
def ringNext (i n : Nat) : Nat := (i + 1) % 2 ^ n

/-- TELLER_STAGE (R219, R221): the first source that has something enters the staging, in the order deadlines, bindings, host
ring, window stores; nothing enters a full staging. -/
def State.tellerStage (s : State) (r : Nat) : State :=
  let k := s.teller r
  if 64 ≤ k.stage.length then s
  else
    match k.dues with
    | e :: q => (s.setTeller r fun k => { k with dues := q }).stageIn r e
    | [] =>
      match s.bindPend r with
      | some i =>
        let a := aTel r (0x800 + 4 * i)
        (s.setRb a 30 false).stageIn r { op := 2, prio := 0, tcb := s.rf a 11 0, reason := 2, aux := i, thread := none }
      | none =>
        let prod := s.rf (aTel r 0x11C) 15 0
        let cons := s.rf (aTel r 0x120) 15 0
        let n := s.rf (aTel r 0x118) 4 0
        if prod % 2 ^ n ≠ cons % 2 ^ n then
          let base := s.rf (aTel r 0x110) 31 12 * 4096 + (s.reg (aTel r 0x114)).toNat * 2 ^ 32
          let w := s.dramRead (base + 4 * (cons % 2 ^ n)) 4
          (w.2.2.setRf (aTel r 0x120) 15 0 (ringNext cons n)).stageIn r (stageOf (leWord w.1) 1 0 none)
        else
          match firstStore k.waiting s.cyc with
          | some e => (s.setTeller r fun k => { k with waiting := k.waiting.erase e }).stageIn r e
          | none => s

/-- A command is discarded and counted (R218). -/
def State.badCmd (s : State) (r : Nat) : State := s.bumpF (aTel r 0x148) 15 0 1

/-- Wake a TCB for a reason (R218, R220). -/
def State.wakeTcb (s : State) (r n reason aux : Nat) : State :=
  let x := s.tcb r n
  match x.state with
  | 3 =>
    let s := ((s.putTcb r n x).tcbWrite r n 0x14 [nw (aux * 2 ^ 16 + reason)]).ledger r 2 reason n x.prio 0 (if reason = 2 then aux else 0)
    s.makeReady r n false
  | 1 | 2 => s.putTcb r n { x with ctrl := setBit x.ctrl 30 true }
  | _ => s

/-- Take the head of the staging if it is command `op`; discard and count it where it is a reserved one. -/
def State.unstage (s : State) (r op : Nat) : Option (Stage × State) :=
  match (s.teller r).stage with
  | e :: q => if e.op = op then some (e, s.setTeller r fun k => { k with stage := q }) else none
  | [] => none

/-- Discard reserved commands at the head of the staging (R218). -/
def State.dropBad (s : State) (r : Nat) : State :=
  match (s.teller r).stage with
  | e :: q => if e.op = 0 ∨ 5 < e.op then (s.setTeller r fun k => { k with stage := q }).badCmd r else s
  | [] => s

/-- ACTIVATE applied (R217, R218): CTRL, PLACE and the context area are read from DRAM. CTRL or PLACE with an uncorrectable error activate
nothing, and the command is counted as discarded: no rule says so, but R448 keeps a poisoned word from being written back as good. DESIGN
CHOICE (log entry 191). -/
def State.activateTcb (s : State) (r n : Nat) : State :=
  let held := (s.tcb r n).state
  let m := s.dramRead (s.tcbAddr r n 0) 8
  let ctrl := leWord m.1
  let place := leWord (m.1.drop 4)
  if (held = 0 ∨ held = 4 ∨ held = 5) ∧ bit ctrl 31 ∧ fld ctrl 23 20 = 0 ∧ !m.2.1 then
    let x : Tcb := { ctrl := ctrl, place := place, deadline := 0, ctx := none, since := 0, newPrio := none }
    let area := m.2.2.dramRead (s.tcbAddr r n 0x20) 0x1C8
    let s := (area.2.2.putTcb r n x).ledger r 1 1 n x.prio 0 0
    s.makeReady r n false
  else m.2.2.badCmd r

/-- A restore that is under way into context `t` ends, and TCB `n` is KILLED (R218, R511). -/
def State.endRestore (s : State) (r t n reason : Nat) : State :=
  let x := s.tcb r n
  let s := (s.setTeller r fun k => { k with restore := tDel k.restore t }).putTcb r n { x.setState 5 with ctx := none }
  (s.tcbWrite r n 0x10 [0xFFFF0000]).ledger r 8 reason n x.prio (2 * t) 0xFFFF0000

/-- KILL applied (R218): of a RUNNING thread its context is killed, or its restore that is under way ends; one whose context is being reset
already is left to that. -/
def State.killTcb (s : State) (r n : Nat) : State :=
  let x := s.tcb r n
  match x.state with
  | 2 =>
    match x.ctx with
    | some t =>
      if (tFind (s.teller r).restore t) = some n then s.endRestore r t n 1
      else if (s.th t).st = .resetting then s
      else
        let s := s.ledger r 8 1 n x.prio (2 * t) (killValue (s.th t)).toNat
        (s.modTh t fun y => { y with killBy := 1 }).killThread t
    | none => s
  | 1 | 3 =>
    let s := (s.setTeller r fun k => { k with ready := k.ready.filter (fun e => e.2 ≠ n), noPlace := k.noPlace.filter (· ≠ n) }).putTcb r n (x.setState 5)
    (s.tcbWrite r n 0x10 [0xFFFF0000]).ledger r 8 1 n x.prio 0 0xFFFF0000
  | _ => s

/-- SETPRIO applied (R218): a READY thread moves; a RUNNING or PARKED one takes the priority when it next becomes READY (log entry 192). -/
def State.setPrio (s : State) (r n p : Nat) : State :=
  let x := s.tcb r n
  let y := { x with ctrl := setFld x.ctrl 29 24 p }
  match x.state with
  | 1 => (((s.putTcb r n y).setTeller r fun k => { k with ready := k.ready.filter (fun e => e.2 ≠ n) ++ [(p, n)] })).ledger r 9 1 n p 0 0
  | 2 | 3 => (s.putTcb r n { x with newPrio := some p }).ledger r 9 1 n x.prio 0 0
  | _ => s

/-- The context has a running forked child (R224). -/
def State.hasKid (s : State) (t : Nat) : Bool := (s.kids t).any fun k => decide ((s.th k).st ≠ .exited)

/-- TCB `n` is PARKED: its deadline is read, or a wake that is pending makes it READY again (R218, R220, R224). -/
def State.parkTcb (s : State) (r n : Nat) : State :=
  let c := s.tcb r n
  let d := s.dramRead (s.tcbAddr r n 8) 8
  if c.wakePend then (d.2.2.putTcb r n { c with ctrl := setBit c.ctrl 30 false }).makeReady r n false
  else d.2.2.putTcb r n { c.setState 3 with ctx := none, deadline := leNat d.1 }

/-- PARK applied to the TCB that the issuer ran as (R218, R224); a forked context and the host have none. An issuer that has been saved in the
meantime is READY, and is PARKED from there; one that has ended parks nothing: DEDUCED (log entry 210). -/
def State.parkCmd (s : State) (r : Nat) (own : Option Nat) : State :=
  match own with
  | none => s.badCmd r
  | some n =>
    let c := s.tcb r n
    match c.state, c.ctx with
    | 2, some t =>
      if s.hasKid t then s.badCmd r
      else if c.wakePend then s.putTcb r n { c with ctrl := setBit c.ctrl 30 false }
      else (s.modTh t fun x => { x with saveReq := some (3, 0) }).ledger r 6 1 n c.prio (2 * t) 0
    | 1, _ =>
      if c.wakePend then s.putTcb r n { c with ctrl := setBit c.ctrl 30 false }
      else
        ((s.setTeller r fun k => { k with ready := k.ready.filter (fun e => e.2 ≠ n), noPlace := k.noPlace.filter (· ≠ n) }).parkTcb r n).ledger r 6 1 n
          c.prio 0 0
    | _, _ => s.badCmd r

/-! ## Placement (R222, R223) -/

/-- The cluster is eligible for the Teller now: task mode, live, not claimed, not being reset. -/
def State.taskClu (s : State) (c : Nat) : Bool :=
  let k := s.clu? c
  !k.packet && decide (k.st = .live) && !k.claimed && !k.detached && decide (k.eligAt ≤ s.cyc)

/-- The context is FREE: idle in a task-mode cluster, and not reserved for a restore. -/
def State.isFree (s : State) (t : Nat) : Bool :=
  decide ((s.th t).st = .idle) && !(s.th t).stopped && (tFind (s.teller (rgnOf t)).restore t).isNone

/-- The lowest-numbered FREE context of a device core. -/
def State.freeOn (s : State) (core : Nat) : Option Nat := (List.range 8).findSome? fun i => if s.isFree (core * 8 + i) then some (core * 8 + i) else none

/-- The clusters of a region that a PLACE word allows and that are eligible. -/
def State.allowed (s : State) (r : Nat) (place : Word) : List Nat :=
  (List.range 4).filterMap fun c => if bit place (16 + c) && s.taskClu (r * 4 + c) then some (r * 4 + c) else none

/-- The first eligible FREE context, and the Ledger reason of the step that found it (R222). -/
def State.findPlace (s : State) (r : Nat) (place : Word) : Option (Nat × Nat) :=
  let cl := s.allowed r place
  let last := fld place 13 0 / 2
  let lc := last / 64
  let same := bit place 31 && cl.contains lc
  match (if same then s.freeOn (last / 8) else none) with
  | some t => some (t, 7)
  | none =>
    match (if same then (List.range 8).findSome? fun i => s.freeOn (lc * 8 + i) else none) with
    | some t => some (t, 8)
    | none => (cl.findSome? fun c => (List.range 8).findSome? fun i => s.freeOn (c * 8 + i)).map fun t => (t, 9)

/-- The heads of the ready levels, from the highest level on (R222). -/
def State.heads (s : State) (r : Nat) : List (Nat × Nat) := (List.range 64).filterMap fun p => (s.teller r).ready.find? fun e => decide (e.1 = p)

/-- A ready entry has no eligible cluster in task mode. -/
def State.placeless (s : State) (r : Nat) (e : Nat × Nat) : Bool := decide (s.allowed r (s.tcb r e.2).place = [])

/-- The head of the highest level whose head has an eligible cluster: the others are skipped, and lower levels served (R222). -/
def State.readyHead (s : State) (r : Nat) : Option (Nat × Nat) := ((s.heads r).dropWhile (s.placeless r)).head?

/-- The heads that are skipped raise NO_PLACE, once per occurrence; an occurrence ends when the thread has an eligible cluster again (R222). -/
def State.raiseNoPlace (s : State) (r : Nat) : State :=
  let s := s.setTeller r fun k => { k with noPlace := k.noPlace.filter fun n => k.ready.any fun e => decide (e.2 = n) && s.placeless r e }
  ((s.heads r).takeWhile (s.placeless r)).foldl (fun s e =>
    if (s.teller r).noPlace.contains e.2 then s
    else
      let s := (s.bumpF (aTel r 0x14C) 15 0 1).ledger r 10 0 e.2 e.1 0 0
      s.setTeller r fun k => { k with noPlace := e.2 :: k.noPlace }) s

/-- The Teller-dispatched threads of the region that may be preempted for a head of priority `p` allowed in clusters `cl`. -/
def State.victims (s : State) (r p : Nat) (cl : List Nat) : List (Nat × Nat × Nat) :=
  s.thr.filterMap fun e =>
    match e.2.tcb with
    | some n =>
      let c := s.tcb r n
      if rgnOf e.1 = r ∧ cl.contains (cluOf e.1) ∧ e.2.st ≠ .idle ∧ e.2.st ≠ .resetting ∧ !e.2.stopped ∧ !e.2.forked ∧ e.2.saveReq = none
        ∧ p < c.prio ∧ !s.hasKid e.1 then some (c.prio, c.since, e.1) else none
    | none => none

/-- The lowest priority, and among those the thread dispatched earliest (R223). -/
def pickVictim (l : List (Nat × Nat × Nat)) : Option Nat :=
  (l.foldl (fun a e => match a with
    | none => some e
    | some b => if b.1 < e.1 ∨ (b.1 = e.1 ∧ e.2.1 < b.2.1) then some e else some b) none).map (·.2.2)

/-- Dispatch TCB `n` into context `t`, which is reserved until the restore completes, or until a fork of the same core cycle takes it (R156). -/
def State.dispatchTcb (s : State) (r n t reason : Nat) : State :=
  let old : Placed := { cyc := s.cyc, tcb := n, ctx := t, place := (s.tcb r n).place, seq := (s.teller r).seq, wr := s.rf (aTel r 0x13C) 19 0,
                        rd := s.rf (aTel r 0x140) 19 0, lost := s.reg (aTel r 0x144) }
  let x := (s.tcb r n).setState 2
  let x := { x with place := setBit (setFld x.place 13 0 (2 * t)) 31 true, ctx := some t, since := s.cyc }
  let s := (s.putTcb r n x).ledger r 3 reason n x.prio (2 * t) 0
  (s.setTeller r fun k => { k with ready := k.ready.filter (fun e => e.2 ≠ n), restore := tPut k.restore t n,
                                   noPlace := k.noPlace.filter (· ≠ n),
                                   placed := old :: k.placed.filter fun p => decide (p.cyc = s.cyc) }).active (cluOf t)

/-- The dispatch of this core cycle into context `t`, whose restore is still to come. -/
def State.placedAt (s : State) (t : Nat) : Option Placed :=
  if (s.restoring t).isNone then none else (s.teller (rgnOf t)).placed.find? fun p => decide (p.cyc = s.cyc ∧ p.ctx = t)

/-- A fork takes the context of a dispatch of its core cycle, which is as if it had not been, and the Teller repeats its search (R156, R222). The
Ledger keeps the record of the dispatch where another has followed it: DESIGN CHOICE (log entry 215). -/
def State.unplace (s : State) (r : Nat) (p : Placed) : State :=
  let s := if (s.teller r).seq ≤ p.seq + 1 then
      ((((s.setTeller r fun k => { k with seq := p.seq }).setRf (aTel r 0x13C) 19 0 p.wr).setRf (aTel r 0x140) 19 0 p.rd).setReg (aTel r 0x144) p.lost)
    else s
  let s := s.setTeller r fun k => { k with restore := tDel k.restore p.ctx, placed := k.placed.filter fun q => !decide (q = p) }
  (s.putTcb r p.tcb { s.tcb r p.tcb with place := p.place }).makeReady r p.tcb true

/-- The Teller's search for the TCB whose dispatch was undone (R156). -/
def State.replace (s : State) (r : Nat) (p : Placed) : State :=
  match s.findPlace r p.place with
  | some (u, why) => s.dispatchTcb r p.tcb u why
  | none => s

/-- A thread of the region is being preempted for TCB `n`. -/
def State.preempting (s : State) (r n : Nat) : Bool := s.thr.any fun e => decide (rgnOf e.1 = r ∧ e.2.saveReq = some (0, n))

/-- PLACEMENT: one decision of R222 and R223. While a thread is being preempted for the head, no other is. -/
def State.place (s : State) (r : Nat) : State :=
  let s := s.raiseNoPlace r
  match s.readyHead r with
  | none => s
  | some (p, n) =>
    match s.findPlace r (s.tcb r n).place with
    | some (t, why) => s.dispatchTcb r n t why
    | none =>
      if s.preempting r n then s
      else
      match pickVictim (s.victims r p (s.allowed r (s.tcb r n).place)) with
      | none => s
      | some t =>
        let v := ((s.th t).tcb).getD 0
        (s.modTh t fun x => { x with saveReq := some (0, n) }).ledger r 4 4 v (s.tcb r v).prio (2 * t) n

/-- A READY thread of a priority that has no FREE eligible context (R223). -/
def State.rival (s : State) (r p : Nat) : Option Nat :=
  ((s.teller r).ready.find? fun q => decide (q.1 = p) && (s.findPlace r (s.tcb r q.2).place).isNone).map (·.2)

/-- QUANTUM_EXPIRY (R223): at the next round boundary, the first thread that has run for QUANTUM rounds since its dispatch while a READY
thread of its priority has no FREE eligible context is preempted for that one. -/
def State.quantum (s : State) (r : Nat) : State :=
  let s := s.upToCyc (roundCeil s.cycCeil)
  let due := s.thr.filterMap fun e =>
    match e.2.tcb with
    | some n =>
      let c := s.tcb r n
      if rgnOf e.1 = r ∧ c.quantum ≠ 0 ∧ c.since + 4096 * c.quantum ≤ s.cyc ∧ !e.2.stopped ∧ !e.2.forked ∧ e.2.saveReq = none
        ∧ e.2.st ≠ .idle ∧ e.2.st ≠ .resetting ∧ !s.hasKid e.1 then (s.rival r c.prio).map fun m => (e.1, n, m) else none
    | none => none
  match due with
  | [] => s
  | (t, n, m) :: _ => (s.modTh t fun x => { x with saveReq := some (1, 0) }).ledger r 4 5 n (s.tcb r n).prio (2 * t) m

/-! ## Saving and restoring (R215, R224 to R226) -/

/-- The operand and result sockets in the order of R215. -/
def tcbOps : List Nat := [0x040, 0x050, 0x060, 0x062, 0x070, 0x080, 0x090, 0x091, 0x0A0, 0x0B0, 0x0D0, 0x0E0, 0x108]
def tcbRes1 : List Nat := [0x040, 0x050, 0x060, 0x070, 0x071, 0x080, 0x081, 0x090, 0x0A0, 0x0B0]
def tcbRes2 : List Nat := [0x0C0, 0x0C1, 0x0C2, 0x0C3, 0x0C4, 0x0C5, 0x0C6, 0x0C7]
def tcbRes3 : List Nat := [0x0C8, 0x0F0, 0x108, 0x390, 0x300, 0x310, 0x320, 0x330]
def tcbRes4 : List Nat := [0x0E0, 0x0E1, 0x0E2, 0x0E3, 0x0E4, 0x0E5, 0x0E6, 0x0E7, 0x0E8, 0x0E9, 0x0EA, 0x0EB, 0x0EC, 0x0ED, 0x0EE, 0x0EF]
def tcbRes5 : List Nat := [0x100, 0x101, 0x102, 0x103, 0x104, 0x105, 0x106, 0x107]

/-- An operand socket, a result socket, a register of a context. -/
def Thread.opv (x : Thread) (k : Nat) : Word := tGet (fun _ => 0) x.op k
def Thread.resv (x : Thread) (k : Nat) : Word := tGet (fun _ => 0) x.res k
def Thread.wv (x : Thread) (k : Nat) : Word := tGet (fun _ => 0) x.w k

/-- Every pending result in its result socket, in trigger order. -/
def Thread.settle (x : Thread) : Thread := { x.pend.foldl (fun x p => x.setRes p.sock p.value) x with pend := [] }

/-- REPEAT0 to REPEAT2 (R226). A prefix that was guarded false is kept as a capped repeat with count 0. -/
def repWords : Option Rep → List Word
  | none => [0, 0, 0]
  | some r =>
    let cap := r.capped || decide (r.live = 0)
    [nw (2 ^ 31 + b2n cap * 2 ^ 30 + r.live), nw r.index, nw ((if cap then r.total % 65536 else 0) + r.body * 2 ^ 16)]

/-- The words 0x020 to 0x1E7 of a TCB for a context; a waiting context is kept at its waiting word. -/
def Thread.image (x : Thread) : List Word :=
  let x := x.settle
  let at_ := x.waitAt.getD (x.pc, x.rep)
  let rep := at_.2
  (List.range 32).map x.wv
    ++ [nw (x.p.toNat + b2n x.carry * 2 ^ 8 + b2n x.ov * 2 ^ 9 + b2n x.dz * 2 ^ 10 + b2n x.inTrap * 2 ^ 11), nw at_.1,
        x.lr, x.rc, x.vec, x.ctl, nw x.ev.toNat, nw x.sb.toNat]
    ++ tcbOps.map x.opv ++ repWords rep
    ++ (List.range 8).map (fun i => x.opv (0x100 + i))
    ++ tcbRes1.map x.resv ++ tcbRes2.map x.resv ++ tcbRes3.map x.resv ++ tcbRes4.map x.resv ++ tcbRes5.map x.resv

/-- The repeat that REPEAT0 to REPEAT2 hold. -/
def wordsRep (r0 r1 r2 : Word) : Option Rep :=
  if bit r0 31 then
    let cap := bit r0 30
    let n := fld r0 16 0
    let m := fld r2 15 0
    some { live := n, total := if cap then (if m = 0 then 65536 else m) else n, capped := cap && decide (n ≠ 0), body := fld r2 29 16,
           index := fld r1 16 0, first := decide (fld r1 16 0 = 0) }
  else none

/-- Store a list of values at the given keys. -/
def putKeys (t : Tbl Word) : List Nat → List Word → Tbl Word
  | k :: ks, v :: vs => putKeys (tSet (fun _ => 0) t k v) ks vs
  | _, _ => t

/-- The context that a TCB's words 0x020 on describe. R215 has no place for the poison marks of completed loads (R141): no bit of a restored
context has one. DESIGN CHOICE (log entry 216). -/
def Thread.ofImage (ws : List Word) : Thread :=
  let g (i : Nat) : Word := ws.getD i 0
  let f := g 32
  let op := putKeys [] (tcbOps ++ tcbRes5) ((ws.drop 40).take 13 ++ (ws.drop 56).take 8)
  let res := putKeys [] (tcbRes1 ++ tcbRes2 ++ tcbRes3 ++ tcbRes4 ++ tcbRes5) (ws.drop 64)
  let rep := wordsRep (g 53) (g 54) (g 55)
  { Thread.fresh with
    st := .running, w := putKeys [] (List.range 32) (ws.take 32), p := BitVec.setWidth 8 f,
    carry := bit f 8, ov := bit f 9, dz := bit f 10, inTrap := bit f 11, pc := fld (g 33) 13 0,
    lr := g 34, rc := g 35, vec := g 36, ctl := setFld (g 37) 31 2 0, ev := BitVec.setWidth 16 (g 38), sb := BitVec.setWidth 16 (g 39),
    op := op, res := res, rep := rep }

/-- The core cycle in which every core-unit latency of a context has elapsed (R224). -/
def Thread.quietAt (x : Thread) : Nat := x.lateTrap.foldl (fun c l => max c l.at_) (x.pend.foldl (fun c p => max c p.at_) 0)

/-- A context that is to be saved is quiet: the latencies of its core units elapse, and a trap that falls in that time is taken (R224). -/
def State.quiet (s : State) (t : Nat) : State :=
  let x := s.th t
  (s.upToCyc x.quietAt).lateNow t ((x.waitAt.map (·.1)).getD x.pc)

/-- The context of a thread is written to its TCB, and freed (R224). -/
def State.putAway (s : State) (t r n : Nat) : State :=
  ((((s.stallKeep (cluOf t)).leaveLocks t).leaveChans t).tcbWrite r n 0x20 (s.th t).image).putTh t Thread.fresh

/-- The save of a context completes (R224, R227): the context area is written to the TCB, the context is freed, and the
thread is READY at the head (0 priority, 4 reclaim) or tail (1 quantum, 2 yield) of its level, or PARKED (3). A save waits
until every owned scoreboard bit is set, and until no forked child of the context runs; a thread that traps into a kill meanwhile is not
saved. The TCB for which the thread was preempted is placed as R222 says. -/
def State.saveCtx (s : State) (t : Nat) : State :=
  let x := s.th t
  match x.saveReq, x.tcb with
  | some (kind, next), some n =>
    if x.sbOwned ≠ 0 ∨ (kind ≠ 4 ∧ s.hasKid t) then s
    else
      let r := rgnOf t
      let s := s.quiet t
      if (s.th t).st = .resetting then s
      else
        let s := s.putAway t r n
        let s := if kind = 3 then s.parkTcb r n else s.makeReady r n (kind = 0 || kind = 4)
        if kind = 0 ∧ (s.tcb r next).state = 1 then
          match s.findPlace r (s.tcb r next).place with
          | some (u, why) => s.dispatchTcb r next u why
          | none => s
        else s
  | _, _ => s

/-- SAVE. -/
def execSave (t : ThreadId) (s : State) : Host.Outcome State Fault Refusal := .next (s.saveCtx t.val)

/-- The restore into a context completes (R225, R226): a poisoned TCB makes the thread KILLED with cause DM_UE (R448). -/
def State.restoreCtx (s : State) (t : Nat) : State :=
  let r := rgnOf t
  match tFind (s.teller r).restore t with
  | none => s
  | some n =>
    let y := s.th t
    let m := s.dramRead (s.tcbAddr r n 0x20) 0x1C8
    let s := m.2.2.setTeller r fun k => { k with restore := tDel k.restore t }
    let c := s.tcb r n
    if m.2.1 then
      ((s.putTcb r n { c.setState 5 with ctx := none }).tcbWrite r n 0x10 [0xFFFF000F]).ledger r 8 0 n c.prio (2 * t) 0xFFFF000F
    else
      let ws := (List.range 114).map fun i => leWord (m.1.drop (4 * i))
      (s.stallKeep (cluOf t)).putTh t { Thread.ofImage ws with
        tcb := some n, nextCyc := ownSlot t (s.cyc + 8), stopped := y.stopped, saveReq := y.saveReq }

/-- RESTORE. -/
def execRestore (t : ThreadId) (s : State) : Host.Outcome State Fault Refusal := .next (s.restoreCtx t.val)

/-! ## The commands -/

/-- TELLER_STAGE. -/
def execTellerStage (r : RegionId) (s : State) : Host.Outcome State Fault Refusal := .next ((s.dropBad r.val).tellerStage r.val)

/-- TEL_HCMD_PROD: the host advances its ring's index (R218, R231). -/
def execTelHcmdProd (r : RegionId) (idx : BitVec 16) (s : State) : Host.Outcome State Fault Refusal :=
  .next (s.setRf (aTel r.val 0x11C) 15 0 idx.toNat)

/-- ACTIVATE: the staged command at the head is applied. -/
def execActivate (r : RegionId) (s : State) : Host.Outcome State Fault Refusal :=
  .next (match s.unstage r.val 1 with
    | some (e, s) => s.activateTcb r.val e.tcb
    | none => s)

/-- WAKE. -/
def execWake (r : RegionId) (s : State) : Host.Outcome State Fault Refusal :=
  .next (match s.unstage r.val 2 with
    | some (e, s) => s.wakeTcb r.val e.tcb e.reason e.aux
    | none => s)

/-- PARK: acts on the issuer's own TCB; from the host it is discarded and counted. -/
def execPark (r : RegionId) (s : State) : Host.Outcome State Fault Refusal :=
  .next (match s.unstage r.val 3 with
    | some (e, s) => s.parkCmd r.val e.own
    | none => s)

/-- SETPRIO. -/
def execSetprio (r : RegionId) (s : State) : Host.Outcome State Fault Refusal :=
  .next (match s.unstage r.val 4 with
    | some (e, s) => s.setPrio r.val e.tcb e.prio
    | none => s)

/-- KILL. -/
def execKill (r : RegionId) (s : State) : Host.Outcome State Fault Refusal :=
  .next (match s.unstage r.val 5 with
    | some (e, s) => s.killTcb r.val e.tcb
    | none => s)

/-- BINDING_FIRE (R220): a routed event source fires; a valid binding keeps a pending mark. -/
def execBindingFire (r : RegionId) (source : Fin 512) (s : State) : Host.Outcome State Fault Refusal :=
  .next (if s.rb (aTel r.val (0x800 + 4 * source.val)) 31 then s.setRb (aTel r.val (0x800 + 4 * source.val)) 30 true else s)

/-- DEADLINE_WAKE (R220): at a round boundary every PARKED thread whose DEADLINE has come keeps a pending mark. -/
def State.deadlines (s : State) (r : Nat) : State :=
  let s := s.upToCyc (roundCeil s.cycCeil)
  let due := s.tcbs.filterMap fun e =>
    if e.1 / 4096 = r ∧ e.2.state = 3 ∧ e.2.deadline ≠ 0 ∧ e.2.deadline ≤ s.tb
      ∧ !(s.teller r).dues.any (fun d => decide (d.tcb = e.1 % 4096 ∧ d.reason = 3)) then
      some { op := 2, prio := 0, tcb := e.1 % 4096, reason := 3, aux := 0, thread := none : Stage } else none
  s.setTeller r fun k => { k with dues := (k.dues.filter fun e => decide (e.reason = 3)) ++ due ++ k.dues.filter fun e => !decide (e.reason = 3) }

/-- DEADLINE_WAKE. -/
def execDeadlineWake (r : RegionId) (s : State) : Host.Outcome State Fault Refusal := .next (s.deadlines r.val)

/-- PLACEMENT. -/
def execPlacement (r : RegionId) (s : State) : Host.Outcome State Fault Refusal := .next (s.place r.val)

/-- QUANTUM_EXPIRY. -/
def execQuantumExpiry (r : RegionId) (s : State) : Host.Outcome State Fault Refusal := .next (s.quantum r.val)

/-- A thread in a spare that is reclaimed goes back to the head of its level (R228): a restore that is under way ends; a context is saved. -/
def State.reclaimTcb (s : State) (t n : Nat) (restoring : Bool) : State :=
  let r := rgnOf t
  let s := s.ledger r 11 6 n (s.tcb r n).prio (2 * t) 0
  if restoring then (s.setTeller r fun k => { k with restore := tDel k.restore t }).makeReady r n true
  else s.modTh t fun x => { x with saveReq := some (4, 0) }

/-- The reclaim of a spare (R228, R201): Teller-dispatched threads are preempted to the head of their levels, forked contexts
are killed, every coprocessor command is aborted with reason 2. -/
def State.reclaim (s : State) (c : Nat) : State :=
  let s := [0, 1, 2, 3].foldl (fun s n => s.abortCop c n 2 fun _ => true) s
  (List.range 64).foldl (fun s i =>
    let t := c * 64 + i
    let x := s.th t
    match tFind (s.teller (rgnOf t)).restore t with
    | some n => s.reclaimTcb t n true
    | none =>
      match x.tcb with
      | some n => if x.st = .idle ∨ x.st = .resetting then s else s.reclaimTcb t n false
      | none => if x.forked then s.killThread t else s) s

end Sys2Proof.Machine
end

