-- ==== Sys2Proof/Machine/Policy.lean ====
section
/-! DEFINITION. The active calendar sets (R47 to R64, R517), and the lookup of a Policy Table replica (R134, R135, R320, R323). -/

namespace Sys2Proof.Machine

/-- The calendar set in force on C-die `c`: the tier's primary, a fallback or the cross-die set (R517). -/
def State.calSet (s : State) (c : Nat) : Option CalSet :=
  match s.prof.sets.getD c (0, 0) with
  | (1, k) => (s.prof.img.fallback.find? fun e => decide (e.1 = k)).map (·.2)
  | (2, _) => (s.prof.img.cross.find? fun e => decide (e.1 = c)).map (·.2)
  | (3, _) => none
  | _ => s.prof.img.tiers[s.prof.tier]?

/-- Entry `p` of row `n` of the table-access calendar of a device region (R60). -/
def State.regionEntry (s : State) (r n p : Nat) : Nat :=
  match s.calSet (r / 4) with
  | some k => (tGet (fun _ => (0 : Byte)) (k.region.getD r []) (4 * (n % 4096) + p)).toNat
  | none => 0

/-- The first core cycle from `n` to `n + 7` with a port granted to the context's core that no earlier TB of that core used,
as cycle × 4 + port (R61). -/
def State.tbGrant (s : State) (t n : Nat) : Option Nat :=
  let core := t / 8
  let want := 128 + core / 8 % 4 * 32 + core % 8 * 4
  let used := (s.clu? (cluOf t)).tbClaims.map fun a => (a.core, a.g)
  (List.range 32).findSome? fun i =>
    let g := n + i / 4
    if s.regionEntry (rgnOf t) g (i % 4) / 4 * 4 = want ∧ !used.contains (core, 4 * g + i % 4) then some (4 * g + i % 4) else none

/-- The bank pair that core `k` of cluster `c` owns in phase `φ` under the cluster's bank-phase map (R63). -/
def State.bankOwner (s : State) (c k φ : Nat) : Nat :=
  fld (tGet (fun _ => 0) s.prof.img.bankMap (8 * c + φ % 8)) (4 * k + 2) (4 * k)

/-- The core cycle in which an access of a context to a bank pair, issued in cycle `n`, is performed on the A port (R64). -/
def State.bankCycle (s : State) (t pair n : Nat) : Nat :=
  ((List.range 8).find? fun i => decide (s.bankOwner (cluOf t) (t / 8 % 8) (n + i) = pair)).getD 0 + n

/-- Word `j` of a replica's entry as a lookup served in core cycle `g` finds it, and whether its parity is bad: a write of that cycle does not
show yet (R62). -/
def State.polWord (s : State) (g r i j : Nat) : Word × Bool :=
  let k := (r * 65536 + i) * 8 + j
  (s.polWas.before g k).getD (tGet (fun _ => 0) s.pol k, (tFind s.polBad k).isSome)

/-- The words of a replica's entry for a lookup of core cycle `g`. -/
def State.polWords (s : State) (g r i : Nat) : List Word := (List.range 8).map fun j => (s.polWord g r i j).1

/-- The status of a lookup of core cycle `g`: 0 hit, 1 miss, 2 parity error (R135). -/
def State.polStatus (s : State) (g r i : Nat) : Nat :=
  if (List.range 8).any fun j => (s.polWord g r i j).2 then 2 else if bit (s.polWord g r i 0).1 31 then 0 else 1

/-- A saturating 64-bit count. -/
def sat64 (a b : Nat) : Nat := satAdd (2 ^ 64 - 1) a b

/-- A policy's counters with an addition of one frame of `b` bytes. -/
def cntPlus (e : Nat × Nat) (b : Nat) : Nat × Nat := (sat64 e.1 1, sat64 e.2 b)

/-- The counters of a region and policy with every addition made so far. -/
def State.cntTotal (s : State) (k : Nat) : Nat × Nat :=
  s.cntAdds.foldl (fun e a => if a.2.1 = k then cntPlus e a.2.2 else e) (tGet (fun _ => (0, 0)) s.polCnt k)

/-- The additions of the core cycles before `c` enter the counters (R323). -/
def State.cntSettle (s : State) (c : Nat) : State :=
  { s with polCnt := (s.cntAdds.filter fun a => decide (a.1 < c)).foldl (fun t a => tUpd (fun _ => (0, 0)) t a.2.1 (cntPlus · a.2.2)) s.polCnt,
           cntAdds := s.cntAdds.filter fun a => decide (c ≤ a.1) }

/-- A lookup that a port serves in core cycle `g` counts a frame. -/
def State.cntAdd (s : State) (g k b : Nat) : State :=
  let s := s.cntSettle s.cyc
  { s with cntAdds := s.cntAdds ++ [(g, k, b)] }

/-- A TB lookup in the replica of region `r`, served in core cycle `g` (R134, R135): the eight words, the status, and the state with the hit
counted or the parity error recorded. -/
def State.tbLookup (s : State) (r g : Nat) (cnt : Bool) (v : Word) : List Word × Nat × State :=
  let i := fld v 15 0
  match s.polStatus g r i with
  | 0 => (s.polWords g r i, 0, if cnt then s.cntAdd g (r * 65536 + i) (fld v 31 16) else s)
  | 2 => (List.replicate 8 0, 2, s.err (rgnPage r 1) 0 7 i 0)
  | _ => (List.replicate 8 0, 1, s)

/-- The results of a packet-mode lookup that issued in core cycle `c`: TB.r and TB.s are readable from slot k + 3, and a miss or an error is
latched as a policy failure (R134, R135). -/
def Thread.tbTake (x : Thread) (c fail : Nat) (r : List Word × Nat) : Thread :=
  let x := ((List.range 8).foldl (fun y i => y.result c 3 (0x0C0 + i) (r.1.getD i 0)) x).result c 3 0x0C8 (nw r.2)
  { x with polFail := max fail r.2 }

/-- What a lookup that is not yet served has been answered is not on its way. -/
def Thread.tbDrop (x : Thread) (c : Nat) : Thread := (List.range 9).foldl (fun y i => y.unresult (c + 24) (0x0C0 + i)) x

/-- A lookup is made at its port cycle: its claim is kept with what it met (R61). -/
def State.tbServe (s : State) (a : TbAcc) : State :=
  let r := s.tbLookup (rgnOf a.thread) (a.g / 4) a.cnt a.val
  let s := r.2.2.setClu (cluOf a.thread) fun k =>
    { k with tbClaims := { a with status := r.2.1 } :: k.tbClaims.filter fun e => decide (4 * a.at_ < e.g + 64) }
  s.modTh a.thread fun y => y.tbTake a.at_ a.fail (r.1, r.2.1)

/-- Policy `i` changes in the current core cycle by `f`: a lookup of it that a port serves in a later cycle, and that its command has
made already, is made again (R61). An error that it has recorded stays recorded. -/
def State.tbRedo (s : State) (i : Nat) (f : State → State) : State :=
  let l := (s.clu.map fun e => e.2.tbClaims.filter fun a => decide (s.cyc < a.g / 4 ∧ fld a.val 15 0 = i)).flatten
  let undo (s : State) (a : TbAcc) : State :=
    let s := s.setClu (cluOf a.thread) fun k => { k with tbClaims := k.tbClaims.erase a }
    let s := if a.status = 0 ∧ a.cnt then
        { s with cntAdds := s.cntAdds.erase (a.g / 4, rgnOf a.thread * 65536 + i, fld a.val 31 16) }
      else s
    s.modTh a.thread fun y => y.tbDrop a.at_
  l.foldl (fun s a => s.tbServe a) (f (l.foldl undo s))

end Sys2Proof.Machine
end

