-- ==== Sys2Proof/Machine/Issue.lean ====
section
/-! DEFINITION. The issue of a word: fetch, checks, reading sources, writing destinations, and what each trigger does behind its
socket (R81 to R142, R154 to R177, R185). -/

namespace Sys2Proof.Machine

/-! ## Slots and sources -/

/-- Of the results on their way, in trigger order, those that are still to be seen behind core cycle `c`: not due, and of no older operation
than one of the same socket that is due (R110). -/
def pendLeft (c : Nat) : List Pend → List Pend
  | [] => []
  | p :: r => if p.at_ ≤ c ∨ r.any (fun q => decide (q.sock = p.sock ∧ q.at_ ≤ c)) then pendLeft c r else p :: pendLeft c r

/-- A socket holds by core cycle `c` the result of its latest operation whose latency has elapsed (R110). -/
def Thread.arrive (x : Thread) (c : Nat) : Thread :=
  let due := x.pend.filter fun p => decide (p.at_ ≤ c)
  { due.foldl (fun x p => x.setRes p.sock p.value) x with pend := pendLeft c x.pend }

/-- The core cycle of a context's next slot: packet programs issue in consecutive own slots; in task mode an own slot at or
after now (R40, R145). -/
def State.slotOf (s : State) (t : Nat) : Nat :=
  let x := s.th t
  if s.pkt t ∧ !x.stepping then x.nextCyc else max x.nextCyc (ownSlot t s.cycCeil)

/-- TH.flags (R118). -/
def Thread.flags (x : Thread) : Word := nw (b2n x.carry + 2 * b2n x.ov + 4 * b2n x.dz)

/-- The timebase at a tick. -/
def State.tbAtTick (s : State) (k : Nat) : Nat := s.fineAt k / (24 * tbUnit) % 2 ^ 64

/-- The tick at which the timebase sample of a word that issues in core cycle `c` is taken: from 4 ns before the slot up to its start, and not
before the context's previous sample (R108). -/
def State.sampleTick (s : State) (t c : Nat) : Nat := max (s.cycTick c - min 96 (Config.sampleAge s.draw)) (s.th t).tbTick

/-- The timebase sample of a word of a context that issues in core cycle `c` (R108). -/
def State.sample (s : State) (t c : Nat) : Nat := s.tbAtTick (s.sampleTick t c)

/-- The value of source socket `k` at the start of the slot (R107). -/
def State.source (s : State) (t c : Nat) (x : Thread) (k : Nat) : Word :=
  if k < 0x020 then x.wv k
  else if k < 0x028 then b2w (x.p.toNat.testBit (k - 0x020))
  else if 0x030 ≤ k ∧ k < 0x040 then b2w (x.sb.toNat.testBit (k - 0x030))
  else
    match k with
    | 0x380 => nw x.pc
    | 0x381 => x.lr
    | 0x384 => x.rc
    | 0x386 => nw ((x.rep.map (·.index)).getD 0)
    | 0x396 => nw (s.sample t c)
    | 0x397 => x.thi
    | 0x398 => nw (2 * t)
    | 0x3B0 => x.vec
    | 0x3B1 => x.ctl
    | 0x3B2 => x.flags
    | 0x3B3 => x.cause
    | _ => x.resv k

/-- A move that takes effect, with its value. -/
structure Eff where
  dst : Nat
  x   : Nat
  v   : Word
  deriving DecidableEq, Repr

/-- The moves of a word whose guards hold, with their values read at the start of the slot (R87, R89, R90). A word that reads
TU.tlo and TU.thi reads one sample. -/
def State.effects (s : State) (t c : Nat) (x : Thread) (ms : List Mv) : List Eff :=
  let live := ms.filter fun m => guardTrue m.g x.p
  let lo := live.any fun m => m.reads fun k => k = 0x396
  live.map fun m =>
    { dst := m.dst, x := m.x,
      v := match m.imm with
        | some v => v
        | none => if lo ∧ m.src % 1024 = 0x397 then nw (s.sample t c / 2 ^ 32) else s.source t c x (m.src % 1024) }

/-- A write to a destination that triggers nothing (R103 to R105); NULL discards. -/
def Thread.write (x : Thread) (e : Eff) : Thread :=
  if e.dst < 0x020 then { x with w := tSet (fun _ => 0) x.w e.dst e.v }
  else if e.dst < 0x028 then
    { x with p := (x.p &&& ~~~ BitVec.ofNat 8 (2 ^ (e.dst - 0x020))) ||| BitVec.ofNat 8 (b2n (decide (e.v ≠ 0)) * 2 ^ (e.dst - 0x020)) }
  else
    match e.dst with
    | 0x384 => { x with rc := e.v }
    | 0x3B0 => { x with vec := e.v }
    | 0x3B1 => { x with ctl := e.v &&& 3 }
    | _ => if isOperand e.dst then { x with op := tSet (fun _ => 0) x.op e.dst e.v } else x

/-! ## Record window -/

/-- The CMEM address of a record buffer (R233). -/
def recBase (t b : Nat) : Nat := 0xD8000 + 512 * ctxNo t + 256 * b

/-- The size of a PW access. -/
def pwSize (x : Nat) : Nat := match x % 4 with | 0 => 1 | 1 => 2 | _ => 4

/-- PW (R129, R130): a load puts its bytes in wire or record order in PW.r; a store writes PW.d. A load that meets a UE reads 0
and marks the record poisoned (R239). -/
def State.pw (s : State) (t c x : Nat) (v : Word) : State :=
  let th := s.th t
  let a := recBase t th.buf + v.toNat
  let n := pwSize x
  if x < 4 then
    let r := s.cmemRead (cluOf t) a n
    if r.2.1 = 2 then (s.cmemUe (cluOf t) a).modTh t fun y => ({ y with recPois := true }).result c 1 0x0B0 0
    else r.2.2.modTh t fun y => y.result c 1 0x0B0 (nw (if x = 3 then leNat r.1 else beNat r.1))
  else
    let d := (th.opv 0x0B0).toNat % 256 ^ n
    s.cmemPut (cluOf t) a (if x = 7 then leBytes n d else beBytes n d)

/-! ## CMEM access -/

/-- The bank pair of an address (R63). -/
def bankPair (a : Nat) : Nat := a / 16 % 8

/-- LS (R64, R131 to R133): the access claims its bank pair, and is performed on the A port in the cycle in which its core owns that pair. -/
def State.ls (s : State) (t c x : Nat) (v : Word) : State :=
  let a := v.toNat
  let g := s.bankCycle t (bankPair a) c
  let s := (s.copsPull (cluOf t)).setClu (cluOf t) fun k =>
    { k with lsClaims := (t / 8, bankPair a, c) :: k.lsClaims.filter fun e => decide (c < e.2.2 + 8)
             acc := k.acc.filter fun e => decide (c ≤ e.g)
             bacc := k.bacc.filter fun e => decide (c ≤ e.g) }
  (s.fillTo (cluOf t) g).atPort (cluOf t) (g + 1) g fun s =>
    s.lsDo { g := g, thread := t, at_ := c, x := x, addr := a, data := (s.th t).opv 0x0A0, done := false, old := Arr.empty, logged := false }

/-! ## Checks of a trigger in its own slot -/

/-- Bit `i` of a scoreboard mask. -/
def sbBit (m : BitVec 16) (i : Nat) : Bool := m.toNat.testBit i

/-- The target of CU.jmp and CU.call (R142). -/
def cuTarget (pc x : Nat) (v : Word) : Option Nat :=
  let i : Int := if x = 1 then (pc : Int) + v.toInt else v.toNat
  if 0 ≤ i ∧ i < 16384 then some i.toNat else none

/-- The child that a join names: a joinable child of the joiner, or one of its killed children (R158). -/
def State.joinOk (s : State) (t : Nat) (v : Word) : Bool :=
  match threadOf v.toNat with
  | some k => (tFind (s.th t).dead k).isSome || decide ((s.th k).parent = some t)
  | none => false

/-- The scoreboard wait of R69 and R137 as it issues: none when it is satisfied; a cause and detail where it traps. The context is that of the
start of the slot: a DM, TB or CP operation of the same word has not yet cleared its bit, nor does it own it. R137 does not say which comes
first: DESIGN CHOICE (log entry 188). -/
def Thread.waitTrap (x : Thread) (pkt : Bool) (v : Word) : Option (Nat × Nat) :=
  let m := v.toNat % 65536
  let late := if pkt then lowBit? 16 (m &&& ((65535 : Nat) - x.sb.toNat))
    else lowBit? 16 (m &&& ((65535 : Nat) - x.sb.toNat) &&& ((65535 : Nat) - x.sbOwned.toNat))
  match late with
  | some b => some (0x05, b)
  | none => (lowBit? 16 (m &&& x.sbPois.toNat)).map fun b => (0x0F, b)

/-- The first failing check of a trigger, as cause and detail; `x` is the context after the word's writes (R112), `x0` at the
start of the slot. Two operations of one word that name the same bit are both started, and the first that completes frees and sets the bit: the
bit is owned from the slot in which an operation issues, and R137 does not say how two of one slot stand to each other. DESIGN CHOICE (log
entry 189). The contract of the packet calendars is not checked where a stopped context is stepped (R182). -/
def State.preTrap (s : State) (t c pc : Nat) (x x0 : Thread) (e : Eff) : Option (Nat × Nat) :=
  let pkt := s.pkt t
  let free := pkt && x0.stopped
  let n := e.v.toNat
  match e.dst with
  | 0x0B1 => if 256 < n + pwSize e.x then some (0x0C, 0) else none
  | 0x0A1 =>
    if n % lsSize e.x ≠ 0 then some (0x09, 0)
    else if 0xD8000 ≤ n then some (0x0A, 0)
    else if !free && (s.clu? (cluOf t)).lsClaims.any fun k => decide (k.1 = t / 8 ∧ k.2.1 = bankPair n ∧ c < k.2.2 + 8 ∧ k.2.2 < c + 8) then
      some (0x08, bankPair n)
    else none
  | 0x0C0 =>
    if pkt then (if !free ∧ (s.tbGrant t c).isNone then some (0x07, 0) else none)
    else if sbBit x0.sbOwned 15 then some (0x06, 15) else none
  | 0x0E1 =>
    match s.dmDecode (cluOf t) n with
    | .align => some (0x0D, e.x)
    | .range => some (0x0E, e.x)
    | .teller _ => some (0x0E, e.x)
    | .maint _ => some (0x0E, e.x)
    | _ => if sbBit x0.sbOwned e.x then some (0x06, e.x) else none
  | 0x0E2 =>
    match s.dmDecode (cluOf t) n with
    | .align => some (0x0D, e.x)
    | .range => some (0x0E, e.x)
    | .teller _ => if pkt then some (0x0E, e.x) else if sbBit x0.sbOwned e.x then some (0x06, e.x) else none
    | .maint _ => if pkt then some (0x0E, e.x) else if sbBit x0.sbOwned e.x then some (0x06, e.x) else none
    | _ => if sbBit x0.sbOwned e.x then some (0x06, e.x) else none
  | 0x0F0 =>
    if pkt ∧ e.x = 0 then some (0x16, 1)
    else if pkt ∧ e.x = 2 then some (0x16, 2)
    else if (lockName t n).isNone then some (0x17, 0) else none
  | 0x109 =>
    if pkt ∧ e.x < 8 then some (0x16, 3) else if 31 < (x.opv 0x108).toNat then some (0x18, 0) else none
  | 0x10A =>
    if pkt ∧ e.x = 1 then some (0x16, 4) else if pkt ∧ e.x = 2 then some (0x16, 5)
    else if 31 < n then some (0x18, 0) else none
  | 0x380 => if (cuTarget pc e.x e.v).isNone then some (0x13, 0) else none
  | 0x381 => if (cuTarget pc e.x e.v).isNone then some (0x13, 0) else none
  | 0x382 => if 16384 ≤ x0.lr.toNat then some (0x13, 0) else none
  | 0x391 => if s.joinOk t e.v then none else some (0x1A, 0)
  | 0x394 =>
    match threadOf n with
    | some k => if rgnOf k = rgnOf t ∧ fld e.v 19 16 ≤ 12 then none else some (0x19, 0)
    | none => some (0x19, 0)
  | 0x3A0 =>
    match x0.waitTrap pkt e.v with
    | some q => if free ∧ q.1 = 0x05 then none else some q
    | none => none
  | _ =>
    if 0x300 ≤ e.dst ∧ e.dst ≤ 0x33F then
      if pkt then some (0x20, 0)
      else if n % 64 ≠ 0 ∨ 0xD8000 ≤ n then some (0x21, 0)
      else if sbBit x0.sbOwned e.x then some (0x06, e.x)
      else if 4 ≤ (s.cop (cluOf t) ((e.dst - 0x300) / 16)).queue.length then some (0x22, 0) else none
    else none

/-- The lower of two optional causes. -/
def lowerTrap (a b : Option (Nat × Nat)) : Option (Nat × Nat) :=
  match a, b with
  | some p, some q => if q.1 < p.1 then some q else some p
  | some p, none => some p
  | none, q => q

/-! ## Flags and the traps that follow a word (R116 to R119) -/

/-- What the arithmetic triggers of a word set: OV, DZ. -/
def arithSets (x x0 : Thread) (e : Eff) : Bool × Bool :=
  match e.dst with
  | 0x041 => ((aluOp e.x e.v (x.opv 0x040) x0.carry).ov, false)
  | 0x051 => ((aluOp e.x e.v (x.opv 0x050) x0.carry).ov, false)
  | 0x071 => ((mulOp e.x e.v (x.opv 0x070)).2.2, false)
  | 0x081 => let r := divOp e.x e.v (x.opv 0x080); (r.2.2.1, r.2.2.2)
  | _ => (false, false)

/-- The traps that take effect after the word: OV, DZ under the enables of the start of the slot, SWTRAP, and PC_RANGE of a word
that transfers no control and behind which address 16,384 would follow (R119, R142). A packet-mode word whose CU.end takes effect is followed by
none, and takes no PC_RANGE: DESIGN CHOICE (log entry 218). -/
def postTrap (pkt : Bool) (next : Nat) (x x0 : Thread) (es : List Eff) : Option (Nat × Nat) :=
  let ov := es.any fun e => (arithSets x x0 e).1
  let dz := es.any fun e => (arithSets x x0 e).2
  let moves := es.any fun e => decide (0x380 ≤ e.dst ∧ e.dst ≤ 0x382) || (pkt && decide (e.dst = 0x383))
  let a := if ov ∧ bit x0.ctl 1 then some (0x10, 0) else none
  let b := if dz ∧ bit x0.ctl 0 then some (0x11, 0) else none
  let d := if 16384 ≤ next ∧ !moves then some (0x13, 0) else none
  let w := (es.find? fun e => decide (e.dst = 0x385)).map fun e => (0x14, e.v.toNat % 256)
  lowerTrap a (lowerTrap b (lowerTrap d w))

/-- The results and flags of the arithmetic, compare and checksum units; IB's carry is kept over IA's (R116). -/
def Thread.arith (x x0 : Thread) (c : Nat) (e : Eff) : Thread :=
  match e.dst with
  | 0x041 => let r := aluOp e.x e.v (x.opv 0x040) x0.carry; { x with ov := x.ov || r.ov }.result c 1 0x040 r.r
  | 0x051 => let r := aluOp e.x e.v (x.opv 0x050) x0.carry; { x with ov := x.ov || r.ov }.result c 1 0x050 r.r
  | 0x061 => x.result c 1 0x060 (bfOp e.x e.v (x.opv 0x060) (x.opv 0x062))
  | 0x071 =>
    let r := mulOp e.x e.v (x.opv 0x070)
    ({ x with ov := x.ov || r.2.2 }.result c 1 0x070 r.1).result c 1 0x071 r.2.1
  | 0x081 =>
    let r := divOp e.x e.v (x.opv 0x080)
    ({ x with ov := x.ov || r.2.2.1, dz := x.dz || r.2.2.2 }.result c 3 0x080 r.1).result c 3 0x081 r.2.1
  | 0x092 => x.result c 1 0x090 (ckOp e.x e.v (x.opv 0x090) (x.opv 0x091))
  | _ =>
    if 0x0D8 ≤ e.dst ∧ e.dst ≤ 0x0DF then
      let m : BitVec 8 := BitVec.ofNat 8 (2 ^ (e.dst - 0x0D8))
      { x with p := if guOp e.x e.v (x.opv 0x0D0) then x.p ||| m else x.p &&& ~~~ m }
    else x

/-- The carry after a word: IB's where IB writes it, else IA's where IA does, else unchanged (R115, R116). -/
def carryOf (x x0 : Thread) (es : List Eff) : Bool :=
  let of (d o : Nat) : Option Bool :=
    (es.find? fun e => decide (e.dst = d)).bind fun e => (aluOp e.x e.v (x.opv o) x0.carry).carry
  match of 0x051 0x050 with
  | some b => b
  | none => (of 0x041 0x040).getD x0.carry

/-- TH.fclr clears sticky flags; a flag that the same word sets ends set (R117). -/
def Thread.fclr (x : Thread) (es : List Eff) : Thread :=
  match es.find? fun e => decide (e.dst = 0x3B2) with
  | some e => { x with ov := x.ov && !bit e.v 1, dz := x.dz && !bit e.v 2 }
  | none => x

/-! ## The other units -/

/-- TB (R61, R134 to R136): in packet mode the lookup is served at the port cycle granted, and the result is readable from slot k + 3; in task
mode it is outstanding on sb15. -/
def State.tb_ (s : State) (t c x : Nat) (v : Word) : State :=
  if s.pkt t then
    s.tbServe { core := t / 8, g := (s.tbGrant t c).getD (4 * c), thread := t, at_ := c, cnt := decide (x = 1), val := v, status := 0,
                fail := (s.th t).polFail }
  else s.modTh t fun y => { y.sbStart 15 with tb := some { cnt := decide (x = 1), val := v } }

/-- A DM operation of a context is outstanding on bit `b`. -/
def State.dmPut (s : State) (t b : Nat) (o : DmOp) : State := s.modTh t fun y => { y.sbStart b with dm := y.dm ++ [o] }

/-- A DM access of the cached path reaches the cache in its turn, and what it ends with is on its way (R138, R139, R243, R244). -/
def State.dmAccess (s : State) (t c b a d : Nat) (w : CdcDo) : State :=
  let o : CdcOp := { thread := t, sb := b, what := w, addr := a, mem := d, was := (Arr.empty, Arr.empty), left := (Arr.empty, Arr.empty) }
  let r := s.cdcTurn (cluOf t) c o
  r.2.dmPut t b (o.dmOp c r.1)

/-- DM.ld (R138, R243): the bit is cleared and owned; the word, as it stands in the load's place among the accesses of its core cycle (R244), is
on its way. -/
def State.dmLoad (s : State) (t c b : Nat) (v : Word) : State :=
  let cl := cluOf t
  let a := v.toNat
  let put (s : State) (w : Word) (pois : Bool) : State :=
    let same := (s.clu? cl).dmSame c a
    let old := ((same.head?).map (·.old)).getD w
    let h : DmHit := { thread := t, sb := b, addr := a, store := none, old := old }
    let o : DmOp := { load := true, sb := b, value := dmSeen same c (h.place c) old, poison := pois, due := c + 48, line := a / 64, around := false }
    if pois then s.dmPut t b o else (s.dmPut t b o).dmNote cl c h
  match s.dmDecode cl a with
  | .spm w o => if s.spmUe cl w o then put (s.spmErr cl w o) 0 true else put s (s.spmLoad cl w o) false
  | .mem d => s.dmAccess t c b a d .load
  | _ => s

/-- A load of the core cycle receives what its place among the accesses `l` gives it. -/
def State.dmMend (s : State) (l : List DmHit) (c : Nat) (old : Word) : State :=
  l.foldl (fun s h =>
    if h.store.isSome then s
    else s.modTh h.thread fun y =>
      { y with dm := y.dm.map fun o => if o.sb = h.sb ∧ o.load then { o with value := dmSeen l c (h.place c) old } else o }) s

/-- DM.st (R138, R218, R243, R249): a store, a Teller command, or a maintenance operation. A store takes its place among the accesses of its
core cycle to the word: the word holds the last of them, and a load behind it receives it (R244). -/
def State.dmStore (s : State) (t c b : Nat) (v : Word) : State :=
  let cl := cluOf t
  let a := v.toNat
  let d := (s.th t).opv 0x0E0
  let same := (s.clu? cl).dmSame c a
  let old := ((same.head?).map (·.old)).getD (s.dmPeek cl a)
  let h : DmHit := { thread := t, sb := b, addr := a, store := some d, old := old }
  let last := dmSeen (same ++ [h]) c 8 old
  match s.dmDecode cl a with
  | .spm w o =>
    (((s.spmStore cl w o last).dmPut t b { load := false, sb := b, value := 0, poison := false, due := c + 48, line := a / 64, around := false }).dmMend
      (same ++ [h]) c old).dmNote cl c h
  | .mem m => s.dmAccess t c b a m (.store d)
  | .teller _ => (s.modTh t fun y => y.sbStart b).windowStore t b d
  | .maint code =>
    if code = 0 ∨ 6 < code then (s.modTh t fun y => y.sbStart b).sbDone t b false
    else
      let m : Maint := { thread := some t, sb := b, code := code, off := d.toNat, refused := false, fatal := false, wait := none, arounds := [], cyc := 0 }
      (s.modTh t fun y => y.sbStart b).setClu cl fun k => { k with maint := k.maint ++ [m] }
  | _ => s

/-- LK (R163 to R167): acq, try, arm, rel. LK.r is readable from slot k + 2 for a cluster lock, k + 4 for a region lock. -/
def State.lk (s : State) (t c x : Nat) (v : Word) (back : Nat × Option Rep) : State :=
  match lockName t v.toNat with
  | none => s
  | some (pg, l) => s.lockOp (lockKey pg l) c { thread := t, kind := x, back := back, ev := (s.th t).ev.getLsbD 14 }

/-- CH.seal (R174, R175). -/
def State.chSeal (s : State) (t c x : Nat) (v : Word) (back : Nat × Option Rep) : State :=
  let y := s.th t
  let m : Msg := { sender := ownerOf t, words := (List.range (x % 8)).map (fun i => y.opv (0x100 + i)) ++ [v], at_ := c + 8 }
  s.sealOp (cluOf t) ((y.opv 0x108).toNat % 32) c { thread := t, try_ := decide (8 ≤ x), msg := m, back := back }

/-- A receive takes a message: its words are readable from slot k + 2 (R176). -/
def Thread.recvMsg (x : Thread) (c n : Nat) (m : Msg) : Thread :=
  ((List.range 8).foldl (fun x i => x.result c 2 (0x100 + i) (m.words.getD i 0)) x).result c 2 0x108 (chStat (x.latest 0x108) n m)

/-- CH.rx (R176, R177): try, recv, arm. A seal of the same core cycle whose command comes later finds the channel as this leaves it: R177
orders seals with seals only. DESIGN CHOICE (log entry 190). A try that finds nothing leaves SENDER and CHANNEL of CH.s as they were: DESIGN
CHOICE (log entry 217). -/
def State.chRx (s : State) (t c x n : Nat) : State :=
  let cl := cluOf t
  let ch : Chan := { s.chan cl n with turn := none }
  let nothing (s : State) : State := s.modTh t fun y => y.result c 2 0x108 (setFld (y.latest 0x108) 3 0 0)
  match x with
  | 2 => if ch.msgs = [] then s.putChan cl n { ch with armed := ch.armed ++ [t] } else s.latch t 15
  | _ =>
    match ch.msgs with
    | m :: r =>
      if x = 1 ∨ m.at_ ≤ c then
        ((s.putChan cl n { ch with msgs := r }).modTh t fun y => y.recvMsg c n m).admitSender cl n
      else nothing s
    | [] =>
      if x = 1 then (s.putChan cl n { ch with recvq := ch.recvq ++ [t] }).waitIn t .waitChan n
      else nothing s

/-- The context that a fork takes (R154): the lowest-numbered FREE one of the core, else of the cores after it, wrapping. One into which the
Teller dispatches in the same core cycle is still FREE for it (R156). -/
def State.forkCtx (s : State) (t : Nat) : Option Nat :=
  let core := t / 8
  (List.range 8).findSome? fun i =>
    (List.range 8).findSome? fun j =>
      let k := (core / 8 * 8 + (core % 8 + i) % 8) * 8 + j
      if s.isFree k || (decide ((s.th k).st = .idle) && (s.placedAt k).isSome) then some k else none

/-- TU.fork (R154, R155): `x0` is the parent at the start of the slot. -/
def State.fork (s : State) (t c x : Nat) (v : Word) (x0 : Thread) : State :=
  match s.forkCtx t with
  | none => s.modTh t fun y => y.result c 2 0x390 0xFFFFFFFF
  | some k =>
    let child : Thread :=
      { Thread.fresh with st := .running, w := x0.w, p := x0.p, vec := x0.vec, ctl := x0.ctl, pc := v.toNat, forked := true,
                          detached := decide (x = 1), parent := if x = 1 then none else some t, nextCyc := ownSlot k (c + 16) }
    let start (s : State) : State := (s.putTh k (child.setRes 0x390 (nw (2 * t)))).modTh t fun y => y.result c 2 0x390 (nw (2 * k))
    match s.placedAt k with
    | some p => (start (s.unplace (rgnOf t) p)).replace (rgnOf t) p
    | none => start s

/-- TU.join (R158). -/
def State.join (s : State) (t c : Nat) (v : Word) : State :=
  match threadOf v.toNat with
  | none => s
  | some k =>
    match tFind (s.th t).dead k with
    | some e => s.modTh t fun y => { y.result c 2 0x390 e with dead := tDel y.dead k }
    | none =>
      if (s.th k).st = .exited then
        let e := (s.th k).exitVal
        (s.putTh k Thread.fresh).modTh t fun y => y.result c 2 0x390 e
      else s.waitIn t .waitJoin (ctxNo k)

/-- A value reaches the parent that waits to join (R145, R158): it is the result of its latest operation on TU (R110). -/
def State.joinWake (s : State) (p : Nat) (e : Word) : State := (s.modTh p fun y => y.deliver 0x390 e).wake p

/-- TU.exit (R157, R158). -/
def State.exit (s : State) (t : Nat) (v : Word) : State :=
  let x := s.th t
  let s := (((s.leaveLocks t).leaveChans t).orphan t).forget t
  match x.parent with
  | some p =>
    if (s.th p).st = .waitJoin ∧ (s.th p).waitObj = nw (ctxNo t) then (s.putTh t Thread.fresh).joinWake p v
    else s.putTh t { Thread.fresh with st := .exited, exitVal := v, parent := some p, forked := true }
  | none => (s.tellerEnd t v false).putTh t Thread.fresh

/-- TU.wait (R160). -/
def State.tuWait (s : State) (t c : Nat) (v : Word) : State :=
  let m : BitVec 16 := BitVec.setWidth 16 v
  let x := s.th t
  if m = 0 then s.modTh t fun y => y.result c 1 0x390 0
  else if x.ev &&& m ≠ 0 then
    s.modTh t fun y => { y.result c 1 0x390 (BitVec.setWidth 32 (y.ev &&& m)) with ev := y.ev &&& ~~~ m }
  else
    (s.modTh t fun y => { y with mask := m, timeout := if fld v 31 16 = 0 then none else some (c + 64 * fld v 31 16) }).waitIn t
      .waitEvent m.toNat

/-- TU.yield (R162): a Teller-dispatched thread goes back to the Teller. One that has a running forked child is not saved (R224), and the yield
has no other effect than its slot: DESIGN CHOICE (log entry 193). -/
def State.yield_ (s : State) (t : Nat) : State :=
  match (s.th t).tcb with
  | some n => if s.hasKid t then s else (s.modTh t fun y => { y with saveReq := some (2, 0) }).ledger (rgnOf t) 5 0 n (s.tcb (rgnOf t) n).prio (2 * t) 0
  | none => s

/-- A coprocessor trigger that passed its checks (R184, R185): commands that reach the queue in one core cycle stand in the rotating order. -/
def State.cpIssue (s : State) (t c d b : Nat) (v : Word) : State :=
  let n := (d - 0x300) / 16
  let cl := cluOf t
  let s := s.modTh t fun y => y.sbStart b
  let k := s.cop cl n
  let place (q : CopCmd) : Nat := 8 * q.at_ + rotRank 8 (q.thread / 8) q.at_
  s.putCop cl n { k with queue := rotInsert place k.queue { thread := t, sb := b, ptr := v.toNat, kind := d % 16, at_ := c + 32 } }

/-- SB.wait: satisfied, or a task-mode context sleeps; in packet mode it never sleeps (R69, R137). -/
def State.sbWait (s : State) (t : Nat) (v : Word) (x0 : Thread) : State :=
  let m : BitVec 16 := BitVec.setWidth 16 v
  if s.pkt t ∨ x0.sb &&& m = m then s else (s.modTh t fun y => { y with mask := m }).waitIn t .waitSb m.toNat

/-- What a trigger does after the checks, arithmetic units excepted. -/
def State.unit (s : State) (t c pc : Nat) (x0 : Thread) (e : Eff) : State :=
  match e.dst with
  | 0x0B1 => s.pw t c e.x e.v
  | 0x0A1 => s.ls t c e.x e.v
  | 0x0C0 => s.tb_ t c e.x e.v
  | 0x0E1 => s.dmLoad t c e.x e.v
  | 0x0E2 => s.dmStore t c e.x e.v
  | 0x0F0 => s.lk t c e.x e.v (pc, x0.rep)
  | 0x109 => s.chSeal t c e.x e.v (pc, x0.rep)
  | 0x10A => s.chRx t c e.x (e.v.toNat % 32)
  | 0x380 => s.modTh t fun y => { y with pc := (cuTarget pc e.x e.v).getD 0 }
  | 0x381 => s.modTh t fun y => { y with pc := (cuTarget pc e.x e.v).getD 0, lr := nw (pc + 1) }
  | 0x382 => s.modTh t fun y => { y with pc := x0.lr.toNat, inTrap := false }
  | 0x383 => if s.pkt t then s.modTh t fun y => { y with ended := true } else s
  | 0x390 => s.fork t c e.x e.v x0
  | 0x391 => s.join t c e.v
  | 0x392 => s.yield_ t
  | 0x393 => s.tuWait t c e.v
  | 0x394 => { s with events := s.events ++ [((threadOf e.v.toNat).getD 0, fld e.v 19 16,
                         decide (cluOf ((threadOf e.v.toNat).getD 0) ≠ cluOf t))] }
  | 0x395 => s.exit t e.v
  | 0x3A0 => s.sbWait t e.v x0
  | 0x3A1 => s.modTh t fun y => { y with sb := y.sb &&& ~~~ (BitVec.setWidth 16 e.v &&& ~~~ y.sbOwned) }
  | _ => if 0x300 ≤ e.dst ∧ e.dst ≤ 0x33F ∧ e.dst % 16 ≤ 2 then s.cpIssue t c e.dst e.x e.v else s

/-! ## The issue of a word's moves -/

/-- The context at the start of the slot of core cycle `c`, and the same after all the writes of a word (R90, R112). -/
def State.slotStart (s : State) (t c : Nat) : Thread := (s.th t).arrive c
def State.slotEffects (s : State) (t c : Nat) (ms : List Mv) : List Eff := s.effects t c (s.slotStart t c) ms
def State.slotWrites (s : State) (t c : Nat) (ms : List Mv) : Thread := (s.slotEffects t c ms).foldl Thread.write (s.slotStart t c)

/-- The lowest cause of the checks that the word's triggers fail in the slot. -/
def State.slotTrap (s : State) (t c pc : Nat) (ms : List Mv) : Option (Nat × Nat) :=
  (s.slotEffects t c ms).foldl (fun a e => lowerTrap a (s.preTrap t c pc (s.slotWrites t c ms) (s.slotStart t c) e)) none

/-- A move that takes effect reads TU.tlo. -/
def State.slotSamples (s : State) (t c : Nat) (ms : List Mv) : Bool :=
  ms.any fun m => guardTrue m.g (s.slotStart t c).p && m.reads fun k => k = 0x396

/-- The state when the writes, the arithmetic and the flags of a word are done, and before its other triggers act. -/
def State.slotDone (s : State) (t c next : Nat) (ms : List Mv) : State :=
  let x0 := s.slotStart t c
  let es := s.slotEffects t c ms
  let x := s.slotWrites t c ms
  let y := { (es.foldl (fun y e => y.arith x0 c e) (x.fclr es)) with carry := carryOf x x0 es, pc := next }
  if s.slotSamples t c ms then s.drawn.putTh t { y with thi := nw (s.sample t c / 2 ^ 32), tbTick := s.sampleTick t c } else s.putTh t y

/-- The moves of a word in the order in which their triggers act: TU.exit acts when the other move has had its effect (R112). -/
def exitLast (es : List Eff) : List Eff := (es.filter fun e => decide (e.dst ≠ 0x395)) ++ es.filter fun e => decide (e.dst = 0x395)

/-- The context waits: it is in a waiting state of R146. -/
def Thread.waits (x : Thread) : Bool := decide (x.st ≠ .running ∧ x.st ≠ .idle ∧ x.st ≠ .exited ∧ x.st ≠ .resetting)

/-- The moves of a word that passed R94 and R95 issue in core cycle `c` at address `pc`: all sources are read, then all
destinations written, then the triggers act on the operands as they stand after the writes; a check that fails in the slot
leaves the word without effect; then the traps that follow the word (R90, R112, R119). `next` is the address that follows. Where such a trap
meets a word whose other move has begun a wait, the trap comes first (log entry 187); where it meets TU.exit there is no context left to trap:
DESIGN CHOICE (log entry 219). -/
def State.issueMoves (s : State) (t c pc next : Nat) (ms : List Mv) : State :=
  let x0 := s.slotStart t c
  let es := s.slotEffects t c ms
  match s.slotTrap t c pc ms with
  | some (cause, detail) => (s.putTh t x0).trap t c cause detail pc false
  | none =>
    let s2 := (exitLast es).foldl (fun s e => s.unit t c pc x0 e) (s.slotDone t c next ms)
    let y := s2.th t
    let s3 := if y.waits then s2.modTh t fun z => { z with waitAt := some (pc, x0.rep) } else s2
    match (if y.st = .idle ∨ y.st = .exited then none else postTrap (s.pkt t) next (s.slotWrites t c ms) x0 es) with
    | some (cause, detail) => s3.trap t c cause detail pc (decide (cause = 0x13))
    | none => if y.waits || (s.pkt t && y.ended) then s3.lateNow t pc else s3

end Sys2Proof.Machine
end

