-- ==== Sys2Proof/Machine/Moves.lean ====
section
/-! DEFINITION. The commands of the move set and the units: each names the issue of a word by a thread. The word is fetched from
the program section at the thread's address; a command that names another word is not what issues, and has no effect. -/

namespace Sys2Proof.Machine

/-- The span of the active profile (R43). -/
def State.span (s : State) : Nat := s.prof.img.span

/-- The context has a word to issue: it runs, is not halted, is not being saved, its cluster is live, and its packet program has
slots left, or is stepped in a detached cluster (R45, R143, R181, R182, R224, R511). -/
def State.canIssue (s : State) (t : Nat) : Bool :=
  let x := s.th t
  decide (x.st = .running) && (!x.stopped || x.stepping) && x.saveReq.isNone && decide ((s.clu? (cluOf t)).st = .live)
    && (!s.pkt t || x.stepping || (!x.ended && decide (x.nextCyc < x.t0 + 8 * s.span)))

/-- The CMEM address of program address `i` (R234). -/
def progAt (i : Nat) : Nat := 0xE0000 + 8 * i

/-- The issue word at a program address of a cluster, the outcome of its check code, and the state with a CE logged (R85, R238). -/
def State.fetchWord (s : State) (c i : Nat) : IssueWord × Nat × State :=
  let r := s.cmemRead c (progAt i) 8
  (BitVec.ofNat 64 (leNat r.1), r.2.1, r.2.2)

/-- An uncorrectable error in a fetched word is a class 3 error of the CMEM page (R238, R538). -/
def State.progUe (s : State) (c i : Nat) : State :=
  (s.bump (aCmem c 0x704)).err (cluPage c 1) 3 0x0B (s.cmem.synd arrCmem (cmemAt c (progAt i) / 8)) i

/-- The count that a prefix latches: 0 counts as 65,536 (R98, KL-7). -/
def latched (n : Nat) : Nat := if n = 0 then 65536 else n

/-- A prefix issues: the body, at the next address, follows (R97 to R101). -/
def State.prefixTo (s : State) (t c pc : Nat) (r : Rep) : State :=
  let s := s.modTh t fun x => { x with pc := pc + 1, rep := some r }
  if pc = 16383 then s.trap t c 0x13 0 pc true else s

/-- The slot moves on after a word that is no pair of moves. -/
def State.plainNext (s : State) (t c pc : Nat) : State :=
  let s := s.modTh t fun x => { x with pc := pc + 1 }
  if pc = 16383 then s.trap t c 0x13 0 pc true else s

/-- A word issues in core cycle `c` at address `pc`; `body` tells the first issue of a repeat body. A count from CU.rc above 65,536 is latched
whole, although REPEAT0 of R215 holds no more than 65,536: DESIGN CHOICE (log entry 220). -/
def State.runWord (s : State) (t c pc next : Nat) (w : IssueWord) (body : Bool) : State :=
  let pkt := s.pkt t
  match illegal w pkt body false with
  | some d => s.trap t c 0x01 d pc false
  | none =>
    if unpopulated w then s.trap t c 0x02 0 pc false
    else
      match wordKind w with
      | .pair a b => s.issueMoves t c pc next [a, b]
      | .imm m => s.issueMoves t c pc next [m]
      | .rep g n =>
        let live := guardTrue g (s.th t).p
        s.prefixTo t c pc { live := if live then latched n else 0, total := latched n, capped := false, body := pc + 1, index := 0, first := true }
      | .repRc g cap =>
        let live := guardTrue g (s.th t).p
        let n := latched (s.th t).rc.toNat
        if live ∧ cap ≠ 0 ∧ cap < n then s.trap t c 0x12 0 pc false
        else
          s.prefixTo t c pc { live := if live then n else 0, total := if cap ≠ 0 then cap else if live then n else 1,
                              capped := decide (cap ≠ 0), body := pc + 1, index := 0, first := true }
      | .span _ => s.plainNext t c pc
      | .bad => s

/-- The state at the slot in which a context issues: time has come to it, the results that are due stand in their sockets. -/
def State.atSlot (s : State) (t c : Nat) : State :=
  ((s.upToCyc c).modTh t fun x => { x.arrive c with nextCyc := c + 8, stepping := false }).active (cluOf t)

/-- The trap that an earlier operation has left for the slot of core cycle `c` (R133, R141). -/
def Thread.lateDue (x : Thread) (c : Nat) : Option LateTrap := x.lateTrap.find? fun l => decide (l.at_ ≤ c)

/-- The span of a packet program is over: its context is PKT_IDLE (R146). -/
def State.pktDone (s : State) (t : Nat) : Bool :=
  let x := s.th t
  s.pkt t && decide (x.st = .running) && !x.stopped && decide (x.t0 + 8 * s.span ≤ s.cyc)

/-- A context issues word `w` in its next slot. -/
def State.issueWord (s : State) (t : Nat) (w : IssueWord) : State :=
  let x := s.th t
  if !s.canIssue t || x.rep.isSome || (s.pkt t && decide (x.nextCyc = x.t0)) then s
  else
    let c := s.slotOf t
    match x.lateDue c with
    | some l => (s.atSlot t c).takeLate t c x.pc l
    | none =>
      if 16384 ≤ x.pc then (s.atSlot t c).trap t c 0x13 0 x.pc false
      else
        let f := s.fetchWord (cluOf t) x.pc
        if f.2.1 = 2 then s.progUe (cluOf t) x.pc
        else if f.1 = w then (f.2.2.atSlot t c).runWord t c x.pc (x.pc + 1) w false else s

/-- MOVE: a thread issues the word. -/
def execMove (t : ThreadId) (w : IssueWord) (s : State) : Host.Outcome State Fault Refusal := .next (s.issueWord t.val w)

/-- REPEAT: a literal prefix (R96, R97). -/
def execRepeat (t : ThreadId) (g : BitVec 4) (n : BitVec 16) (s : State) : Host.Outcome State Fault Refusal :=
  .next (s.issueWord t.val (longWord g.toNat 0 0 1 n.toNat))

/-- REPEAT_RC: a prefix that takes its count from CU.rc (R97, R99). -/
def execRepeatRc (t : ThreadId) (g : BitVec 4) (cap : BitVec 16) (s : State) : Host.Outcome State Fault Refusal :=
  .next (s.issueWord t.val (longWord g.toNat 0 0 2 cap.toNat))

/-- The next slot of a repeat: the body issues, or the slot is guarded false; after the last the thread goes on behind the body
(R97, R99, R101). -/
def State.bodyIssue (s : State) (t : Nat) : State :=
  let x := s.th t
  match x.rep with
  | none => s
  | some r =>
    if !s.canIssue t then s
    else
      let c := s.slotOf t
      let f := s.fetchWord (cluOf t) r.body
      if f.2.1 = 2 then s.progUe (cluOf t) r.body
      else
        let s := f.2.2.atSlot t c
        let last := decide (r.total ≤ r.index + 1)
        let next := if last then r.body + 1 else r.body
        let after (s : State) : State :=
          if (s.th t).rep = some r then
            s.modTh t fun x => { x with rep := if last then none else some { r with index := r.index + 1, first := false } }
          else s
        match x.lateDue c with
        | some l => s.takeLate t c r.body l
        | none =>
        if r.index < r.live then after (s.runWord t c r.body next f.1 r.first)
        else
          match illegal f.1 (s.pkt t) r.first false with
          | some d => s.trap t c 0x01 d r.body false
          | none =>
            if unpopulated f.1 then s.trap t c 0x02 0 r.body false
            else
              let s := after (s.modTh t fun x => { x with pc := next })
              if last && decide (r.body = 16383) then s.trap t c 0x13 0 r.body true else s

/-- REPEAT_BODY_ISSUE. -/
def execRepeatBodyIssue (t : ThreadId) (s : State) : Host.Outcome State Fault Refusal := .next (s.bodyIssue t.val)

/-- SPAN_MARKER (R44, R111, R591): slot 0 of a packet program clears the context, and the word at the packet entry address must
be a span marker that carries S; a single step is not checked (R182). A DM access that is still outstanding then no longer owns its bit, and
completes into nothing: DESIGN CHOICE (log entry 221). -/
def State.spanMark (s : State) (t : Nat) : State :=
  let x := s.th t
  if !s.canIssue t || !s.pkt t || decide (x.nextCyc ≠ x.t0) then s
  else
    let c := x.t0
    let pc := (s.clu? (cluOf t)).entry
    let y : Thread := { Thread.fresh with st := .running, stopped := x.stopped, stepping := false, buf := x.buf, t0 := x.t0, nextCyc := c + 8,
                                          pc := pc, ev := x.ev, tbTick := x.tbTick }
    let f := s.fetchWord (cluOf t) pc
    if f.2.1 = 2 then s.progUe (cluOf t) pc
    else
      let s := (f.2.2.upToCyc c).putTh t y
      match illegal f.1 true false true with
      | some d => s.trap t c 0x01 d pc false
      | none =>
        if unpopulated f.1 then s.trap t c 0x02 0 pc false
        else if wordKind f.1 = .span s.span ∨ x.stopped then s.plainNext t c pc
        else s.trap t c 0x03 0 pc false

/-- SPAN_MARKER. -/
def execSpanMarker (t : ThreadId) (s : State) : Host.Outcome State Fault Refusal := .next (s.spanMark t.val)

/-- SPAN_OVERRUN (R45): no end move by the end of slot S − 1. -/
def State.spanOver (s : State) (t : Nat) : State :=
  let x := s.th t
  if s.pkt t ∧ x.st = .running ∧ !x.ended ∧ !x.stopped ∧ x.t0 + 8 * s.span ≤ x.nextCyc then
    (s.upToCyc (x.t0 + 8 * s.span)).trap t (x.t0 + 8 * (s.span - 1)) 0x04 0 x.pc false
  else s

/-- SPAN_OVERRUN. -/
def execSpanOverrun (t : ThreadId) (s : State) : Host.Outcome State Fault Refusal := .next (s.spanOver t.val)

/-- ALU_OP: a trigger of IA or IB (R120). -/
def execAluOp (t : ThreadId) (f : MoveForm) (ib : Bool) (x : BitVec 4) (s : State) : Host.Outcome State Fault Refusal :=
  .next (s.issueWord t.val (formWord f (if ib then 0x051 else 0x041) x.toNat))

/-- BF_OP (R124). -/
def execBfOp (t : ThreadId) (f : MoveForm) (x : BitVec 4) (s : State) : Host.Outcome State Fault Refusal :=
  .next (s.issueWord t.val (formWord f 0x061 x.toNat))

/-- MU_OP (R121). -/
def execMuOp (t : ThreadId) (f : MoveForm) (x : BitVec 4) (s : State) : Host.Outcome State Fault Refusal :=
  .next (s.issueWord t.val (formWord f 0x071 x.toNat))

/-- DV_OP (R122). -/
def execDvOp (t : ThreadId) (f : MoveForm) (x : BitVec 4) (s : State) : Host.Outcome State Fault Refusal :=
  .next (s.issueWord t.val (formWord f 0x081 x.toNat))

/-- CK_OP (R127). -/
def execCkOp (t : ThreadId) (f : MoveForm) (x : BitVec 4) (s : State) : Host.Outcome State Fault Refusal :=
  .next (s.issueWord t.val (formWord f 0x092 x.toNat))

/-- GU_COMPARE (R126). -/
def execGuCompare (t : ThreadId) (f : MoveForm) (p : Fin 8) (x : BitVec 4) (s : State) : Host.Outcome State Fault Refusal :=
  .next (s.issueWord t.val (formWord f (0x0D8 + p.val) x.toNat))

/-- PW_LOAD (R129). -/
def execPwLoad (t : ThreadId) (f : MoveForm) (x : Fin 4) (s : State) : Host.Outcome State Fault Refusal :=
  .next (s.issueWord t.val (formWord f 0x0B1 x.val))

/-- PW_STORE (R129). -/
def execPwStore (t : ThreadId) (f : MoveForm) (x : Fin 4) (s : State) : Host.Outcome State Fault Refusal :=
  .next (s.issueWord t.val (formWord f 0x0B1 (4 + x.val)))

/-- LS_LOAD (R131). -/
def execLsLoad (t : ThreadId) (f : MoveForm) (x : Fin 5) (s : State) : Host.Outcome State Fault Refusal :=
  .next (s.issueWord t.val (formWord f 0x0A1 x.val))

/-- LS_STORE (R131). -/
def execLsStore (t : ThreadId) (f : MoveForm) (x : Fin 3) (s : State) : Host.Outcome State Fault Refusal :=
  .next (s.issueWord t.val (formWord f 0x0A1 (5 + x.val)))

/-- TB_GET (R134). -/
def execTbGet (t : ThreadId) (f : MoveForm) (s : State) : Host.Outcome State Fault Refusal :=
  .next (s.issueWord t.val (formWord f 0x0C0 0))

/-- TB_CNT (R134). -/
def execTbCnt (t : ThreadId) (f : MoveForm) (s : State) : Host.Outcome State Fault Refusal :=
  .next (s.issueWord t.val (formWord f 0x0C0 1))

/-- TB_TASK_DONE (R136): the lookup is served; its results are written and sb15 is set. -/
def State.tbDone (s : State) (t : Nat) : State :=
  match (s.th t).tb with
  | none => s
  | some q =>
    let r := s.tbLookup (rgnOf t) s.cyc q.cnt q.val
    let s := r.2.2.modTh t fun y =>
      let y := ((List.range 8).foldl (fun y i => y.setRes (0x0C0 + i) (r.1.getD i 0)) y).setRes 0x0C8 (nw r.2.1)
      { y with tb := none }
    s.sbDone t 15 false

/-- TB_TASK_DONE. -/
def execTbTaskDone (t : ThreadId) (s : State) : Host.Outcome State Fault Refusal := .next (s.tbDone t.val)

/-- DM_LD (R138). -/
def execDmLd (t : ThreadId) (f : MoveForm) (sb : Fin 16) (s : State) : Host.Outcome State Fault Refusal :=
  .next (s.issueWord t.val (formWord f 0x0E1 sb.val))

/-- DM_ST (R138). -/
def execDmSt (t : ThreadId) (f : MoveForm) (sb : Fin 16) (s : State) : Host.Outcome State Fault Refusal :=
  .next (s.issueWord t.val (formWord f 0x0E2 sb.val))

/-- A DM access of kind `load` that names bit `b` completes (R138 to R141), unless an earlier access of the context to its line is outstanding
(R140); a maintenance operation no longer waits for it (R248). -/
def State.dmDone (s : State) (t b : Nat) (load : Bool) : State :=
  let l := (s.th t).dm
  match l.find? fun o => decide (o.sb = b ∧ o.load = load) with
  | none => s
  | some o =>
    if (l.takeWhile fun q => decide (q ≠ o)).any fun q => decide (q.line = o.line) then s
    else
      let s := s.modTh t fun y => { (if load then y.setRes (0x0E0 + b) (if o.poison then 0 else o.value) else y) with dm := y.dm.erase o }
      let s := s.setClu (cluOf t) fun k => { k with maint := k.maint.map fun m => { m with arounds := m.arounds.erase (t, b) } }
      s.sbDone t b o.poison

/-- DM_LOAD_DONE. -/
def execDmLoadDone (t : ThreadId) (sb : Fin 16) (s : State) : Host.Outcome State Fault Refusal := .next (s.dmDone t.val sb.val true)

/-- DM_STORE_ACK. -/
def execDmStoreAck (t : ThreadId) (sb : Fin 16) (s : State) : Host.Outcome State Fault Refusal := .next (s.dmDone t.val sb.val false)

/-- MAINT_DONE (R248, R249): the oldest operation of the source that waits for no writeback and no write-around ends; a thread's scoreboard
bit is set, or CDC_MAINT shows DONE and RESULT: 1 REFUSED, 2 FATAL (R256). -/
def State.maintDone (s : State) (c : Nat) (src : Option Nat) : State :=
  match (s.clu? c).maint.find? fun m => decide (m.thread = src ∧ m.wait = some 0 ∧ m.arounds = []) with
  | none => s
  | some m =>
    let s := s.setClu c fun k => { k with maint := k.maint.erase m }
    match m.thread with
    | some t => s.sbDone t m.sb false
    | none => ((s.setRb (aCdc c 0x118) 31 false).hwSet (aCdc c 0x118) 30).setRf (aCdc c 0x118) 29 28 (if m.fatal then 2 else b2n m.refused)

/-- MAINT_DONE. -/
def execMaintDone (c : ClusterId) (src : Option ThreadId) (s : State) : Host.Outcome State Fault Refusal :=
  .next (s.maintDone c.val (src.map (·.val)))

/-- LK_ACQ (R163). -/
def execLkAcq (t : ThreadId) (f : MoveForm) (s : State) : Host.Outcome State Fault Refusal := .next (s.issueWord t.val (formWord f 0x0F0 0))

/-- LK_TRY (R163). -/
def execLkTry (t : ThreadId) (f : MoveForm) (s : State) : Host.Outcome State Fault Refusal := .next (s.issueWord t.val (formWord f 0x0F0 1))

/-- LK_ARM (R163). -/
def execLkArm (t : ThreadId) (f : MoveForm) (s : State) : Host.Outcome State Fault Refusal := .next (s.issueWord t.val (formWord f 0x0F0 2))

/-- LK_REL (R163, R165). -/
def execLkRel (t : ThreadId) (f : MoveForm) (s : State) : Host.Outcome State Fault Refusal := .next (s.issueWord t.val (formWord f 0x0F0 3))

/-- CH_SEND: a blocking send (R174, R175). -/
def execChSend (t : ThreadId) (f : MoveForm) (n : Fin 8) (s : State) : Host.Outcome State Fault Refusal :=
  .next (s.issueWord t.val (formWord f 0x109 n.val))

/-- CH_TRY_SEND (R174, R175). -/
def execChTrySend (t : ThreadId) (f : MoveForm) (n : Fin 8) (s : State) : Host.Outcome State Fault Refusal :=
  .next (s.issueWord t.val (formWord f 0x109 (8 + n.val)))

/-- CH_TRY (R176). -/
def execChTry (t : ThreadId) (f : MoveForm) (s : State) : Host.Outcome State Fault Refusal := .next (s.issueWord t.val (formWord f 0x10A 0))

/-- CH_RECV (R176). -/
def execChRecv (t : ThreadId) (f : MoveForm) (s : State) : Host.Outcome State Fault Refusal := .next (s.issueWord t.val (formWord f 0x10A 1))

/-- CH_ARM (R176). -/
def execChArm (t : ThreadId) (f : MoveForm) (s : State) : Host.Outcome State Fault Refusal := .next (s.issueWord t.val (formWord f 0x10A 2))

/-- CU_JMP (R142). -/
def execCuJmp (t : ThreadId) (f : MoveForm) (rel : Bool) (s : State) : Host.Outcome State Fault Refusal :=
  .next (s.issueWord t.val (formWord f 0x380 (b2n rel)))

/-- CU_CALL (R142). -/
def execCuCall (t : ThreadId) (f : MoveForm) (rel : Bool) (s : State) : Host.Outcome State Fault Refusal :=
  .next (s.issueWord t.val (formWord f 0x381 (b2n rel)))

/-- CU_RET (R142, R149). -/
def execCuRet (t : ThreadId) (f : MoveForm) (s : State) : Host.Outcome State Fault Refusal := .next (s.issueWord t.val (formWord f 0x382 0))

/-- CU_END (R45). -/
def execCuEnd (t : ThreadId) (f : MoveForm) (s : State) : Host.Outcome State Fault Refusal := .next (s.issueWord t.val (formWord f 0x383 0))

/-- CU_TRAP (R142). -/
def execCuTrap (t : ThreadId) (f : MoveForm) (s : State) : Host.Outcome State Fault Refusal := .next (s.issueWord t.val (formWord f 0x385 0))

/-- TU_FORK (R154). -/
def execTuFork (t : ThreadId) (f : MoveForm) (detached : Bool) (s : State) : Host.Outcome State Fault Refusal :=
  .next (s.issueWord t.val (formWord f 0x390 (b2n detached)))

/-- TU_JOIN (R158). -/
def execTuJoin (t : ThreadId) (f : MoveForm) (s : State) : Host.Outcome State Fault Refusal := .next (s.issueWord t.val (formWord f 0x391 0))

/-- TU_YIELD (R162). -/
def execTuYield (t : ThreadId) (f : MoveForm) (s : State) : Host.Outcome State Fault Refusal := .next (s.issueWord t.val (formWord f 0x392 0))

/-- TU_WAIT (R160). -/
def execTuWait (t : ThreadId) (f : MoveForm) (s : State) : Host.Outcome State Fault Refusal := .next (s.issueWord t.val (formWord f 0x393 0))

/-- TU_EVENT (R159). -/
def execTuEvent (t : ThreadId) (f : MoveForm) (s : State) : Host.Outcome State Fault Refusal := .next (s.issueWord t.val (formWord f 0x394 0))

/-- EVENT_LATCH (R159 to R161): a signalled event is latched in its target; an event to a FREE, EXITED or packet-mode context is
discarded and counted in its cluster's CLU page. An event from another cluster resets the stall counter (R179). -/
def State.eventLatch (s : State) (t e : Nat) : State :=
  match s.events.find? fun q => decide (q.1 = t ∧ q.2.1 = e) with
  | none => s
  | some q =>
    let s := { s with events := s.events.erase q }
    let x := s.th t
    if x.st = .idle ∨ x.st = .exited ∨ s.pkt t then s.bump (ra (cluPage (cluOf t) 0) 0x194)
    else if q.2.2 then (s.latch t e).active (cluOf t) else s.latch t e

/-- EVENT_LATCH. -/
def execEventLatch (target : ThreadId) (e : Fin 16) (s : State) : Host.Outcome State Fault Refusal := .next (s.eventLatch target.val e.val)

/-- WAIT_TIMEOUT (R160): the armed timeout expires and sets e13. -/
def State.waitTimeout (s : State) (t : Nat) : State :=
  match (s.th t).timeout with
  | none => s
  | some c => (((s.upToCyc c).stallKeep (cluOf t)).modTh t fun x => { x with timeout := none }).latch t 13

/-- WAIT_TIMEOUT. -/
def execWaitTimeout (t : ThreadId) (s : State) : Host.Outcome State Fault Refusal := .next (s.waitTimeout t.val)

/-- TU_EXIT (R157). -/
def execTuExit (t : ThreadId) (f : MoveForm) (s : State) : Host.Outcome State Fault Refusal := .next (s.issueWord t.val (formWord f 0x395 0))

/-- SB_WAIT (R69, R137). -/
def execSbWait (t : ThreadId) (f : MoveForm) (s : State) : Host.Outcome State Fault Refusal := .next (s.issueWord t.val (formWord f 0x3A0 0))

/-- SB_CLR (R137). -/
def execSbClr (t : ThreadId) (f : MoveForm) (s : State) : Host.Outcome State Fault Refusal := .next (s.issueWord t.val (formWord f 0x3A1 0))

/-- TH_FCLR (R117). -/
def execThFclr (t : ThreadId) (f : MoveForm) (s : State) : Host.Outcome State Fault Refusal := .next (s.issueWord t.val (formWord f 0x3B2 0))

/-- CP_GO (R185). -/
def execCpGo (t : ThreadId) (f : MoveForm) (n : Fin 4) (sb : Fin 16) (s : State) : Host.Outcome State Fault Refusal :=
  .next (s.issueWord t.val (formWord f (0x300 + 16 * n.val) sb.val))

/-- CP_CSAVE (R185). -/
def execCpCsave (t : ThreadId) (f : MoveForm) (n : Fin 4) (sb : Fin 16) (s : State) : Host.Outcome State Fault Refusal :=
  .next (s.issueWord t.val (formWord f (0x301 + 16 * n.val) sb.val))

/-- CP_CREST (R185). -/
def execCpCrest (t : ThreadId) (f : MoveForm) (n : Fin 4) (sb : Fin 16) (s : State) : Host.Outcome State Fault Refusal :=
  .next (s.issueWord t.val (formWord f (0x302 + 16 * n.val) sb.val))

/-! ## Kills, resets, stalls -/

/-- CORE_THR_KILL (R151): every context of the core that the mask names is killed. -/
def State.coreKill (s : State) (core : Nat) (mask : Nat) : State :=
  (List.range 8).foldl (fun s i => if mask.testBit i then s.killThread (core * 8 + i) else s) s

/-- CORE_THR_KILL. -/
def execCoreThrKill (core : Fin 512) (mask : BitVec 8) (s : State) : Host.Outcome State Fault Refusal := 
  .next (s.domGate (domClu (core.val / 8)) fun s => s.coreKill core.val mask.toNat)

/-- THREAD_RESET_DONE (R153 step 6, R158): a packet-mode context is PKT_IDLE; a task-mode context is FREE, the Teller and the
waiting parent are told, and both P-dies are asked to sweep its buffers (R373). A parent that a reclaim preempts is not told: its join
reissues (R228). -/
def State.threadReset (s : State) (t : Nat) : State :=
  let x := s.th t
  if x.st ≠ .resetting then s
  else if s.pkt t then s.putTh t { Thread.fresh with cause := x.cause, nextCyc := x.nextCyc, tbTick := x.tbTick }
  else
    let e := killValue x
    let s := s.tellerEnd t e true
    let s : State := match x.parent with
      | some p =>
        if (s.th p).saveReq = some (4, 0) then s
        else if (s.th p).st = .waitJoin ∧ (s.th p).waitObj = nw (ctxNo t) then s.joinWake p e
        else if x.detached then s else s.modTh p fun y => { y with dead := tPut y.dead t e }
      | none => s
    (s.stallKeep (cluOf t)).putTh t Thread.fresh

/-- ESC_FORCE_REL (R170): the lock is released as abandoned, reason FORCED. A number of 256 or above names no lock on a cluster's page, and is
ignored: DESIGN CHOICE (log entry 222). -/
def execEscForceRel (page : Nat) (lock : BitVec 10) (s : State) : Host.Outcome State Fault Refusal :=
  .next (match pageKind page with
    | some (.esc, i) =>
      s.domGate (if page / 16 % 16 = 15 then domRgn (rgnOfPage page) else domClu (cluOfPage page)) fun s =>
        if i < 16 ∧ 256 ≤ lock.toNat then s else s.abandon page lock.toNat 3
    | _ => s)

/-- STALL_ALL (R180): the counter reaches 16,384 core cycles. -/
def State.stallAll (s : State) (c : Nat) : State :=
  if !s.stalled c then s
  else
    let a := ra (cluPage c 0) 0x184
    let s := (s.upToCyc ((s.clu? c).lastAct + (16384 - (s.clu? c).stall))).active c
    let victim := (List.range 64).find? fun i => (s.th (c * 64 + i)).stalled
    let brk := s.rb (ra (cluPage c 0) 0x180) 0
    let s := s.hwSet a 31
    let s : State := match victim with
      | some i => if brk then s.setRf a 21 16 i else s
      | none => s
    let s := (s.err (cluPage c 0) 0 9 (s.rf a 21 16) 0).raise (cluPage c 0) 10
    match victim with
    | some i =>
      if brk then
        let t := c * 64 + i
        let x := s.th t
        (s.leaveWait t).trap t s.cyc 0x15 0 ((x.waitAt.map (·.1)).getD x.pc) false
      else s
    | none => s

/-- STALL_ALL. -/
def execStallAll (c : ClusterId) (s : State) : Host.Outcome State Fault Refusal := .next (s.stallAll c.val)

/-- TRAP_STORM (R71): more than 64 traps in one round of a packet-mode cluster are a class 3 error of its CLU page. -/
def State.trapStorm (s : State) (c : Nat) : State :=
  let k := s.clu? c
  if k.packet ∧ 64 < k.traps then
    (s.err (cluPage c 0) 3 0x0A k.traps 0).setClu c fun k => { k with traps := 0 }
  else s

/-- TRAP_STORM. -/
def execTrapStorm (c : ClusterId) (s : State) : Host.Outcome State Fault Refusal := .next (s.trapStorm c.val)

end Sys2Proof.Machine
end

