-- ==== Sys2Proof/Machine/Buffers.lean ====
section
/-! DEFINITION. The buffer commands and events: ALLOC, FREE, RETAG, the command rings, pools, the Till, sweeps (R360 to R377). -/

namespace Sys2Proof.Machine

/-! ## Commands (R377) -/

/-- BPM_CMD, BPM_HANDLE, BPM_OWNER of a P-die. -/
def aBpmCmd (d : Nat) : Nat := ra (bpmPage d) 0x100
def aBpmHandle (d : Nat) : Nat := ra (bpmPage d) 0x104
def aBpmOwner (d : Nat) : Nat := ra (bpmPage d) 0x108

/-- A sweep that runs matches an owner ID under its mask (R374). -/
def State.sweeping (s : State) (d o : Nat) : Bool :=
  match (s.pd d).sweep with
  | some (w, m, _) => decide (o &&& m = w &&& m)
  | none => false

/-- ALLOC: its code, the handle where it is OK, the state. -/
def State.bpmAlloc (s : State) (d a o : Nat) : Nat × Nat × State :=
  if 138 ≤ a then (5, 0, s)
  else if s.sweeping d o then (2, 0, s)
  else
    match s.admission d a with
    | 0 =>
      match s.takeBuf d (s.acctPool d a) a (BitVec.ofNat 14 o) with
      | (some c, s) => (0, mkHandle (s.acctPool d a) c, s)
      | (none, s) => (2, 0, s.bpmCnt d 0x120)
    | 0x120 => (2, 0, s.bpmCnt d 0x120)
    | e => (1, 0, s.bpmCnt d e)

/-- The status code of a failed check (R371, R377). -/
def badCode (e : Nat) : Nat := if e = 0 then 0 else if e < 4 then 3 else if e = 4 then 4 else 6

/-- FREE: its code and the state. -/
def State.bpmFree (s : State) (d h o : Nat) : Nat × State :=
  let r := State.freeChain (s.bufs.length + 1) s d (hPool h) (hCell h) o
  (badCode r.1, r.2)

/-- RETAG: the buffers of the chain up to the first that fails a check take the owner ID. -/
def State.retagGo : Nat → State → Nat → Nat → Nat → Nat → Nat × State
  | 0, s, _, _, _, _ => (0, s)
  | k + 1, s, d, p, c, o =>
    let e := s.freeCheck d p c
    if e ≠ 0 then (badCode e, if e = 5 then s.bufUe d c else s)
    else
      match s.buf? d c with
      | none => (4, s)
      | some b =>
        let s := s.putBuf d c { b with tag := BitVec.ofNat 14 o }
        match b.next with
        | some c' => State.retagGo k s d p c' o
        | none => (0, s)
def State.bpmRetag (s : State) (d h o : Nat) : Nat × State :=
  if s.sweeping d o then (2, s) else State.retagGo (s.bufs.length + 1) s d (hPool h) (hCell h) o

/-- The status word of a buffer command. -/
def bpmStatus (code : Nat) : Nat := 2 ^ 31 + code * 2 ^ 28

/-- A command word of BPM_CMD carried out (R377). -/
def State.bpmReg (s : State) (d w : Nat) : State :=
  let h := (s.reg (aBpmHandle d)).toNat
  let o := s.rf (aBpmOwner d) 13 0
  match w / 2 ^ 28 with
  | 1 =>
    let r := s.bpmAlloc d (w / 2 ^ 20 % 256) o
    let s := if r.1 = 0 then r.2.2.setReg (aBpmHandle d) (nw r.2.1) else r.2.2
    s.setReg (aBpmCmd d) (nw (bpmStatus r.1))
  | 2 =>
    let r := s.bpmFree d h o
    r.2.setReg (aBpmCmd d) (nw (bpmStatus r.1))
  | 3 =>
    let r := s.bpmRetag d h o
    r.2.setReg (aBpmCmd d) (nw (bpmStatus r.1))
  | _ => s.setReg (aBpmCmd d) (nw (bpmStatus 5))

/-- The entry at the head of a BPM ring carried out when `p` holds of its operation (R304, R377); an entry that a read cannot decode ends UE, and
an operation that no command carries out REFUSED. The BPM takes the rings in order: while a lower ring has an entry posted, this one waits. -/
def State.bpmRing (s : State) (d n : Nat) (p : Nat → Bool) : State :=
  match s.ringHead d (4 + n) with
  | none => s
  | some e =>
    if (List.range n).any fun m => (s.ringHead d (4 + m)).isSome then s
    else
    let r := s.dramRead e 16
    let w := leAt r.1 0 4
    let h := leAt r.1 8 4
    let o := leAt r.1 12 4 % 2 ^ 14
    let s := r.2.2
    if r.2.1 then s.ringDone d (4 + n) e [bpmStatus 6]
    else if !p (w / 2 ^ 28) then s
    else
      match w / 2 ^ 28 with
      | 1 =>
        let x := s.bpmAlloc d (w / 2 ^ 20 % 256) o
        x.2.2.ringDone d (4 + n) e (if x.1 = 0 then [bpmStatus 0, x.2.1] else [bpmStatus x.1])
      | 2 =>
        let x := s.bpmFree d h o
        x.2.ringDone d (4 + n) e [bpmStatus x.1]
      | 3 =>
        let x := s.bpmRetag d h o
        x.2.ringDone d (4 + n) e [bpmStatus x.1]
      | _ => s.ringDone d (4 + n) e [bpmStatus 5]

/-- ALLOC (R367, R377). -/
def execAlloc (d : PDie) (via : CmdVia) (acct : BitVec 8) (s : State) : Host.Outcome State Fault Refusal :=
  .next (match via with
    | .reg => s.bpmReg d.val (2 ^ 28 + acct.toNat * 2 ^ 20)
    | .ring n => s.bpmRing d.val n.val (decide <| · = 1))

/-- FREE (R371, R377). -/
def execFree (d : PDie) (via : CmdVia) (s : State) : Host.Outcome State Fault Refusal :=
  .next (match via with
    | .reg => s.bpmReg d.val (2 * 2 ^ 28)
    | .ring n => s.bpmRing d.val n.val (decide <| · = 2))

/-- RETAG (R374, R377). -/
def execRetag (d : PDie) (via : CmdVia) (s : State) : Host.Outcome State Fault Refusal :=
  .next (match via with
    | .reg => s.bpmReg d.val (3 * 2 ^ 28)
    | .ring n => s.bpmRing d.val n.val (decide <| · = 3))

/-- Entries at the head of a BPM ring whose operation no command carries out end REFUSED, and those that cannot be decoded UE, when their turn
comes. -/
def State.bpmSkip : Nat → State → Nat → Nat → State
  | 0, s, _, _ => s
  | k + 1, s, d, n =>
    let t := s.bpmRing d n fun o => decide (o = 0 ∨ 3 < o)
    if t.ringHead d (4 + n) = s.ringHead d (4 + n) then s else State.bpmSkip k t d n

/-- BPM_RING_POLL: PROD of each ring is read (R304, R377). -/
def execBpmRingPoll (d : PDie) (s : State) : Host.Outcome State Fault Refusal :=
  .next ([0, 1, 2, 3].foldl (fun s n => State.bpmSkip 65536 (s.ringPoll d.val (4 + n)) d.val n) s)

/-! ## Pools (R360, R363) -/

/-- The cells of a pool's buffers and of its SRAM ring, as (first, number). -/
def State.poolSpan (s : State) (d p : Nat) : Nat × Nat := (s.poolBase d p, s.poolSize d p * s.poolCells d p)
def State.ringSpan (s : State) (d p : Nat) : Nat × Nat :=
  (s.rf (aPool d p 7) 17 0, if s.poolDram d p then 0 else (4 * s.poolSize d p + 255) / 256)

/-- Two ranges share a cell. -/
def spansMeet (a b : Nat × Nat) : Bool := decide (a.1 < b.1 + b.2) && decide (b.1 < a.1 + a.2) && decide (0 < a.2) && decide (0 < b.2)

/-- The layout of a pool allows it to be enabled (R360). -/
def State.poolLayoutOk (s : State) (d p : Nat) : Bool :=
  let b := s.poolSpan d p
  let r := s.ringSpan d p
  decide (s.poolCells d p ≠ 0) && decide (s.poolSize d p ≠ 0) && decide (b.1 + b.2 ≤ 196608)
    && (decide (r.2 = 0) || decide (r.1 + r.2 ≤ 196608)) && !spansMeet b r
    && (List.range 64).all fun q => decide (q = p) || !s.poolEn d q
      || !(spansMeet b (s.poolSpan d q) || spansMeet b (s.ringSpan d q) || spansMeet r (s.poolSpan d q) || spansMeet r (s.ringSpan d q))

/-- USED of the pool is 0 in every account (R378). -/
def State.poolIdle (s : State) (d p : Nat) : Bool := (List.range 138).all fun a => decide (s.acctPool d a ≠ p) || decide (s.acctUsed d a = 0)

/-- The pool when its enable starts: the BPM writes the ring, the Till is to be filled, READY is due, and the levels are those of SHARED. -/
def State.poolStart (s : State) (d p : Nat) : State :=
  let n := s.poolSize d p
  let t := if s.poolDram d p then (n + 7) / 8 + 2304 else (n + 15) / 16 + 64
  ((s.ringInit d p).modPool d p fun _ => { Pool.empty with ring := [(s.poolBase d p, n)], readyAt := some (s.now + fabricTicks * t) }).relevel d p

/-- An enable of a pool: it starts, or is refused and logged (R360). -/
def State.poolOpen (s : State) (d p : Nat) : State :=
  let a := aPool d p 0
  if s.poolLayoutOk d p then s.poolStart d p else (s.setRb a 31 false).err (bpmPage d) 0 2 (a % 4096) 0

/-- A write of a pool's CFG word: the word is stored by its classes; EN is then checked (R360, R378). -/
def State.poolCfg (s : State) (d p : Nat) (w : Word) : State :=
  let a := aPool d p 0
  let was := s.poolEn d p
  let old := s.reg a
  let s := s.writeReg a w
  if !was && s.poolEn d p then s.poolOpen d p
  else if was && !s.poolEn d p then
    if s.poolIdle d p then (s.relevel d p).modPool d p fun _ => Pool.empty
    else (s.setRf a 31 24 (fld old 31 24)).err (bpmPage d) 0 2 (a % 4096) 0
  else s

/-- POOL_ENABLE (R360, R363). -/
def execPoolEnable (d : PDie) (pool : Fin 64) (cfg : Word) (s : State) : Host.Outcome State Fault Refusal :=
  .next (s.poolCfg d.val pool.val cfg)

/-- The oldest `n` pointers of a pool's ring are read into its Till (R364). An entry with an uncorrectable error is discarded and counted in
LOST, and its buffer stays allocated under tag 0 (R375). -/
def State.ringFetch (s : State) (d p n : Nat) : State :=
  let x := s.pool d p
  let r := ringTake (s.poolCells d p) n x.ring
  let m := max 1 (s.poolSize d p)
  let s := s.modPool d p fun x => { x with ring := r.2, head := (x.head + r.1.length) % m }
  (List.range r.1.length).foldl (fun s i =>
    match s.ringGet d p (x.head + i) with
    | (some c, s) => s.modPool d p fun x => { x with till := x.till ++ [c] }
    | (none, s) =>
      (s.putBuf d (r.1.getD i 0) { next := none, off := 0, cnt := 0, tag := 0, acct := 255, pool := p, poison := false }).bpmCnt d 0x138) s

/-- POOL_READY: the Till is filled from the ring, up to the level from which nothing spills (R363, R364). -/
def State.poolReady (s : State) (d p : Nat) : State :=
  match (s.pool d p).readyAt with
  | none => s
  | some t => (((s.upTo t).ringFetch d p 448).modPool d p fun x => { x with ready := true, readyAt := none }).startRefill d p
def execPoolReady (d : PDie) (pool : Fin 64) (s : State) : Host.Outcome State Fault Refusal := .next (s.poolReady d.val pool.val)

/-! ## The Till (R364) -/

/-- TILL_REFILL: a refill completes (R364). A Till that frees have filled meanwhile spills first, so that it never holds more than 512. -/
def State.tillRefill (s : State) (d p : Nat) : State :=
  match (s.pool d p).refills with
  | [] => s
  | t :: ts =>
    let s := (s.upTo t).modPool d p fun x => { x with refills := ts }
    let s := if 448 < (s.pool d p).till.length then s.spill d p else s
    (s.ringFetch d p 64).startRefill d p
def execTillRefill (d : PDie) (pool : Fin 64) (s : State) : Host.Outcome State Fault Refusal := .next (s.tillRefill d.val pool.val)

/-- TILL_SPILL: a Till with more than 448 pointers spills 64 (R364). -/
def State.tillSpill (s : State) (d p : Nat) : State := if 448 < (s.pool d p).till.length then s.spill d p else s
def execTillSpill (d : PDie) (pool : Fin 64) (s : State) : Host.Outcome State Fault Refusal := .next (s.tillSpill d.val pool.val)

/-! ## Sweeps (R373, R374) -/

/-- BPM_SWEEP of a P-die. -/
def aSweep (d : Nat) : Nat := ra (bpmPage d) 0x114

/-- SWEEP_REQUEST: OWNER is stored and a sweep under BPM_SWEEP_MASK is queued; with 8 waiting it is ignored and logged (R373, R378). -/
def State.sweepRequest (s : State) (d o : Nat) : State :=
  let s := s.setRf (aSweep d) 13 0 o
  if 8 ≤ (s.pd d).sweeps.length then s.err (bpmPage d) 0 2 0x114 0
  else s.modPd d fun x => { x with sweeps := x.sweeps ++ [(o, s.rf (ra (bpmPage d) 0x118) 13 0)] }
def execSweepRequest (d : PDie) (owner : OwnerId) (s : State) : Host.Outcome State Fault Refusal := .next (s.sweepRequest d.val owner.toNat)

/-- SWEEP_START: the oldest request starts when no sweep runs. -/
def State.sweepStart (s : State) (d : Nat) : State :=
  match (s.pd d).sweep, (s.pd d).sweeps with
  | none, (o, m) :: r => s.modPd d fun x => { x with sweeps := r, sweep := some (o, m, s.now + 49152 * fabricTicks) }
  | _, _ => s
def execSweepStart (d : PDie) (s : State) : Host.Outcome State Fault Refusal := .next (s.sweepStart d.val)

/-- The first cells of the buffers of P-die `d` whose tag matches, as far as their link-array entries can be read. -/
def State.sweepCells (s : State) (d o m : Nat) : List Nat :=
  (s.bufs.filter fun e => decide (e.1 / 2 ^ 18 = d) && decide (e.2.tag.toNat &&& m = o &&& m) && !s.linkBad d (e.1 % 2 ^ 18)).map fun e => e.1 % 2 ^ 18

/-- SWEEP_DONE: every allocated buffer whose tag matches has been released; DONE reads 1. -/
def State.sweepDone (s : State) (d : Nat) : State :=
  match (s.pd d).sweep with
  | none => s
  | some (o, m, t) =>
    let s := s.upTo t
    let s := (s.sweepCells d o m).foldl (fun s c => s.releaseBuf d c) s
    ((s.modPd d fun x => { x with sweep := none }).hwSet (aSweep d) 29).raise (bpmPage d) 9
def execSweepDone (d : PDie) (s : State) : Host.Outcome State Fault Refusal := .next (s.sweepDone d.val)

/-! ## The reset of a task-mode context, and PFC -/

/-- THREAD_RESET_DONE (R153, R373): the context is free, and both P-dies queue a sweep of its owner ID. -/
def execThreadResetDone (t : ThreadId) (s : State) : Host.Outcome State Fault Refusal :=
  let sweep := fun (s : State) d => s.modPd d fun x => { x with sweeps := x.sweeps ++ [((ownerOf t.val).toNat, 0x3FFF)] }
  if (s.th t.val).st ≠ .resetting then .next s
  else if s.pkt t.val then .next (s.threadReset t.val)
  else .next (sweep (sweep (s.threadReset t.val) 0) 1)

/-- PFC_XOFF_REPEAT: a pool at PAUSE repeats its XOFF on each port whose interval has passed, the earliest first (R369). -/
def State.xoffRepeat (s : State) (d p : Nat) : State :=
  let due := (s.pausePorts d p).filterMap fun i => (tFind s.xoffAt (d * 64 + i)).map fun t => (t, i)
  match due with
  | [] => s
  | e :: r =>
    if !s.atLevel d p 1 then s
    else
      let f := r.foldl (fun a x => if x.1 < a.1 then x else a) e
      let s := (s.upTo f.1).sendPfc d p f.2 true
      { s with xoffAt := tPut s.xoffAt (d * 64 + f.2) (f.1 + s.bitTicks d f.2 (256 * s.af (aPool d p 0) 15 0)) }
def execPfcXoffRepeat (d : PDie) (pool : Fin 64) (s : State) : Host.Outcome State Fault Refusal := .next (s.xoffRepeat d.val pool.val)

end Sys2Proof.Machine
end

