-- ==== Sys2Proof/Machine/FlowTable.lean ====
section
/-! DEFINITION. The Flow Table of a P-die: hashing, places, lookup, insertion and relocation (R296 to R310), and the completion of
its commands (R304, R305). -/

namespace Sys2Proof.Machine

/-! ## Hashes (R299) -/

/-- A reflected CRC over bytes, with no final XOR. -/
def crcBit (poly c : Nat) : Nat := if c % 2 = 1 then (c / 2) ^^^ poly else c / 2
def crcByte (poly c : Nat) (b : Byte) : Nat := (List.range 8).foldl (fun c _ => crcBit poly c) (c ^^^ b.toNat)
def crcRefl (poly seed : Nat) (b : List Byte) : Nat := b.foldl (crcByte poly) seed

/-- The 48 bytes of words 0 to 11 of a key or an entry, word 0 cut to KTYPE. -/
def keyWords (e : List Nat) : List Nat := (e.getD 0 0 / 2 ^ 20 % 16 * 2 ^ 20) :: (e.drop 1).take 11
def keyBytes (e : List Nat) : List Byte := ((keyWords e).map (leBytes 4)).flatten

/-- The CLS page of a P-die, its registers. -/
def clsPage (d : Nat) : Nat := pdPage d 0
def aCls (d off : Nat) : Nat := ra (clsPage d) off

/-- DRAM_EN and MIRROR. -/
def State.ftDram (s : State) (d : Nat) : Bool := s.rb (aCls d 0x110) 31
def State.ftMirror (s : State) (d : Nat) : Bool := s.rb (aCls d 0x110) 30

/-- The bits m of a tier's bucket number (R300). -/
def State.ftBits (s : State) (d : Nat) (dram : Bool) : Nat := if !dram then 17 else if s.ftMirror d then 22 else 23

/-- The candidate buckets of a key in a tier. -/
def State.ftBuckets (s : State) (d : Nat) (dram : Bool) (e : List Nat) : Nat × Nat :=
  let m := s.ftBits d dram
  let b0 := crcRefl 0x82F63B78 (s.reg (aCls d 0x114)).toNat (keyBytes e) % 2 ^ m
  let b1 := crcRefl 0xEDB88320 (s.reg (aCls d 0x118)).toNat (keyBytes e) % 2 ^ m
  (b0, if b1 = b0 then b0 ^^^ 1 else b1)

/-! ## Places

A place of a tier is bucket × 4 + way, or `stashAt` + index for the 16 stash entries of the tier. -/

def stashAt : Nat := 2 ^ 26

/-- The key of an on-die entry, or of a stash entry of either tier, in `State.ft`. -/
def ftKey (d : Nat) (dram : Bool) (i : Nat) : Nat :=
  d * 2 ^ 21 + (if stashAt ≤ i then 2 ^ 20 + 16 * b2n dram + (i - stashAt) % 16 else i)

/-- An entry of 16 zero words: an invalid entry. -/
def zeroEntry : List Nat := List.replicate 16 0

/-- The device DRAM address of a way of the DRAM tier; a mirrored tier skips the halves that hold the copies (R300, R441). -/
def State.ftAddr (s : State) (d i : Nat) : Nat :=
  let o := 64 * i
  s.pair (aCls d 0x11C) / 2 ^ 30 * 2 ^ 30 + (if s.ftMirror d then o / 2048 * 4096 + o % 2048 else o)

/-- The 16 words of 64 bytes. -/
def entryWords (b : List Byte) : List Nat := (List.range 16).map fun i => leAt b (4 * i) 4

/-- Read a place: its words, whether it has an uncorrectable error, the state after. -/
def State.ftRead (s : State) (d : Nat) (dram : Bool) (i : Nat) : List Nat × Bool × State :=
  if dram && decide (i < stashAt) then
    let r := s.dramRead (s.ftAddr d i) 64
    (entryWords r.1, r.2.1, r.2.2)
  else
    let e := tGet (fun _ => zeroEntry) s.ft (ftKey d dram i)
    match tFind s.ftBad (ftKey d dram i) with
    | none => (e, false, s)
    | some f => (e, f.ue, s.flawRead (clsPage d) f (ftKey d dram i % 2 ^ 21 * 64 + 8 * f.word))

/-- The key of a place of either tier among the writes and HIT sets of a fabric cycle. -/
def ftSlot (d : Nat) (dram : Bool) (i : Nat) : Nat := (d * 2 + b2n dram) * 2 ^ 27 + i

/-- What stands at a place, for a lookup of the fabric cycle in which it is written. -/
def State.ftPrior (s : State) (d : Nat) (dram : Bool) (i : Nat) : List Nat × Option Flaw :=
  let r := s.ftRead d dram i
  (r.1, if dram && decide (i < stashAt) then (if r.2.1 then some { ue := true, word := 0, bit := 0, synd := 0 } else none)
    else tFind s.ftBad (ftKey d dram i))

/-- A lookup reads a place: the entry as it was before the writes of this fabric cycle (R302). -/
def State.ftSeen (s : State) (d : Nat) (dram : Bool) (i : Nat) : List Nat × Bool × State :=
  match s.ftWas.before s.fab (ftSlot d dram i) with
  | none => s.ftRead d dram i
  | some (e, none) => (e, false, s)
  | some (e, some f) => (e, f.ue, if dram then s else s.flawRead (clsPage d) f (ftKey d dram i % 2 ^ 21 * 64 + 8 * f.word))

/-- Write a place whole, with valid check bits. -/
def State.ftWrite (s : State) (d : Nat) (dram : Bool) (i : Nat) (e : List Nat) : State :=
  let s := { s with ftWas := s.ftWas.note s.fab (ftSlot d dram i) (s.ftPrior d dram i) }
  if dram && decide (i < stashAt) then (s.dramWrite (s.ftAddr d i) ((e.map (leBytes 4)).flatten)).2
  else { s with ft := tSet (fun _ => zeroEntry) s.ft (ftKey d dram i) e, ftBad := tDel s.ftBad (ftKey d dram i) }

/-- V, KTYPE and HIT of an entry. -/
def entV (e : List Nat) : Bool := (e.getD 0 0).testBit 31
def entHit (e : List Nat) : Bool := (e.getD 0 0).testBit 30
def entType (e : List Nat) : Nat := e.getD 0 0 / 2 ^ 20 % 16

/-- Word 0 with bit `i` set or cleared. -/
def entBit (e : List Nat) (i : Nat) (v : Bool) : List Nat :=
  let w := e.getD 0 0
  e.set 0 (w - b2n (w.testBit i) * 2 ^ i + b2n v * 2 ^ i)

/-- The places that a lookup or a search of a tier reads, in its order (R301). -/
def State.ftCands (s : State) (d : Nat) (dram : Bool) (key : List Nat) : List Nat :=
  let b := s.ftBuckets d dram key
  (List.range 4).map (4 * b.1 + ·) ++ (List.range 4).map (4 * b.2 + ·) ++ (List.range 16).map (stashAt + ·)

/-- Read the places of a list, as a lookup does or as the table engine does: (place, words) of those that can be read, whether one had an
error, the state. -/
def State.ftReads (d : Nat) (dram look : Bool) : List Nat → State → List (Nat × List Nat) × Bool × State
  | [], s => ([], false, s)
  | i :: r, s =>
    let x := if look then s.ftSeen d dram i else s.ftRead d dram i
    let t := State.ftReads d dram look r x.2.2
    if x.2.1 then (t.1, true, t.2.2) else ((i, x.1) :: t.1, t.2.1, t.2.2)

/-- An entry matches a key: V = 1, KTYPE and KEY equal. -/
def entMatch (key e : List Nat) : Bool := entV e && decide (keyWords e = keyWords key)

/-- Search one tier, for a lookup or for the table engine: the matches in order, whether a candidate had an error, the state. -/
def State.ftSearch (s : State) (d : Nat) (dram : Bool) (key : List Nat) (look : Bool := false) : List (Nat × List Nat) × Bool × State :=
  let r := State.ftReads d dram look (s.ftCands d dram key) s
  (r.1.filter fun e => entMatch key e.2, r.2.1, r.2.2)

/-- A lookup sets HIT of a copy found, in the DRAM tier only of one that showed 0 (R303); a write of the same fabric cycle that put another
entry there is left alone. -/
def State.ftHitSet (s : State) (d : Nat) (dram : Bool) (key : List Nat) (c : Nat × List Nat) : State :=
  let e := (s.ftRead d dram c.1).1
  if dram && entHit c.2 then s
  else
    let s := { s with ftHit := s.ftHit.note s.fab (ftSlot d dram c.1) () }
    if entMatch key e && !entHit e then s.ftWrite d dram c.1 (entBit e 30 true) else s

/-- Set HIT of the copies found. -/
def State.ftHits (s : State) (d : Nat) (dram : Bool) (key : List Nat) (l : List (Nat × List Nat)) : State :=
  l.foldl (fun s c => s.ftHitSet d dram key c) s

/-- CLR_HIT of a place: HIT clears unless a lookup has set it in this fabric cycle (R303). -/
def State.ftHitClear (s : State) (d : Nat) (dram : Bool) (i : Nat) (e : List Nat) : State :=
  if (s.ftHit.before s.fab (ftSlot d dram i)).isSome then s else s.ftWrite d dram i (entBit e 30 false)

/-- A lookup of one tier (R301): the entry of a hit, whether a candidate had an error, the state with HIT set. -/
def State.ftLook (s : State) (d : Nat) (dram : Bool) (key : List Nat) : Option (List Nat) × Bool × State :=
  let r := s.ftSearch d dram key true
  match r.1 with
  | [] => (none, r.2.1, r.2.2)
  | e :: l => (some e.2, r.2.1, r.2.2.ftHits d dram key (e :: l))

/-- A miss with an uncorrectable error counts in FT_UE. -/
def State.ftMissUe (s : State) (d : Nat) (ue : Bool) : State := if ue then s.bump (aCls d 0x150) else s

/-! ## Keys (R296, R297) -/

/-- A key of type KTYPE with words 1 on, filled to 12 words. -/
def mkKey (typ : Nat) (l : List Nat) : List Nat := (typ * 2 ^ 20 :: l) ++ List.replicate (11 - l.length) 0

/-- A KTYPE 1 key of a MAC address. -/
def l2Key (scope vid : Nat) (mac : List Byte) : List Nat := mkKey 1 [scope * 2 ^ 24 + vid, beAt mac 0 4, beAt mac 4 2 * 2 ^ 16]

/-- A KTYPE 4 key of an SCI. -/
def sciKey (scope : Nat) (sci : List Byte) : List Nat := mkKey 4 [scope * 2 ^ 24, beAt sci 0 4, beAt sci 4 4]

/-! ## Occupancy (R326) -/

/-- The valid entries on-die and in the two stashes: CLS_FT_OCC's and CLS_FT_DOCC's counts that stand on-die. -/
def State.ftCount (s : State) (lo hi : Nat) : Nat := (s.ft.filter fun e => decide (lo ≤ e.1 ∧ e.1 < hi) && entV e.2).length

/-- A DRAM-tier bucket way gained or lost its entry: DOCC [25:0]. -/
def State.ftDocc (s : State) (d : Nat) (up : Bool) : State :=
  let a := aCls d 0x128
  s.setRf a 25 0 (if up then s.rf a 25 0 + 1 else s.rf a 25 0 - 1)

/-! ## Placement (R306, R308) -/

/-- A free way or stash entry of a tier. -/
def State.ftFree (s : State) (d : Nat) (dram : Bool) (l : List Nat) : Option Nat :=
  l.find? fun i => let r := s.ftRead d dram i
    !r.2.1 && !entV r.1

/-- The bucket to which an entry in bucket `b` can move; none where it lies in neither of its candidates (R308). -/
def State.ftOther (s : State) (d : Nat) (dram : Bool) (e : List Nat) (b : Nat) : Option Nat :=
  let c := s.ftBuckets d dram e
  if c.1 = b then some c.2 else if c.2 = b then some c.1 else none

/-- The ways of a bucket. -/
def waysOf (b : Nat) : List Nat := (List.range 4).map (4 * b + ·)

/-- Breadth-first search for a chain: `paths` are the ways that end a chain of moves so far, last first. The result is the chain
from its first way to the free way that ends it, and whether a bucket that was read had an uncorrectable error. -/
def State.ftChain (s : State) (d : Nat) (dram : Bool) : Nat → List (List Nat) → Option (List Nat) × Bool
  | 0, _ => (none, false)
  | k + 1, paths =>
    let nexts := paths.filterMap fun p =>
      match p with
      | [] => none
      | w :: _ => (s.ftOther d dram (s.ftRead d dram w).1 (w / 4)).map fun b => (b, p)
    if nexts.any fun n => (waysOf n.1).any fun w => (s.ftRead d dram w).2.1 then (none, true)
    else
      match nexts.findSome? fun n => (s.ftFree d dram (waysOf n.1)).map fun f => (f :: n.2).reverse with
      | some c => (some c, false)
      | none =>
        State.ftChain s d dram k ((nexts.map fun n => ((waysOf n.1).filter fun w => !n.2.contains w).map (· :: n.2)).flatten)

/-- MAX_MOVES (R326). -/
def State.ftMaxMoves (s : State) (d : Nat) : Nat :=
  let m := s.rf (aCls d 0x110) 29 27
  if 1 ≤ m ∧ m ≤ 4 then m else 3

/-- The chain for an entry that no way of its buckets can take. -/
def State.ftFindChain (s : State) (d : Nat) (dram : Bool) (e : List Nat) : Option (List Nat) × Bool :=
  let b := s.ftBuckets d dram e
  State.ftChain s d dram (s.ftMaxMoves d) ((waysOf b.1 ++ waysOf b.2).map fun w => [w])

/-- The moves of a chain, last first. -/
def chainMoves : List Nat → List (Nat × Nat)
  | a :: b :: r => chainMoves (b :: r) ++ [(a, b)]
  | _ => []

/-- An on-die relocation: each entry of the chain moves, HIT with it (R309). -/
def State.ftMoveAll (s : State) (d : Nat) (m : List (Nat × Nat)) : State :=
  m.foldl (fun s e => (s.ftWrite d false e.2 (s.ftRead d false e.1).1).ftWrite d false e.1 zeroEntry) s

/-- The status codes of R305. -/
def ftOk : Nat := 0
def ftStashed : Nat := 1
def ftDup : Nat := 2
def ftNotFound : Nat := 3
def ftBusy : Nat := 4
def ftRefused : Nat := 5
def ftLocked : Nat := 6
def ftUe : Nat := 7

/-- The status word of a command (R305), and the LOC word of a place. -/
def ftStatus (code moves : Nat) : Nat := 2 ^ 31 + code * 2 ^ 24 + moves * 2 ^ 16
def ftLoc (i : Nat) : Nat := if stashAt ≤ i then 2 ^ 31 + (i - stashAt) else i

/-- Where an insert ends at once: its code, its moves, the place; `none` stands for a relocation of the DRAM tier to be started. -/
inductive FtPlace where
  | done (code moves : Nat) (loc : Option Nat)
  | chain (moves : List (Nat × Nat)) (target stash : Nat)
  deriving DecidableEq, Repr

/-- Place a new entry in a tier (R308): in a free way of b0 and then b1; else by relocation; else in the stash. -/
def State.ftPlace (s : State) (d : Nat) (dram : Bool) (e : List Nat) : FtPlace × State :=
  let b := s.ftBuckets d dram e
  let stash := s.ftFree d dram ((List.range 16).map (stashAt + ·))
  let put := fun (s : State) i => if dram && decide (i < stashAt) then (s.ftWrite d dram i e).ftDocc d true else s.ftWrite d dram i e
  match s.ftFree d dram (waysOf b.1 ++ waysOf b.2) with
  | some i => (.done ftOk 0 (some i), put s i)
  | none =>
    match stash with
    | none => (.done ftBusy 0 none, s)
    | some t =>
      match s.ftFindChain d dram e with
      | (_, true) => (.done ftUe 0 none, s)
      | (none, false) => (.done ftStashed 0 (some t), put s t)
      | (some c, false) =>
        let m := chainMoves c
        if dram then (.chain m (c.headD 0) t, s)
        else (.done ftOk m.length (c.head?), put (s.ftMoveAll d m) (c.headD 0))

/-! ## Commands (R304 to R306) -/

/-- Completion of a command: its status, LOC, and the image it returns, in the registers or in the ring entry. -/
def State.ftEnd (s : State) (d via code moves : Nat) (loc : Option Nat) (image : Option (List Nat)) : State :=
  if via = 4 then
    let s := s.setReg (aCls d 0x144) (nw (ftStatus code moves))
    let s := match loc with
      | some i => s.setReg (aCls d 0x148) (nw (ftLoc i))
      | none => s
    match image with
    | some e => (List.range 16).foldl (fun s i => s.setReg (aCls d (0x180 + 4 * i)) (nw (e.getD i 0))) s
    | none => s
  else
    match s.ringHead d via with
    | none => s
    | some a =>
      let s := match image with
        | some e => (s.dramWrite (a + 64) ((e.map (leBytes 4)).flatten)).2
        | none => s
      let l := match loc with
        | some i => [ftLoc i]
        | none => []
      (s.ringDone d via a (ftStatus code moves :: l)).raise (clsPage d) (8 + via)

/-- Search the tiers for a key as R301 does, the DRAM tier after an on-die miss: the tier and the first match, whether a candidate had an error,
the state (R306). -/
def State.ftFind (s : State) (d : Nat) (key : List Nat) : Option (Bool × Nat × List Nat) × Bool × State :=
  let r := s.ftSearch d false key
  let t := if s.ftDram d && decide (r.1 = []) then r.2.2.ftSearch d true key else ([], false, r.2.2)
  match r.1, t.1 with
  | e :: _, _ => (some (false, e), r.2.1 || t.2.1, t.2.2)
  | [], e :: _ => (some (true, e), r.2.1 || t.2.1, t.2.2)
  | [], [] => (none, r.2.1 || t.2.1, t.2.2)

/-- An entry with its reserved bits 0: word 0 [26:24] and [19:0], word 12 [15], word 13 [31:27] (R8, R298). -/
def entMask (e : List Nat) : List Nat :=
  ((e.set 0 (e.getD 0 0 &&& 0xF8F00000)).set 12 (e.getD 12 0 &&& 0xFFFF7FFF)).set 13 (e.getD 13 0 &&& 0x07FFFFFF)

/-- A stored image: V = 1, HIT 0, the reserved bits 0; LEARNED and HIT as a learn writes them. -/
def entStored (e : List Nat) (learned : Bool) : List Nat :=
  entBit (entBit (entBit (entMask ((e ++ zeroEntry).take 16)) 31 true) 30 learned) 28 learned

/-- INSERT of an image (R306); a KTYPE 1 image goes to the on-die tier. -/
def State.ftInsert (s : State) (d : Nat) (dram : Bool) (e : List Nat) : FtPlace × State :=
  let k := entType e
  if k = 0 ∨ 5 ≤ k ∨ (dram ∧ (k = 1 ∨ k = 4)) ∨ (dram ∧ !s.ftDram d) ∨ (k = 4 ∧ e.getD 13 0 % 4 ≠ 0) then (.done ftRefused 0 none, s)
  else
    match s.ftFind d e with
    | (_, true, s) => (.done ftUe 0 none, s)
    | (some f, false, s) => (.done ftDup 0 (some f.2.1), s)
    | (none, false, s) => s.ftPlace d dram (entStored e false)

/-- DELETE of a key (R306): the code and the place. -/
def State.ftDelete (s : State) (d : Nat) (key : List Nat) : Nat × Option Nat × State :=
  match s.ftFind d key with
  | (_, true, s) => (ftUe, none, s)
  | (none, false, s) => (ftNotFound, none, s)
  | (some f, false, s) =>
    let s := s.ftWrite d f.1 f.2.1 zeroEntry
    (ftOk, some f.2.1, if f.1 && decide (f.2.1 < stashAt) then s.ftDocc d false else s)

/-- MODIFY (R306): words 12, 13, 15 and bits STATIC and CONTENDED. -/
def entModify (e n : List Nat) : List Nat :=
  let e := entBit (entBit e 29 ((n.getD 0 0).testBit 29)) 27 ((n.getD 0 0).testBit 27)
  entMask (((e.set 12 (n.getD 12 0)).set 13 (n.getD 13 0)).set 15 (n.getD 15 0))
def State.ftModify (s : State) (d : Nat) (n : List Nat) : Nat × Option Nat × State :=
  match s.ftFind d n with
  | (_, true, s) => (ftUe, none, s)
  | (none, false, s) => (ftNotFound, none, s)
  | (some f, false, s) => (ftOk, some f.2.1, s.ftWrite d f.1 f.2.1 (entModify f.2.2 n))

/-- READ (R306): the code, the place, the entry as it was. -/
def State.ftReadKey (s : State) (d : Nat) (key : List Nat) (clr : Bool) : Nat × Option Nat × Option (List Nat) × State :=
  match s.ftFind d key with
  | (_, true, s) => (ftUe, none, none, s)
  | (none, false, s) => (ftNotFound, none, none, s)
  | (some f, false, s) => (ftOk, some f.2.1, some f.2.2, if clr then s.ftHitClear d f.1 f.2.1 f.2.2 else s)

/-- A LOC word names a place of a tier (R306). -/
def State.ftLocPlace (s : State) (d : Nat) (dram : Bool) (w : Nat) : Option Nat :=
  if dram && !s.ftDram d then none
  else if w.testBit 31 then some (stashAt + w % 16)
  else if w % 2 ^ 25 / 4 < 2 ^ s.ftBits d dram then some (w % 2 ^ 25) else none

/-- READ_LOC (R306). -/
def State.ftReadLoc (s : State) (d : Nat) (dram : Bool) (w : Nat) (clr : Bool) : Nat × Option Nat × Option (List Nat) × State :=
  match s.ftLocPlace d dram w with
  | none => (ftRefused, none, none, s)
  | some i =>
    match s.ftRead d dram i with
    | (_, true, s) => (ftUe, none, none, s)
    | (e, false, s) => (ftOk, some i, some e, if clr then s.ftHitClear d dram i e else s)

end Sys2Proof.Machine
end

