-- ==== Sys2Proof/Machine/Parser.lean ====
section
/-! DEFINITION. The parser of a slice (R272 to R274, R283): a walk over the bytes of a frame, its header stack, its class. -/

namespace Sys2Proof.Machine

/-- What a parse finds. `bad`: 0 complete, 1 MALFORMED, 2 PARSE_INCOMPLETE, 3 OUTER_FRAG. `stack`: the half-words of R283.
`frag`: 0 not a fragment, 1 first, 2 later, 3 atomic. `ver`: 4 or 6 with the offset `l3` of the first IP header, or 0; `l4` the
offset of a TCP or UDP header, `esp` of an ESP header, `sec` of a SecTAG, `fh` of an IPv6 Fragment header, 0 where absent;
`proto` the protocol that follows the IP headers; `vid` the first VLAN ID; `last` the type of the last entry; `atom`: an atomic
fragment is a first fragment (R281). -/
structure Parse where
  bad   : Nat
  stack : List Nat
  frag  : Nat
  ver   : Nat
  l3    : Nat
  l4    : Nat
  esp   : Nat
  sec   : Nat
  fh    : Nat
  proto : Nat
  vid   : Option Nat
  last  : Nat
  atom  : Bool
  deriving DecidableEq, Repr

/-- Nothing found yet. -/
def Parse.start (atom : Bool) : Parse :=
  { bad := 0, stack := [], frag := 0, ver := 0, l3 := 0, l4 := 0, esp := 0, sec := 0, fh := 0, proto := 0, vid := none, last := 0, atom := atom }

/-- The packet is a first fragment; an atomic fragment is one where ATOMIC_BYPASS = 0 (R279, R281). -/
def Parse.isFirst (p : Parse) : Bool := decide (p.frag = 1) || (decide (p.frag = 3) && p.atom)

/-- Bytes `o` to `o + n - 1` must be read: MALFORMED where the frame or the packet ends before, else PARSE_INCOMPLETE beyond
byte 255 (R273, R274). -/
def Parse.need (p : Parse) (o n lim : Nat) : Parse :=
  if p.bad ≠ 0 then p else if lim < o + n then { p with bad := 1 } else if 256 < o + n then { p with bad := 2 } else p

/-- A header at `o` of `n` bytes, at least `m`, whose length stands in byte `i`: where that byte can be read and the frame or the packet ends
inside the header it gives, MALFORMED, also beyond byte 255 (R273, R274). -/
def Parse.needLen (p : Parse) (o m i n lim : Nat) : Parse :=
  if p.bad = 0 ∧ o + m ≤ lim ∧ i < 256 ∧ lim < o + n then { p with bad := 1 } else p.need o (if i < 256 then max m n else m) lim

/-- A length check of R274: MALFORMED where it fails. -/
def Parse.check (p : Parse) (ok : Bool) : Parse := if p.bad ≠ 0 || ok then p else { p with bad := 1 }

/-- Record an entry: type, FRAG and OPT, offset (R273, R283). -/
def Parse.push (p : Parse) (typ flags off : Nat) : Parse :=
  if p.bad ≠ 0 then p
  else if p.stack.length = 16 ∨ 256 ≤ off then { p with bad := 2 }
  else { p with stack := p.stack ++ [typ * 2048 + flags * 256 + off], last := typ }

/-- Go on where nothing has failed. -/
def Parse.andThen (p : Parse) (f : Parse → Parse) : Parse := if p.bad ≠ 0 then p else f p

/-- The ones' complement sum of 16-bit words; a checksummed header sums to 0xFFFF. -/
def inetFold (n : Nat) : Nat := n % 65536 + n / 65536
def inetSum (b : List Byte) : Nat :=
  inetFold (inetFold (((List.range ((b.length + 1) / 2)).map fun i => beAt b (2 * i) 2).foldl (· + ·) 0))

/-- An ESP header at `o`: SPI, sequence number and IV, at least 4 bytes of payload in units of 4, a 16-byte ICV (R274). -/
def parseEsp (p : Parse) (o lim : Nat) : Parse :=
  let p := ((p.need o 8 lim).push 15 0 o).check (decide (o + 36 ≤ lim) && decide ((lim - o - 32) % 4 = 0))
  { p with esp := o }

/-- UDP (R272, R274): what its destination port shows. -/
def parseUdp (b : List Byte) (black : Bool) (p : Parse) (o lim : Nat) : Parse :=
  ((p.need o 8 lim).push 11 0 o).andThen fun p =>
    let p := { p with l4 := o }
    let port := beAt b (o + 2) 2
    let n := beAt b (o + 4) 2
    let first := decide (p.frag = 1)
    let p := p.check (decide (8 ≤ n) && (if p.isFirst then decide (lim - o ≤ n) else decide (n = lim - o)))
    p.andThen fun p =>
      let left := lim - o - 8
      if first && black && decide (port = 4500) then { p with bad := 3 }
      else if port = 500 then p.push 16 0 (o + 8)
      else if port = 319 ∨ port = 320 then p.push 18 0 (o + 8)
      else if port = 4500 ∧ left = 1 then
        (p.need (o + 8) 1 lim).andThen fun p => if beAt b (o + 8) 1 = 0xFF then p.push 16 0 (o + 8) else p
      else if port = 4500 ∧ 4 ≤ left then
        (p.need (o + 8) 4 lim).andThen fun p => if beAt b (o + 8) 4 = 0 then p.push 16 0 (o + 8) else parseEsp p (o + 8) lim
      else p

/-- The header after the IP headers, by its protocol (R272). -/
def parseL4 (b : List Byte) (black : Bool) (p : Parse) (proto o lim : Nat) : Parse :=
  p.andThen fun p =>
    let p := { p with proto := proto }
    match proto with
    | 17 => parseUdp b black p o lim
    | 6 =>
      let n := beAt b (o + 12) 1 / 16
      (p.needLen o 20 (o + 12) (4 * n) lim).andThen fun p => { (p.push 12 0 o).check (decide (5 ≤ n)) with l4 := o }
    | 1 => (p.need o 8 lim).push 13 0 o
    | 58 => (p.need o 8 lim).push 14 0 o
    | 50 => if p.frag = 1 ∧ black then ((p.need o 8 lim).push 15 0 o).andThen fun p => { p with bad := 3 } else parseEsp p o lim
    | _ => p.push 31 0 o

/-- The type of an IPv6 extension header. -/
def extType (nh : Nat) : Option Nat :=
  match nh with
  | 0 => some 7
  | 43 => some 8
  | 44 => some 9
  | 60 => some 10
  | _ => none

/-- The chain of IPv6 extension headers; each records an entry, so the 17th ends the walk and the fuel suffices. -/
def parseExt (b : List Byte) (black : Bool) : Nat → Parse → Nat → Nat → Nat → Parse
  | 0, p, _, _, _ => { p with bad := 2 }
  | k + 1, p, nh, o, lim =>
    match extType nh with
    | none => parseL4 b black p nh o lim
    | some typ =>
      let n := if typ = 9 then 8 else 8 * (beAt b (o + 1) 1 + 1)
      (p.needLen o 8 (o + 1) n lim).andThen fun p =>
        let w := beAt b (o + 2) 2
        let p := p.push typ (if typ = 9 then 2 else 0) o
        let p := if typ = 9 ∧ p.bad = 0 then { p with frag := if w / 8 ≠ 0 then 2 else if w % 2 = 1 then 1 else 3, fh := o } else p
        if typ = 9 ∧ p.frag = 2 ∧ p.bad = 0 then
          if black ∧ beAt b o 1 = 50 then { p with bad := 3, proto := 50 } else { p with proto := beAt b o 1 }
        else p.andThen fun p => parseExt b black k p (beAt b o 1) (o + n) lim

/-- IPv4 (R272, R274). -/
def parseIp4 (b : List Byte) (black : Bool) (p : Parse) (o : Nat) : Parse :=
  let ihl := beAt b o 1 % 16
  (if p.bad = 0 ∧ o < 256 ∧ o + 20 ≤ b.length ∧ b.length < o + 4 * ihl then { p with bad := 1 } else p.need o 20 b.length).andThen fun p =>
    let total := beAt b (o + 2) 2
    let fw := beAt b (o + 6) 2
    let mf := decide (fw / 8192 % 2 = 1)
    let fo := fw % 8192
    let rem := b.length - o
    let p := { p with ver := 4, l3 := o }
    let p := (p.check (decide (4 * ihl ≤ rem))).push 5 (b2n (decide (5 < ihl)) + 2 * b2n (mf || decide (fo ≠ 0))) o
    let p := p.check (decide (beAt b o 1 / 16 = 4) && decide (5 ≤ ihl) && decide (4 * ihl ≤ total) && decide (total ≤ rem)
      && (decide (total = rem) || decide (b.length ≤ 60)) && decide (fo ≠ 1))
    let p := p.need o (4 * ihl) b.length
    (p.andThen fun p => p.check (decide (inetSum (bytesAt b o (4 * ihl)) = 0xFFFF))).andThen fun p =>
      let proto := beAt b (o + 9) 1
      if fo ≠ 0 then { p with frag := 2, proto := proto, bad := if black ∧ proto = 50 then 3 else 0 }
      else parseL4 b black { p with frag := b2n mf } proto (o + 4 * ihl) (o + total)

/-- IPv6 (R272, R274). -/
def parseIp6 (b : List Byte) (black : Bool) (p : Parse) (o : Nat) : Parse :=
  ((p.need o 40 b.length).push 6 0 o).andThen fun p =>
    let n := beAt b (o + 4) 2
    let rem := b.length - o
    let p := { p with ver := 6, l3 := o }
    let p := p.check (decide (beAt b o 1 / 16 = 6) && decide (n ≠ 0) && decide (n + 40 ≤ rem)
      && (decide (n + 40 = rem) || decide (b.length ≤ 60)))
    p.andThen fun p => parseExt b black 18 p (beAt b (o + 6) 1) (o + 40) (o + 40 + n)

/-- A SecTAG from its EtherType (R272, R274). -/
def parseSec (b : List Byte) (p : Parse) (o : Nat) : Parse :=
  let tci := beAt b (o + 2) 1
  let sc := tci.testBit 5
  let hl := if sc then 16 else 8
  (p.needLen o 8 (o + 2) hl b.length).andThen fun p =>
    let p := p.push 4 0 o
    let secure := b.length - o - hl - 16
    let sl := beAt b (o + 3) 1 % 64
    let p := p.check (decide (o + hl + 16 ≤ b.length) && !tci.testBit 7 && !(sc && (tci.testBit 6 || tci.testBit 4))
      && (if secure < 48 then decide (sl = secure) else decide (sl = 0)))
    { p with sec := o }

/-- The EtherTypes from `o` on: tags, then the header they announce (R272). -/
def parseType (b : List Byte) (black : Bool) : Nat → Parse → Nat → Parse
  | 0, p, _ => { p with bad := 2 }
  | k + 1, p, o =>
    let et := beAt b o 2
    if et = 0x88A8 ∨ et = 0x8100 then
      let p := ((p.need o 6 b.length).push (if et = 0x88A8 then 2 else 3) 0 o)
      p.andThen fun p =>
        parseType b black k { p with vid := some (p.vid.getD (beAt b (o + 2) 2 % 4096)) } (o + 4)
    else
      match et with
      | 0x0800 => parseIp4 b black p (o + 2)
      | 0x86DD => parseIp6 b black p (o + 2)
      | 0x88E5 => parseSec b p o
      | 0x888E => p.push 17 0 (o + 2)
      | 0x88F7 => p.push 18 0 (o + 2)
      | 0x0806 => p.push 19 0 (o + 2)
      | _ => p.push 31 0 (o + 2)

/-- Parse a frame; `black`: the checks of an outer packet on a black slice are made; `atom`: an atomic fragment is a first fragment. -/
def parseFrame (b : List Byte) (black : Bool) (atom : Bool := false) : Parse :=
  (((Parse.start atom).need 0 14 b.length).push 1 0 0).andThen fun p => parseType b black 18 p 12

/-- The key of a fragment: IPv4 by source, destination, identification and protocol; IPv6 by source, destination and
identification. -/
def fragKey (b : List Byte) (p : Parse) : List Byte :=
  if p.ver = 4 then 4 :: (bytesAt b (p.l3 + 12) 8 ++ bytesAt b (p.l3 + 4) 2 ++ bytesAt b (p.l3 + 9) 1)
  else 6 :: (bytesAt b (p.l3 + 8) 32 ++ bytesAt b (p.fh + 4) 4)

end Sys2Proof.Machine
end

