-- ==== Sys2Proof/Machine/Ipsec.lean ====
section
/-! DEFINITION. What a cipher engine computes on a frame and an SA record (R327 to R350): the fields of a record, lifetimes,
sequence numbers, ESP and MACsec encapsulation and its removal. A record is its 24 words as numbers. -/

namespace Sys2Proof.Machine

/-! ## The SA record (R331, R332) -/

/-- Word `i` of a record, and the 64-bit number in words `i` and `i + 1`. -/
def saW (r : List Nat) (i : Nat) : Nat := r.getD i 0
def saQ (r : List Nat) (i : Nat) : Nat := saW r i + 2 ^ 32 * saW r (i + 1)

/-- A record with word `i` replaced, and with the 64-bit number in words `i` and `i + 1` replaced. -/
def saSet (r : List Nat) (i v : Nat) : List Nat := r.set i (v % 2 ^ 32)
def saSetQ (r : List Nat) (i v : Nat) : List Nat := saSet (saSet r i v) (i + 1) (v / 2 ^ 32)

/-- Fields of CTRL. -/
def saV (r : List Nat) : Bool := (saW r 0).testBit 31
def saIn (r : List Nat) : Bool := (saW r 0).testBit 30
def saSuite (r : List Nat) : Nat := bitsOf (saW r 0) 29 27
def saState (r : List Nat) : Nat := bitsOf (saW r 0) 26 25
def saEsn (r : List Nat) : Bool := (saW r 0).testBit 24
def saTunnel (r : List Nat) : Bool := (saW r 0).testBit 23
def saUdp (r : List Nat) : Bool := (saW r 0).testBit 22
def saSc (r : List Nat) : Bool := (saW r 0).testBit 21
def saCoff (r : List Nat) : Nat := match bitsOf (saW r 0) 18 17 with | 0 => 0 | 1 => 30 | _ => 50
def saReplayEn (r : List Nat) : Bool := (saW r 0).testBit 16
def saWin (r : List Nat) : Nat := bitsOf (saW r 0) 15 8 + 1
def saSlot (r : List Nat) : Nat := saW r 4 % 2 ^ 19

/-- STATE replaced. -/
def saSetState (r : List Nat) (st : Nat) : List Nat :=
  saSet r 0 (saW r 0 - saState r * 2 ^ 25 + st % 4 * 2 ^ 25)

/-- The suite is ESP; it is XPN; its key length; the sequence number is 64 bits wide (R327). -/
def suiteEsp (s : Nat) : Bool := decide (s < 2)
def suiteXpn (s : Nat) : Bool := decide (s = 4 ∨ s = 5)
def suiteKey (s : Nat) : Nat := if s % 2 = 0 then 16 else 32
def saWide (r : List Nat) : Bool := suiteXpn (saSuite r) || (suiteEsp (saSuite r) && saEsn r)

/-- The largest PN of a record's suite. -/
def saMaxPn (r : List Nat) : Nat := if saWide r then 2 ^ 64 - 1 else 2 ^ 32 - 1

/-- Wire-order bytes of words `i` to `i + n - 1`. -/
def saBytes (r : List Nat) (i n : Nat) : List Byte := ((List.range n).map fun j => beBytes 4 (saW r (i + j))).flatten

/-! ## Lifetime (R336) -/

/-- An update may move STATE: the record after it, and the kind of the entry for SAT_LIFE_FIFO (0 SOFT, 1 HARD). `pn` is the
outbound PN or the inbound T after the update. -/
def saLife (r : List Nat) (pn : Nat) : List Nat × Option Nat :=
  let soft := (decide (saQ r 20 ≠ 0) && decide (saQ r 20 ≤ pn))
    || (decide (saW r 22 / 65536 ≠ 0) && decide (saW r 22 / 65536 * 2 ^ 32 ≤ saQ r 18))
  let hard := decide (saW r 22 % 65536 ≠ 0) && decide (saW r 22 % 65536 * 2 ^ 32 ≤ saQ r 18)
  if hard && decide (saState r ≠ 2) then (saSetState r 2, some 1)
  else if soft && decide (saState r = 0) then (saSetState r 1, some 0)
  else (r, none)

/-! ## Sequence numbers (R345, R346) -/

/-- The PN that a frame's 32-bit field stands for; none is OUTSIDE. -/
def pnRecover (r : List Nat) (s : Nat) : Option Nat :=
  if !saWide r then some s
  else
    let tl := saW r 8
    let th := saW r 9
    let w := saWin r
    if w - 1 ≤ tl then some ((if tl + 1 - w ≤ s then th else (th + 1) % 2 ^ 32) * 2 ^ 32 + s)
    else if tl + 1 + 2 ^ 32 - w ≤ s then (if th = 0 then none else some ((th - 1) * 2 ^ 32 + s))
    else some (th * 2 ^ 32 + s)

/-- Bit `d` of WINDOW. -/
def winBit (r : List Nat) (d : Nat) : Bool := (saW r (10 + d / 32)).testBit (d % 32)

/-- The 256 bits of WINDOW as a number, and a record with them replaced. -/
def winNat (r : List Nat) : Nat := (List.range 8).foldl (fun a i => a + saW r (10 + i) * 2 ^ (32 * i)) 0
def winPut (r : List Nat) (n : Nat) : List Nat := (List.range 8).foldl (fun r i => saSet r (10 + i) (n / 2 ^ (32 * i))) r

/-- The replay decision: 0 pass, or the counter offset of REPLAY or REPLAY_OLD. -/
def pnCheck (r : List Nat) (p : Nat) : Nat :=
  let t := saQ r 8
  if p = 0 then 0x134
  else if t < p then 0
  else if !saReplayEn r then 0
  else if saWin r ≤ t - p then 0x134
  else if winBit r (t - p) then 0x130
  else 0

/-- The update of T, WINDOW and OCTETS after a frame has passed. -/
def pnUpdate (r : List Nat) (p octets : Nat) : List Nat :=
  let t := saQ r 8
  let r := saSetQ r 18 (saQ r 18 + octets)
  if t < p then
    let e := p - t
    saSetQ (winPut r ((if 256 ≤ e then 0 else winNat r * 2 ^ e % 2 ^ 256) ||| 1)) 8 p
  else if t - p < 256 then winPut r (winNat r ||| 2 ^ (t - p))
  else r

/-- Count a drop in word 23: REPLAY_DROPS or AUTH_DROPS, saturating. -/
def saCountReplay (r : List Nat) : List Nat := saSet r 23 (satAdd 65535 (saW r 23 / 65536) 1 * 65536 + saW r 23 % 65536)
def saCountAuth (r : List Nat) : List Nat := saSet r 23 (saW r 23 / 65536 * 65536 + satAdd 65535 (saW r 23 % 65536) 1)

/-! ## The IP headers of a frame -/

/-- The IPv6 extension headers that R340 skips, from next-header value `nh`, whose field is at `f`, with the header at `o`:
the offset of the last next-header field and the offset after the chain, or none for a header that does not end below byte 256
or within the frame, or a Fragment header, which `fr` lets pass. -/
def skipExt (b : List Byte) (fr : Bool) : Nat → Nat → Nat → Option (Nat × Nat)
  | 0, _, _ => none
  | k + 1, f, o =>
    let nh := beAt b f 1
    if nh = 44 then (if fr then skipExt b fr k o (o + 8) else none)
    else if nh = 0 ∨ nh = 43 ∨ nh = 60 then
      let e := o + 8 * (beAt b (o + 1) 1 + 1)
      if e ≤ 256 ∧ e ≤ b.length then skipExt b fr k o e else none
    else some (f, o)

/-- The offset of the EtherType after the tags. -/
def skipTags (b : List Byte) : Nat → Nat → Nat
  | 0, o => o
  | k + 1, o => if beAt b o 2 = 0x88A8 ∨ beAt b o 2 = 0x8100 then skipTags b k (o + 4) else o

/-- The IP header of a frame: its version, its offset, the offset of its protocol or last next-header field, the offset after
its headers; none where the walk of R340 fails. -/
def ipWalk (b : List Byte) (fr : Bool) : Option (Nat × Nat × Nat × Nat) :=
  let t := skipTags b 64 12
  let o := t + 2
  match beAt b t 2 with
  | 0x0800 =>
    let ihl := beAt b o 1 % 16
    let e := o + 4 * ihl
    if 5 ≤ ihl ∧ e ≤ 256 ∧ e ≤ b.length ∧ beAt b (o + 6) 2 % 16384 = 0 then some (4, o, o + 9, e) else none
  | 0x86DD =>
    if o + 40 ≤ 256 ∧ o + 40 ≤ b.length then
      match skipExt b fr 32 (o + 6) (o + 40) with
      | some (f, e) => some (6, o, f, e)
      | none => none
    else none
  | _ => none

/-- Recompute the length fields and the IPv4 checksum of the IP header at `o` for a packet that ends with the frame. -/
def ipFix (ver o : Nat) (b : List Byte) : List Byte :=
  if ver = 4 then
    let b := putBytes b (o + 2) (beBytes 2 (b.length - o))
    let b := putBytes b (o + 10) [0, 0]
    putBytes b (o + 10) (beBytes 2 (65535 - inetSum (bytesAt b o (4 * (beAt b o 1 % 16)))))
  else putBytes b (o + 4) (beBytes 2 (b.length - o - 40))

/-! ## ESP encapsulation (R340, R341) -/

/-- The insertion point, and the next header that is sent; an error is the counter offset. -/
def espPoint (r : List Nat) (b : List Byte) (filler : Bool) : Except Nat (Nat × Nat) :=
  match ipWalk b false with
  | none => .error 0x148
  | some (_, _, f, e) =>
    let i := if saUdp r then e + 8 else e
    if b.length < i then .error 0x148
    else if filler then .ok (i, 59)
    else if saTunnel r then
      if i < b.length ∧ beAt b i 1 / 16 = 4 then .ok (i, 4)
      else if i < b.length ∧ beAt b i 1 / 16 = 6 then .ok (i, 41)
      else .error 0x14C
    else .ok (i, beAt b f 1)

/-- The padding of R341 for a payload length. -/
def espPad (n : Nat) : Nat := (4 - (n + 2) % 4) % 4

/-- The UDP header of R341 at `u`, its length and checksum. -/
def udpFix (ver o u : Nat) (b : List Byte) : List Byte :=
  let n := b.length - u
  let b := putBytes (putBytes b (u + 4) (beBytes 2 n)) (u + 6) [0, 0]
  if ver = 4 then b
  else
    let sum := 65535 - inetSum (bytesAt b (o + 8) 32 ++ beBytes 4 n ++ beBytes 4 17 ++ b.drop u)
    putBytes b (u + 6) (beBytes 2 (if sum = 0 then 65535 else sum))

/-- The frame with its ESP encapsulation under PN `pn`. -/
def espBuild (r : List Nat) (key : List Byte) (pn : Nat) (b : List Byte) (i nh : Nat) : List Byte :=
  match ipWalk b false with
  | none => b
  | some (ver, o, f, e) =>
    let pay := b.drop i
    let pad := espPad pay.length
    let pt := pay ++ (List.range pad).map (fun j => BitVec.ofNat 8 (j + 1)) ++ [BitVec.ofNat 8 pad, BitVec.ofNat 8 nh]
    let iv := beBytes 8 pn
    let nonce := saBytes r 5 1 ++ iv
    let aad := saBytes r 1 1 ++ (if saEsn r then beBytes 8 pn else beBytes 4 pn)
    let ct := gcmCrypt key nonce pt
    let out := b.take i ++ saBytes r 1 1 ++ beBytes 4 pn ++ iv ++ ct ++ gcmTag key nonce aad ct
    let out := putBytes out f [if saUdp r then 17 else 50]
    let out := if saUdp r then udpFix ver o e out else out
    ipFix ver o out

/-! ## MACsec encapsulation (R342) -/

/-- The IV of a MACsec frame. -/
def secIv (r : List Nat) (pn : Nat) : List Byte :=
  if suiteXpn (saSuite r) then xorBytes (saBytes r 1 1 ++ beBytes 8 pn) (saBytes r 5 3) else saBytes r 2 2 ++ beBytes 4 pn

/-- The SecTAG of an outbound frame. -/
def secTag (r : List Nat) (an pn n : Nat) : List Byte :=
  let tci := b2n ((saW r 0).testBit 20) * 64 + b2n (saSc r) * 32 + b2n ((saW r 0).testBit 19) * 16 + 8 + 4 + an % 4
  [0x88, 0xE5, BitVec.ofNat 8 tci, BitVec.ofNat 8 (if n < 48 then n else 0)] ++ beBytes 4 pn
    ++ (if saSc r then saBytes r 2 2 else [])

/-- The frame with its MACsec encapsulation. -/
def secBuild (r : List Nat) (key : List Byte) (an pn : Nat) (b : List Byte) : List Byte :=
  let data := b.drop 12
  let tag := secTag r an pn data.length
  let clear := data.take (saCoff r)
  let aad := b.take 12 ++ tag ++ clear
  let ct := gcmCrypt key (secIv r pn) (data.drop (saCoff r))
  aad ++ ct ++ gcmTag key (secIv r pn) aad ct

/-- The length of a frame after encapsulation (R382); the frame length where the walk fails. -/
def encLength (r : List Nat) (b : List Byte) (filler : Bool) : Nat :=
  if suiteEsp (saSuite r) then
    match espPoint r b filler with
    | .ok (i, _) => b.length + 34 + espPad (b.length - i)
    | .error _ => b.length
  else b.length + (if saSc r then 32 else 24)

/-! ## Ingress (R344 to R350) -/

/-- The SCI of a SecTAG at `o`: explicit, or the source address with port identifier 1 (R297). -/
def frameSci (b : List Byte) (o : Nat) : List Byte :=
  if (beAt b (o + 2) 1).testBit 5 then bytesAt b (o + 8) 8 else bytesAt b 6 6 ++ [0, 1]

/-- The bytes after a SecTAG at `o`. -/
def secHdr (b : List Byte) (o : Nat) : Nat := if (beAt b (o + 2) 1).testBit 5 then 16 else 8

/-- The end of the IP packet of a parsed frame. -/
def ipEnd (b : List Byte) (p : Parse) : Nat :=
  if p.ver = 4 then p.l3 + beAt b (p.l3 + 2) 2 else p.l3 + 40 + beAt b (p.l3 + 4) 2

/-- The 32-bit PN field of a frame. -/
def framePn (b : List Byte) (p : Parse) : Nat := if p.last = 15 then beAt b (p.esp + 4) 4 else beAt b (p.sec + 4) 4

/-- Decrypt and verify: the plaintext, and the clear part of the secure data before it (R341, R342); none is AUTH_FAIL. -/
def openFrame (r : List Nat) (key : List Byte) (b : List Byte) (p : Parse) (pn : Nat) : Option (List Byte) :=
  if p.last = 15 then
    let body := bytesAt b (p.esp + 16) (ipEnd b p - p.esp - 32)
    let tag := bytesAt b (ipEnd b p - 16) 16
    let nonce := saBytes r 5 1 ++ bytesAt b (p.esp + 8) 8
    let aad := bytesAt b p.esp 4 ++ (if saEsn r then beBytes 8 pn else beBytes 4 pn)
    if gcmTag key nonce aad body = tag then some (gcmCrypt key nonce body) else none
  else
    let h := secHdr b p.sec
    let data := bytesAt b (p.sec + h) (b.length - p.sec - h - 16)
    let clear := data.take (saCoff r)
    let aad := b.take 12 ++ bytesAt b p.sec h ++ clear
    let ct := data.drop (saCoff r)
    if gcmTag key (secIv r pn) aad ct = b.drop (b.length - 16) then some (clear ++ gcmCrypt key (secIv r pn) ct) else none

/-- The padding of a decrypted ESP payload is 1, 2, 3 and so on, and fits (R347). -/
def padOk (pt : List Byte) : Bool :=
  let n := pt.length
  let pl := beAt pt (n - 2) 1
  decide (pl + 2 ≤ n) && (List.range pl).all fun j => decide (beAt pt (n - 2 - pl + j) 1 = j + 1)

/-- The ESP payload without its trailer. -/
def espData (pt : List Byte) : List Byte := pt.take (pt.length - 2 - beAt pt (pt.length - 2) 1)

/-- The trailer check of R347: 0, or the counter offset of PAD_BAD or NH_BAD. -/
def trailerCheck (r : List Nat) (pt : List Byte) : Nat :=
  let nh := beAt pt (pt.length - 1) 1
  let v := beAt (espData pt) 0 1 / 16
  if !padOk pt then 0x13C
  else if saTunnel r ∧ ¬(nh = 59 ∨ (nh = 4 ∧ v = 4 ∧ espData pt ≠ []) ∨ (nh = 41 ∧ v = 6 ∧ espData pt ≠ [])) then 0x140
  else 0

/-- A verified frame is a filler (R350). -/
def isDummy (p : Parse) (pt : List Byte) (filler : Nat) : Bool :=
  if p.last = 15 then decide (beAt pt (pt.length - 1) 1 = 59) else decide (2 ≤ pt.length ∧ beAt pt 0 2 = filler)

/-- The frame that the engine produces (R348, R349). -/
def stripFrame (r : List Nat) (b : List Byte) (p : Parse) (pt : List Byte) : List Byte :=
  if p.last ≠ 15 then b.take 12 ++ pt
  else if saTunnel r then
    b.take (p.l3 - 2) ++ (if beAt pt 0 1 / 16 = 6 then [0x86, 0xDD] else [0x08, 0x00]) ++ espData pt
  else
    let cut := if p.l4 ≠ 0 ∧ p.l4 + 8 = p.esp then p.l4 else p.esp
    match ipWalk (b.take cut) true with
    | some (ver, o, f, _) => ipFix ver o (putBytes (b.take cut ++ espData pt) f [BitVec.ofNat 8 (beAt pt (pt.length - 1) 1)])
    | none => b.take cut ++ espData pt

end Sys2Proof.Machine
end

