-- ==== Sys2Proof/Machine/Sat.lean ====
section
/-! DEFINITION. Table write locks (R311), the SA Table and its commands (R324 to R337), the Vault's register (R359), and the Policy
Table's operations (R320 to R323). -/

namespace Sys2Proof.Machine

/-! ## Table write locks (R311) -/

/-- The WLOCK register of a table, its page, and the page's event bit. -/
def aWlock : LockTable → Nat
  | .cls d => ra (pdPage d.val 0) 0x130
  | .sat d => ra (pdPage d.val 3) 0x130
  | .pol r => ra (rgnPage r.val 1) 0x140
def wlockEvent : LockTable → Nat
  | .cls _ => 12
  | .sat _ => 9
  | .pol _ => 8

/-- Start the timer of the lock whose register is at `a`. -/
def State.wlockTimer (s : State) (a : Nat) : State :=
  { s with wlocks := tPut s.wlocks a (s.now + s.tbTicks (1000 * s.rf (a + 4) 15 0)) }

/-- A write to a WLOCK register: EXPIRED clears where 1 is written; HELD = 1 takes a free lock; HELD = 0 frees it. -/
def State.wlockWrite (s : State) (a : Nat) (v : Word) : State :=
  let s := if bit v 30 then s.hwClear a (maskOf 30 30) else s
  if bit v 31 then
    if s.rb a 31 then s else ((s.setRf a 13 0 (fld v 13 0)).setRb a 31 true).wlockTimer a
  else
    let s := (s.setRf a 13 0 (fld v 13 0)).setRb a 31 false
    { s with wlocks := tDel s.wlocks a }

/-- The check of a command with an owner ID: none where it ends LOCKED; a command of the holder restarts the timer. -/
def State.wlockPass (s : State) (a o : Nat) : Option State :=
  if !s.rb a 31 then some s else if s.rf a 13 0 = o then some (s.wlockTimer a) else none

/-- WLOCK_TAKE (R311). -/
def execWlockTake (l : LockTable) (owner : OwnerId) (s : State) : Host.Outcome State Fault Refusal :=
  .next (s.wlockWrite (aWlock l) (nw (2 ^ 31 + owner.toNat)))

/-- WLOCK_FREE (R311). -/
def execWlockFree (l : LockTable) (s : State) : Host.Outcome State Fault Refusal := .next (s.wlockWrite (aWlock l) 0)

/-- WLOCK_EXPIRY: the timer of a held lock reaches TMO. -/
def State.wlockExpire (s : State) (a e : Nat) : State :=
  match tFind s.wlocks a with
  | none => s
  | some t =>
    let s := s.upTo t
    ({ (s.setRb a 31 false).hwSet a 30 with wlocks := tDel s.wlocks a }).raise (a / 4096) e
def execWlockExpiry (l : LockTable) (s : State) : Host.Outcome State Fault Refusal :=
  .next (s.wlockExpire (aWlock l) (wlockEvent l))

/-! ## The SA Table -/

/-- The SAT and VLT pages of a P-die. -/
def satPage (d : Nat) : Nat := pdPage d 3
def vltPage (d : Nat) : Nat := pdPage d 4

/-- The array address of a record. -/
def satAt (d i : Nat) : Nat := (d * 2 ^ 19 + i % 2 ^ 19) * 96

/-- Read a record: its words, whether it has an uncorrectable error, the state with its correctable errors logged (R324, R449). -/
def State.saRead (s : State) (d i : Nat) : List Nat × Bool × State :=
  let a := satAt d i
  let b := s.sat.read (arrSat d) a 96
  let r := (List.range 24).map fun j => leAt b (4 * j) 4
  match s.sat.codes (arrSat d) a 96 with
  | 0 => (r, false, s)
  | c => (r, decide (c = 2), s.eccCes (satPage d) (satAt d 0) (s.sat.ces (arrSat d) a 96))

/-- Write a record whole. -/
def State.saWrite (s : State) (d i : Nat) (r : List Nat) : State :=
  { s with sat := s.sat.write (arrSat d) (satAt d i) ((((r ++ List.replicate 24 0).take 24).map (leBytes 4)).flatten) }

/-- Log an uncorrectable error of a record: class 2, the SA index as the address. -/
def State.saUe (s : State) (d i : Nat) : State :=
  s.eccUe (satPage d) 2 (s.sat.synd (arrSat d) (s.sat.first (arrSat d) (satAt d i) 96 2)) i

/-- An entry for SAT_LIFE_FIFO (R336, R337): the LIFE event, and the entry unless the FIFO is full. -/
def State.lifePush (s : State) (d kind i : Nat) : State :=
  let s := s.raise (satPage d) 8
  if 64 ≤ (s.pd d).life.length then s.bumpF (ra (satPage d) 0x114) 15 0 1
  else s.modPd d fun x => { x with life := x.life ++ [(kind, i)] }

/-! ## SA Table commands (R333, R334, R357) -/

/-- The checks of R333 on an image with V = 1. -/
def saImageOk (i : Nat) (r : List Nat) : Bool :=
  let st := saSuite r
  let w := saW r 0
  decide (st < 6) && decide (w / 2 ^ 17 % 4 ≠ 3) && decide (w % 256 = 0) && decide (saW r 4 < 2 ^ 19)
    && (suiteEsp st || !(saEsn r || saTunnel r || saUdp r)) && !(saSc r && (w.testBit 20 || w.testBit 19))
    && !(suiteEsp st && w.testBit 30 && decide (saW r 1 % 2 ^ 20 ≠ i))

/-- The image as a WRITE stores it: reserved bits of CTRL and word 4 are ignored (R8, R333). -/
def saStored (r : List Nat) : List Nat :=
  let r := saSetState (saSet (saSet r 0 (saW r 0 / 256 * 256)) 4 (saW r 4 % 2 ^ 19)) 0
  if !(saW r 0).testBit 30 && decide (saQ r 8 = 0) then saSetQ r 8 1 else r

/-- The image in SAT_DATA0 to 23. -/
def State.satData (s : State) (d : Nat) : List Nat := (List.range 24).map fun j => (s.reg (ra (satPage d) (0x180 + 4 * j))).toNat

/-- RESULT of SAT_CMD. -/
def State.satResult (s : State) (d r : Nat) : State := s.setReg (ra (satPage d) 0x100) (nw (r * 2 ^ 28))

/-- The operations of R334 on the record `i`, with its words `r`: the result and the record as it is to be written. -/
def satOp (op : Nat) (r img : List Nat) : Nat × Option (List Nat) :=
  match op with
  | 3 => (0, some (saSet r 0 (saW r 0 % 2 ^ 31)))
  | 4 => (0, some (saSet (saSet (saSet r 20 (saW img 20)) 21 (saW img 21)) 22 (saW img 22)))
  | 5 =>
    if (saW r 0).testBit 30 then (1, none)
    else if saQ r 8 < saQ img 8 then (0, some (saSetQ r 8 (saQ img 8)))
    else (4, none)
  | 6 => (0, some (saSet r 23 0))
  | _ => (1, none)

/-- An operation of SAT_CMD acts on a record as it stands. A WRITE that moves STATE to ACTIVE leaves a lifetime entry, whose KIND no rule gives
(R336; log entry 71), where `life` holds; the registers show the result where `tell` holds. -/
def State.satDo (s : State) (d i op : Nat) (img : List Nat) (life tell : Bool) : State :=
  let done := fun (s : State) r => if tell then s.satResult d r else s
  let x := s.saRead d i
  if op = 1 then
    let s := s.saWrite d i (saStored img)
    done (if life ∧ !x.2.1 ∧ saState x.1 ≠ 0 then (s.lifePush d (Config.lifeKind s.draw % 2) i).drawn else s) 0
  else if x.2.1 then done (x.2.2.saUe d i) 3
  else if op = 2 then
    done (if tell then (List.range 24).foldl (fun s j => s.setReg (ra (satPage d) (0x180 + 4 * j)) (nw (saW x.1 j))) x.2.2 else x.2.2) 0
  else
    let y := satOp op x.1 img
    done (match y.2 with
      | some r => x.2.2.saWrite d i r
      | none => x.2.2) y.1

/-- The key of a record, and what software does to it in this fabric cycle. -/
def satKey (d i : Nat) : Nat := d * 2 ^ 19 + i % 2 ^ 19
def State.satNow (s : State) (d i : Nat) : Option SatCyc := s.satWas.before s.fab (satKey d i)
def State.satKeep (s : State) (d i : Nat) (x : SatCyc) : State := { s with satWas := s.satWas.put s.fab (satKey d i) x }

/-- Software operates on a record: what it held is kept for the engines of this fabric cycle (R325). -/
def State.satEnter (s : State) (d i op : Nat) (img : List Nat) : State :=
  let a := satAt d i
  let x := (s.satNow d i).getD { eng := (s.saRead d i).1, code := s.sat.codes (arrSat d) a 96, ces := s.sat.ces (arrSat d) a 96,
                                 synd := s.sat.synd (arrSat d) (s.sat.first (arrSat d) a 96 2), ops := [] }
  s.satKeep d i { x with ops := x.ops ++ [(op, img)] }

/-- An engine reads a record: as it was before the operations of this fabric cycle, whether it has an uncorrectable error, the state with an error
logged (R324, R325, R335). -/
def State.saSeen (s : State) (d i : Nat) : List Nat × Bool × State :=
  match s.satNow d i with
  | none =>
    let r := s.saRead d i
    (r.1, r.2.1, if r.2.1 then r.2.2.saUe d i else r.2.2)
  | some x =>
    let s := s.eccCes (satPage d) (satAt d 0) x.ces
    (x.eng, decide (2 ≤ x.code), if 2 ≤ x.code then s.eccUe (satPage d) 2 x.synd i else s)

/-- An engine writes a record: the operations of this fabric cycle act after its update (R335). -/
def State.saEngine (s : State) (d i : Nat) (r : List Nat) : State :=
  match s.satNow d i with
  | none => s.saWrite d i r
  | some x =>
    let tell := decide (s.rf (ra (satPage d) 0x104) 19 0 = i)
    x.ops.foldl (fun s o => s.satDo d i o.1 o.2 (decide (saState x.eng = 0)) tell)
      ((s.satKeep d i { x with eng := r, code := 0, ces := [] }).saWrite d i r)

/-- Write a record after an engine's update, with the lifetime rules applied. -/
def State.saUpdate (s : State) (d i : Nat) (r : List Nat) (pn : Nat) : State :=
  match saLife r pn with
  | (r', some k) => (s.saEngine d i r').lifePush d k i
  | (r', none) => s.saEngine d i r'

/-- An operation of SAT_CMD: lock (R311), operation and home, the checks of an image, then its effect. -/
def State.satCmd (s : State) (d op : Nat) : State :=
  let i := s.rf (ra (satPage d) 0x104) 19 0
  match (if op = 2 then some s else s.wlockPass (ra (satPage d) 0x130) (s.rf (ra (satPage d) 0x108) 13 0)) with
    | none => s.satResult d 2
    | some s =>
      if op = 0 ∨ 6 < op ∨ i / 2 ^ 19 ≠ d then s.satResult d 1
      else if op = 1 ∧ (saW (s.satData d) 0).testBit 31 ∧ !saImageOk i (s.satData d) then s.satResult d 1
      else (s.satEnter d i op (s.satData d)).satDo d i op (s.satData d) true true

/-- SAT_WRITE (R333, R334). -/
def execSatWrite (d : PDie) (s : State) : Host.Outcome State Fault Refusal := .next (s.satCmd d.val 1)
/-- SAT_READ (R334). -/
def execSatRead (d : PDie) (s : State) : Host.Outcome State Fault Refusal := .next (s.satCmd d.val 2)
/-- SAT_INVALIDATE (R334). -/
def execSatInvalidate (d : PDie) (s : State) : Host.Outcome State Fault Refusal := .next (s.satCmd d.val 3)
/-- MODIFY_LIFE (R334, R336). -/
def execModifyLife (d : PDie) (s : State) : Host.Outcome State Fault Refusal := .next (s.satCmd d.val 4)
/-- SET_PN (R334). -/
def execSetPn (d : PDie) (s : State) : Host.Outcome State Fault Refusal := .next (s.satCmd d.val 5)
/-- CLR_DROPS (R334). -/
def execClrDrops (d : PDie) (s : State) : Host.Outcome State Fault Refusal := .next (s.satCmd d.val 6)

/-- The word that a read of SAT_LIFE_FIFO returns, and the state with the entry removed (R357). -/
def State.lifeRead (s : State) (d : Nat) : Word × State :=
  match (s.pd d).life with
  | [] => (0, s)
  | (k, i) :: r => (nw (2 ^ 31 + k * 2 ^ 30 + i), s.modPd d fun x => { x with life := r })

/-- SAT_LIFE_FIFO_READ (R337, R357). -/
def execSatLifeFifoRead (d : PDie) (s : State) : Host.Outcome State Fault Refusal :=
  .next ((s.lifeRead d.val).2.emit (.data (s.lifeRead d.val).1))

/-- A write to VLT_CLR: a slot's valid bit is cleared where [31] = 1 (R351, R359). -/
def State.vltWrite (s : State) (d : Nat) (v : Word) : State :=
  if bit v 31 then s.vltClear (vltKey d (fld v 18 0)) else s

/-- VLT_CLR (R359). -/
def execVltClr (d : PDie) (value : Word) (s : State) : Host.Outcome State Fault Refusal := .next (s.vltWrite d.val value)

/-! ## The Policy Table (R320 to R323) -/

/-- A register of the POL page of a device region. -/
def aPol (r off : Nat) : Nat := ra (rgnPage r 1) off

/-- RESULT of POL_WR_CMD. -/
def State.polResult (s : State) (r c : Nat) : State := s.setReg (aPol r 0x100) (nw (c * 2 ^ 28))

/-- Write a word of an entry of a replica, with good parity; the reserved bits of words 1 and 2 are 0 (R8, R320). -/
def State.polPut (s : State) (r i j : Nat) (w : Word) : State :=
  let k := (r * 65536 + i) * 8 + j
  { s with pol := tSet (fun _ => 0) s.pol k (if j = 1 ∨ j = 2 then w &&& 0xFFFFF else w), polBad := tDel s.polBad k,
           polWas := s.polWas.note s.cyc k (tGet (fun _ => 0) s.pol k, (tFind s.polBad k).isSome) }

/-- Write a word of an entry of every replica whose domain is ON. -/
def State.polPutAll (s : State) (i j : Nat) (w : Word) : State :=
  (List.range 16).foldl (fun s r => if s.domIsOn (domRgn r) then s.polPut r i j w else s) s

/-- The entry of `State.gsa` for policy `i`: in phase 0 not latched, 1 latched, 2 phase one done. -/
def gsaKey (i phase : Nat) : Nat := 4 * i + phase

/-- A write operation of POL_WR_CMD: it enters through the write region alone, past the write lock. -/
def State.polWriteOp (s : State) (r : Nat) (f : State → State) : State :=
  if !s.domIsOn (domRgn r) then s.domDeny
  else if s.writeRegion ≠ some r then s.polResult r 1
  else
    match s.wlockPass (aPol r 0x140) (Config.polOwner s.draw).toNat with
    | none => { s.polResult r 1 with draw := s.draw + 1 }
    | some s' => { f s' with draw := s.draw + 1 }

/-- WRITE (R321). -/
def State.polWrite (s : State) (r i : Nat) : State :=
  s.polWriteOp r fun s =>
    (s.tbRedo i fun s => (List.range 8).foldl (fun s j => s.polPutAll i j (s.reg (aPol r (0x120 + 4 * j)))) s).polResult r 0

/-- GSA (R321): the new pointer enters the shadow store, or the store is full. -/
def State.polGsa (s : State) (r i : Nat) : State :=
  s.polWriteOp r fun s =>
    if (tFind s.gsa (gsaKey i 0)).isNone ∧ 1024 ≤ s.gsa.length then s.polResult r 3
    else { s with gsa := tPut s.gsa (gsaKey i 0) { x := s.rf (aPol r 0x124) 19 0, phase := 0 } }.polResult r 0

/-- A read or counter operation of POL_WR_CMD: the page's lock turns away what does not come from its holder, and its timer restarts for the
holder (R311). -/
def State.polReadOp (s : State) (r : Nat) (f : State → State) : State :=
  if !s.domIsOn (domRgn r) then s.domDeny
  else
    match s.wlockPass (aPol r 0x140) (Config.polOwner s.draw).toNat with
    | none => { s.polResult r 1 with draw := s.draw + 1 }
    | some s' => { f s' with draw := s.draw + 1 }

/-- READ (R321): the entry of the region's replica, and PARITY where a word fails. -/
def State.polRead (s : State) (r i : Nat) : State :=
  s.polReadOp r fun s =>
    let bad := (List.range 8).any fun j => (tFind s.polBad ((r * 65536 + i) * 8 + j)).isSome
    let s := (List.range 8).foldl (fun s j => s.setReg (aPol r (0x120 + 4 * j)) (tGet (fun _ => 0) s.pol ((r * 65536 + i) * 8 + j))) s
    s.polResult r (if bad then 2 else 0)

/-- CNT_READ and CNT_READ_CLR (R323): the additions of this core cycle are neither copied nor cleared. -/
def State.polCount (s : State) (r i : Nat) (clr : Bool) : State :=
  s.polReadOp r fun s =>
    let s := s.cntSettle s.cyc
    let c := tGet (fun _ => (0, 0)) s.polCnt (r * 65536 + i)
    let s := (s.setPair (aPol r 0x150) c.1).setPair (aPol r 0x158) c.2
    let s := if clr then { s with polCnt := tDel s.polCnt (r * 65536 + i) } else s
    s.polResult r 0

/-- POL_WRITE (R321). -/
def execPolWrite (r : RegionId) (index : BitVec 16) (s : State) : Host.Outcome State Fault Refusal := .next (s.polWrite r.val index.toNat)
/-- GSA (R321, R322). -/
def execGsa (r : RegionId) (index : BitVec 16) (s : State) : Host.Outcome State Fault Refusal := .next (s.polGsa r.val index.toNat)
/-- POL_READ (R321). -/
def execPolRead (r : RegionId) (index : BitVec 16) (s : State) : Host.Outcome State Fault Refusal := .next (s.polRead r.val index.toNat)
/-- CNT_READ (R323). -/
def execCntRead (r : RegionId) (index : BitVec 16) (s : State) : Host.Outcome State Fault Refusal := .next (s.polCount r.val index.toNat false)
/-- CNT_READ_CLR (R323). -/
def execCntReadClr (r : RegionId) (index : BitVec 16) (s : State) : Host.Outcome State Fault Refusal := .next (s.polCount r.val index.toNat true)

end Sys2Proof.Machine
end

