-- ==== Sys2Proof/Machine/Learning.lean ====
section
/-! DEFINITION. The Flow Table's commands (R304 to R310), the learn engine (R312 to R318). -/

namespace Sys2Proof.Machine

/-! ## The learn engine's log and counters (R326) -/

/-- A register of the LRN page of a P-die. -/
def aLrn (d off : Nat) : Nat := ra (pdPage d 2) off

/-- Write LRN_LOG: TYPE 1 STATION_MOVE, 2 CONTENDED. -/
def State.lrnLog (s : State) (d typ old new : Nat) (key : List Nat) : State :=
  let p := aLrn d 0x114
  let n := s.rf p 3 0
  let e := aLrn d (0x200 + 16 * n)
  let s := if s.rb e 31 then s.bumpF p 31 16 1 else s
  let s := ((s.hwMark e (maskOf 31 31)).setReg e (nw (2 ^ 31 + typ * 2 ^ 28 + old * 2 ^ 16 + new))).setReg (e + 4)
    (nw (key.getD 1 0 % 4096 * 2 ^ 16 + key.getD 2 0 / 2 ^ 16))
  let s := (s.setReg (e + 8) (nw (key.getD 2 0 % 2 ^ 16 * 2 ^ 16 + key.getD 3 0 / 2 ^ 16))).setReg (e + 12) (nw s.tb)
  s.setRf p 3 0 ((n + 1) % 16)

/-- PORT, SA_INDEX and the 48-bit LTIME of an entry. -/
def entPort (e : List Nat) : Nat := e.getD 13 0 / 2 ^ 20 % 128
def entSa (e : List Nat) : Nat := e.getD 13 0 % 2 ^ 20
def entTime (e : List Nat) : Nat := e.getD 14 0 + 2 ^ 32 * (e.getD 15 0 % 65536)
def entStatic (e : List Nat) : Bool := (e.getD 0 0).testBit 29

/-- An entry with PORT, SA_INDEX and LTIME. -/
def entLearn (e : List Nat) (port sa ts : Nat) : List Nat :=
  ((e.set 13 (e.getD 13 0 / 2 ^ 27 * 2 ^ 27 + port * 2 ^ 20 + sa)).set 14 (ts % 2 ^ 32)).set 15
    (e.getD 15 0 / 2 ^ 16 % 2 ^ 16 * 2 ^ 16 + ts / 2 ^ 32 % 2 ^ 16)

/-- Word 12 of a station's port: LRN_TMPL of the home P-die (R318). -/
def State.lrnTmpl (s : State) (d port : Nat) : Nat := (s.actReg (aLrn d (0x400 + 4 * port)) &&& 0xFFFF7FFF).toNat

/-- The home P-die of a KTYPE 1 key (R314). -/
def homeDie (key : List Nat) : Nat := key.getD 1 0 % 2

/-- A key of 12 words from the three words that a learn event holds. -/
def learnKey (l : List Nat) : List Nat := mkKey 1 l

/-- A learn event reaches the queue of its P-die (R313): merged, queued, or lost; lost too where the home P-die has stopped (R515). -/
def State.learnEvent (s : State) (d : Nat) (l : Learn) : State :=
  let q := (s.pd d).learnq
  if s.halted.contains (homeDie (learnKey l.key)) then s.bump (aLrn d 0x104)
  else if q.any fun e => decide (e.cmd = none ∧ e.key = l.key ∧ e.port = l.port ∧ e.sa = l.sa) then s
  else if 1024 ≤ (q.filter fun e => e.cmd.isNone).length then s.bump (aLrn d 0x104)
  else s.modPd d fun x => { x with learnq := x.learnq ++ [l] }

/-- The rank of an event of P-die `o`'s queue at the home engine of P-die `h` (R314): its fabric cycle; within one, the slices ascending,
then the commands of the home P-die (log entry 63), then the cross link. -/
def learnRank (h o : Nat) (l : Learn) : Nat := l.at_ / fabricTicks * 16 + (if o = h then l.slice else 9)

/-- The event or command that the home engine of P-die `h` takes next (R313, R314), with the P-die whose queue holds it. -/
def State.learnNext (s : State) (h : Nat) : Option (Nat × Learn) :=
  let of := fun o => ((s.pd o).learnq.filter fun l => decide (homeDie (learnKey l.key) = h)).map fun l => (o, l)
  (of h ++ of (1 - h)).foldl (fun a e =>
    match a with
    | none => some e
    | some b => if learnRank h e.1 e.2 < learnRank h b.1 b.2 then some e else some b) none

/-! ## LEARN_APPLY (R314 to R317) -/

/-- The result of the home table's write: its code, moves and place, and the entry that the other table takes (none: none). -/
structure LearnDone where
  code  : Nat
  moves : Nat
  loc   : Option Nat
  entry : Option (List Nat)
  deriving DecidableEq, Repr

/-- The result of a placement that ends at once; an on-die placement always does. -/
def placeDone (p : FtPlace) (e : List Nat) : LearnDone :=
  match p with
  | .done c m l => { code := c, moves := m, loc := l, entry := some e }
  | .chain m t _ => { code := ftOk, moves := m.length, loc := some t, entry := some e }

/-- A learn event meets an entry that is present and not STATIC (R316, R317): the entry as it is then, and the state with the log. -/
def State.learnMove (s : State) (d : Nat) (l : Learn) (e : List Nat) : List Nat × State :=
  let move := decide (entPort e ≠ l.port ∨ entSa e ≠ l.sa)
  let hold := s.af (aLrn d 0x100) 15 0
  let contended := decide (entPort e ≠ l.port) && decide ((l.ts + 2 ^ 48 - entTime e) % 2 ^ 48 < hold)
  let pol := s.af (aLrn d 0x100) 31 30
  let lrn := (e.getD 0 0).testBit 28
  let new := entLearn (if lrn then e.set 12 (s.lrnTmpl d l.port) else e) l.port l.sa l.ts
  if contended then
    let s := s.lrnLog d 2 (entPort e) l.port (learnKey l.key)
    if pol = 1 ∨ pol = 2 then (entBit e 27 true, s) else (entBit new 27 true, s.bump (aLrn d 0x110))
  else if move then (new, (s.lrnLog d 1 (entPort e) l.port (learnKey l.key)).bump (aLrn d 0x110))
  else (new, s)

/-- The home engine applies a learn event to its own table. -/
def State.learnHome (s : State) (d : Nat) (l : Learn) : LearnDone × State :=
  let key := learnKey l.key
  match s.ftSearch d false key with
  | (_, true, s) => ({ code := ftUe, moves := 0, loc := none, entry := none }, s)
  | (e :: _, false, s) =>
    if entStatic e.2 then ({ code := ftOk, moves := 0, loc := some e.1, entry := none }, s)
    else
      let r := s.learnMove d l e.2
      ({ code := ftOk, moves := 0, loc := some e.1, entry := some r.1 }, r.2.ftWrite d false e.1 r.1)
  | ([], false, s) =>
    let e := entStored (entLearn ((key ++ List.replicate 4 0).set 12 (s.lrnTmpl d l.port)) l.port l.sa l.ts) true
    let p := s.ftPlace d false e
    (placeDone p.1 e, p.2)

/-- A command on a KTYPE 1 key applied to one table (R306, R315). -/
def State.learnCmd (s : State) (d : Nat) (c : FtCmd) : LearnDone × State :=
  match c.op with
  | 1 =>
    let p := s.ftInsert d false c.image
    (placeDone p.1 c.image, p.2)
  | 2 =>
    let r := s.ftDelete d c.image
    ({ code := r.1, moves := 0, loc := r.2.1, entry := none }, r.2.2)
  | _ =>
    let r := s.ftModify d c.image
    ({ code := r.1, moves := 0, loc := r.2.1, entry := none }, r.2.2)

/-- LEARN_APPLY: the next event or command is decided and written into the home table; a READ ends here, with the table of the P-die
through which it was issued (R315). -/
def State.learnApply (s : State) (d : Nat) : State :=
  match (s.pd d).learning, s.learnNext d with
  | none, some (o, l) =>
    let s := s.modPd o fun x => { x with learnq := x.learnq.erase l }
    let s := s.upTo l.at_
    match l.cmd with
    | none =>
      let r := s.learnHome d l
      r.2.modPd d fun x => { x with learning := some { ev := l, entry := r.1.entry, code := r.1.code, moves := r.1.moves, loc := r.1.loc } }
    | some c =>
      if c.op = 4 then
        let r := s.ftReadKey c.die c.image (c.word.testBit 26)
        r.2.2.2.ftEnd c.die c.via r.1 0 r.2.1 r.2.2.1
      else
        let r := s.learnCmd d c
        r.2.modPd d fun x => { x with learning := some { ev := l, entry := r.1.entry, code := r.1.code, moves := r.1.moves, loc := r.1.loc } }
  | _, _ => s

/-! ## LEARN_REMOTE_WRITE (R314, R315) -/

/-- The other P-die's table takes the home engine's entry: its own HIT stays. -/
def State.learnOther (s : State) (d : Nat) (e : List Nat) : LearnDone × State :=
  match s.ftSearch d false e with
  | (_, true, s) => ({ code := ftUe, moves := 0, loc := none, entry := none }, s)
  | (x :: _, false, s) =>
    ({ code := ftOk, moves := 0, loc := some x.1, entry := none }, s.ftWrite d false x.1 (entBit e 30 (entHit x.2)))
  | ([], false, s) =>
    let p := s.ftPlace d false e
    (placeDone p.1 e, p.2)

/-- A table gives up the copies of a key that it can read, whatever else its candidates hold (R314). -/
def State.learnErase (s : State) (d : Nat) (key : List Nat) : State :=
  let r := s.ftSearch d false key
  r.1.foldl (fun s e => s.ftWrite d false e.1 zeroEntry) r.2.2

/-- Remove a key from both tables. -/
def State.learnPurge (s : State) (key : List Nat) : State := (s.learnErase 0 key).learnErase 1 key

/-- A refusing answer: BUSY or UE. -/
def refuses (c : Nat) : Bool := decide (c = ftBusy ∨ c = ftUe)

/-- LEARN_REMOTE_WRITE: the other table's answer is taken; a refusal of either removes the key from both. -/
def State.learnRemote (s : State) (d : Nat) : State :=
  match (s.pd d).learning with
  | none => s
  | some w =>
    let s := s.modPd d fun x => { x with learning := none }
    let o := 1 - d
    let key := learnKey w.ev.key
    match w.ev.cmd with
    | none =>
      let r := match w.entry with
        | some e => if refuses w.code then (LearnDone.mk w.code 0 none none, s) else s.learnOther o e
        | none => (LearnDone.mk w.code 0 none none, s)
      let c := r.1.code
      if c = ftBusy then (r.2.learnPurge key).bump (aLrn d 0x108)
      else if c = ftUe then (r.2.learnPurge key).bump (aCls d 0x150)
      else r.2
    | some c =>
      let r := if refuses w.code then (LearnDone.mk w.code 0 none none, s) else s.learnCmd o c
      let bad := refuses w.code || refuses r.1.code
      let code := if refuses w.code then w.code else if refuses r.1.code then r.1.code
        else if w.code = ftStashed ∨ r.1.code = ftStashed then ftStashed else w.code
      let s := if bad then r.2.learnPurge key else r.2
      let loc := if c.die = d then w.loc else r.1.loc
      s.ftEnd c.die c.via code (if c.die = d then w.moves else r.1.moves) loc none

/-- The learn engines hold or await nothing. -/
def State.learnIdle (s : State) : Bool := [0, 1].all fun h => (s.pd h).learning.isNone && (s.pd h).learnq.isEmpty

/-- The learn engine is the first of a table engine's sources (R307): what the engines hold is applied to the tables before another command. -/
def State.learnDrain : Nat → State → State
  | 0, s => s
  | k + 1, s => if s.learnIdle then s else State.learnDrain k ([0, 1].foldl (fun s h => (s.learnApply h).learnRemote h) s)

/-- LEARN_APPLY (R314). -/
def execLearnApply (d : PDie) (s : State) : Host.Outcome State Fault Refusal := .next (s.learnApply d.val)
/-- LEARN_REMOTE_WRITE (R314). -/
def execLearnRemoteWrite (d : PDie) (s : State) : Host.Outcome State Fault Refusal := .next (s.learnRemote d.val)

/-! ## Relocation in the DRAM tier (R308, R309) -/

/-- A relocation meets an uncorrectable error: its command ends UE, and the move in progress is undone (R306; log entry 203). -/
def State.relocFail (s : State) (d : Nat) (r : Reloc) : State := (s.modPd d fun x => { x with reloc := none }).ftEnd d r.via ftUe r.done none none

/-- Start the next move of a relocation: its entry is copied to a free stash entry; with none free the command ends BUSY. -/
def State.relocStart (s : State) (d : Nat) (r : Reloc) : State :=
  match r.moves with
  | [] => s.modPd d fun x => { x with reloc := none }
  | m :: _ =>
    match s.ftFree d true ((List.range 16).map (stashAt + ·)) with
    | none => (s.modPd d fun x => { x with reloc := none }).ftEnd d r.via ftBusy r.done none none
    | some t =>
      let e := s.ftRead d true m.1
      if e.2.1 then e.2.2.relocFail d r
      else (e.2.2.ftWrite d true t e.1).modPd d fun x => { x with reloc := some { r with phase := 1, stash := t } }

/-- HIT of copies of an entry ORed into the one at `to_`, unless one of them has an uncorrectable error: whether one has, and the state. -/
def State.hitInto (s : State) (d : Nat) (copies : List Nat) (to_ : Nat) : Bool × State :=
  let r := copies.foldl (fun r i => let e := r.2.ftRead d true i; ((r.1.1 || e.2.1, r.1.2 || entHit e.1), e.2.2)) ((false, false), s)
  let b := r.2.ftRead d true to_
  if r.1.1 || b.2.1 then (true, b.2.2)
  else (false, if r.1.2 && !entHit b.1 then b.2.2.ftWrite d true to_ (entBit b.1 30 true) else b.2.2)

/-- RELOCATION_STEP: phase 1, the entry is written into its new bucket; phase 2, it is cleared in the old one; phase 3, the stash
entry is freed and the next move begins, or the new entry is written first and the command ends. -/
def State.relocStep (s : State) (d : Nat) : State :=
  match (s.pd d).reloc with
  | none => s
  | some r =>
    match r.moves with
    | [] => s.modPd d fun x => { x with reloc := none }
    | m :: ms =>
      let put := fun (s : State) (r : Reloc) => s.modPd d fun x => { x with reloc := some r }
      match r.phase with
      | 1 =>
        let e := s.ftRead d true r.stash
        if e.2.1 then (e.2.2.ftWrite d true r.stash zeroEntry).relocFail d r
        else put (e.2.2.ftWrite d true m.2 e.1) { r with phase := 2 }
      | 2 =>
        let h := s.hitInto d [m.1, r.stash] m.2
        if h.1 then ((h.2.ftWrite d true m.2 zeroEntry).ftWrite d true r.stash zeroEntry).relocFail d r
        else put (h.2.ftWrite d true m.1 zeroEntry) { r with phase := 3 }
      | _ =>
        let h := s.hitInto d [r.stash] m.2
        let s := h.2
        if h.1 then
          let e := s.ftRead d true r.stash
          let s := if e.2.1 then s else (s.ftWrite d true m.1 e.1).ftWrite d true m.2 zeroEntry
          (s.ftWrite d true r.stash zeroEntry).relocFail d r
        else if ms = [] then
          let s := ((s.ftWrite d true r.target r.entry).ftWrite d true r.stash zeroEntry).ftDocc d true
          (s.modPd d fun x => { x with reloc := none }).ftEnd d r.via ftOk (r.done + 1) (some r.target) none
        else State.relocStart (s.ftWrite d true r.stash zeroEntry) d { r with moves := ms, done := r.done + 1 }
def execRelocationStep (d : PDie) (s : State) : Host.Outcome State Fault Refusal := .next (s.relocStep d.val)

/-- A relocation in progress is finished: the table engine executes one command at a time (R307). -/
def State.relocFinish : Nat → State → Nat → State
  | 0, s, _ => s
  | k + 1, s, d => if (s.pd d).reloc.isNone then s else State.relocFinish k (s.relocStep d) d

/-! ## Commands -/

/-- A command through `via` awaits the learn engine. -/
def State.ftWaiting (s : State) (d via : Nat) : Bool :=
  [0, 1].any fun h =>
    ((s.pd h).learnq.any fun l => match l.cmd with
      | some c => decide (c.die = d ∧ c.via = via)
      | none => false)
    || (match (s.pd h).learning with
      | some w => (match w.ev.cmd with
        | some c => decide (c.die = d ∧ c.via = via)
        | none => false)
      | none => false)

/-- A command on a KTYPE 1 key is queued for its home engine (R306, R315); CLS_FT_STAT shows BUSY. -/
def State.ftForward (s : State) (d via op word : Nat) (img : List Nat) : State :=
  let l : Learn := { key := (img.drop 1).take 3, port := 0, sa := 0, ts := s.tb, at_ := s.now, slice := 8,
                     cmd := some { die := d, via := via, op := op, word := word, image := img } }
  let s := s.modPd d fun x => { x with learnq := x.learnq ++ [l] }
  if via = 4 then s.setReg (aCls d 0x144) (nw (2 ^ 30)) else s

/-- A command carried out by the table engine (R305, R306): its word, LOC, owner ID and image. What came before it is finished first:
the learn engine's work, and a relocation (R307). -/
def State.ftRun (s : State) (d via word loc owner : Nat) (img : List Nat) : State :=
  let op := word / 2 ^ 28
  let dram := word.testBit 27
  let clr := word.testBit 26
  match s.wlockPass (aCls d 0x130) owner with
  | none => s.ftEnd d via ftLocked 0 none none
  | some s =>
    let s := State.relocFinish 64 s d
    if op = 0 ∨ 5 < op then (State.learnDrain 4096 s).ftEnd d via ftRefused 0 none none
    else
      if op < 5 ∧ entType img = 1 ∧ ¬(op = 1 ∧ dram) then s.ftForward d via op word img
      else
        let s := State.learnDrain 4096 s
        match op with
        | 1 =>
          match s.ftInsert d dram img with
          | (.done c m l, s) => s.ftEnd d via c m l none
          | (.chain m t _, s) =>
            let s := if via = 4 then s.setReg (aCls d 0x144) (nw (2 ^ 30)) else s
            s.relocStart d { entry := entStored img false, via := via, moves := m, phase := 0, stash := 0, done := 0, target := t }
        | 2 =>
          let r := s.ftDelete d img
          r.2.2.ftEnd d via r.1 0 r.2.1 none
        | 3 =>
          let r := s.ftModify d img
          r.2.2.ftEnd d via r.1 0 r.2.1 none
        | 4 =>
          let r := s.ftReadKey d img clr
          r.2.2.2.ftEnd d via r.1 0 r.2.1 r.2.2.1
        | _ =>
          let r := s.ftReadLoc d dram loc clr
          r.2.2.2.ftEnd d via r.1 0 r.2.1 r.2.2.1

/-- A write of CLS_FT_CMD: ignored and counted while a command runs (R307). -/
def State.ftReg (s : State) (d word : Nat) : State :=
  if s.rb (aCls d 0x144) 30 then s.bump (aCls d 0x158)
  else s.ftRun d 4 word (s.reg (aCls d 0x148)).toNat (s.rf (aCls d 0x14C) 13 0)
    ((List.range 16).map fun i => (s.reg (aCls d (0x180 + 4 * i))).toNat)

/-- The address of a ring's head entry that the engine may take: it takes the rings in order (R307), so while a lower ring has an entry posted,
or a command of the ring still runs, the head waits. -/
def State.ftTurn (s : State) (d n : Nat) : Option Nat :=
  match s.ringHead d n with
  | none => none
  | some a =>
    if (List.range n).any (fun m => (s.ringHead d m).isSome) || s.ftWaiting d n || (match (s.pd d).reloc with | some r => decide (r.via = n) | none => false) then none
    else some a

/-- The command at the head of a ring carried out when `p` holds of its operation; one that a read cannot decode ends UE (R304). -/
def State.ftRing (s : State) (d n : Nat) (p : Nat → Bool) : State :=
  match s.ftTurn d n with
  | none => s
  | some a =>
    let r := s.dramRead a 128
    if r.2.1 then r.2.2.ftEnd d n ftUe 0 none none
    else if !p (leAt r.1 0 4 / 2 ^ 28) then r.2.2
    else r.2.2.ftRun d n (leAt r.1 0 4) (leAt r.1 8 4) (leAt r.1 12 4 % 2 ^ 14) (entryWords (r.1.drop 64))

/-- A command from either source: the registers with the word given, or a ring. -/
def State.ftCommand (s : State) (d op : Nat) (via : CmdVia) (flags : Nat) : State :=
  match via with
  | .reg => s.ftReg d (op * 2 ^ 28 + flags)
  | .ring n => s.ftRing d n.val fun o => decide (o = op)

/-- FT_INSERT (R306). -/
def execFtInsert (d : PDie) (via : CmdVia) (dram : Bool) (s : State) : Host.Outcome State Fault Refusal :=
  .next (s.ftCommand d.val 1 via (b2n dram * 2 ^ 27))
/-- FT_DELETE (R306). -/
def execFtDelete (d : PDie) (via : CmdVia) (s : State) : Host.Outcome State Fault Refusal := .next (s.ftCommand d.val 2 via 0)
/-- FT_MODIFY (R306). -/
def execFtModify (d : PDie) (via : CmdVia) (s : State) : Host.Outcome State Fault Refusal := .next (s.ftCommand d.val 3 via 0)
/-- FT_READ (R306). -/
def execFtRead (d : PDie) (via : CmdVia) (clrHit : Bool) (s : State) : Host.Outcome State Fault Refusal :=
  .next (s.ftCommand d.val 4 via (b2n clrHit * 2 ^ 26))
/-- FT_READ_LOC (R306). -/
def execFtReadLoc (d : PDie) (via : CmdVia) (dram clrHit : Bool) (s : State) : Host.Outcome State Fault Refusal :=
  .next (s.ftCommand d.val 5 via (b2n dram * 2 ^ 27 + b2n clrHit * 2 ^ 26))

/-- No command carries out an operation (R305). -/
def ftNoOp (op : Nat) : Bool := decide (op = 0 ∨ 5 < op)

/-- Entries at the head of a ring whose operation no command carries out end REFUSED, or LOCKED (R305, R311), and those that cannot be decoded
UE, when their turn comes. -/
def State.ftSkip : Nat → State → Nat → Nat → State
  | 0, s, _, _ => s
  | k + 1, s, d, n =>
    let t := s.ftRing d n ftNoOp
    if t.ringHead d n = s.ringHead d n then s else State.ftSkip k t d n

/-- FT_RING_POLL: PROD of each ring is read (R304). -/
def execFtRingPoll (d : PDie) (s : State) : Host.Outcome State Fault Refusal :=
  .next ([0, 1, 2, 3].foldl (fun s n => State.ftSkip 65536 (s.ringPoll d.val n) d.val n) s)

end Sys2Proof.Machine
end

