-- ==== Sys2Proof/Machine/Ports.lean ====
section
/-! DEFINITION. Ports and their MACs (R258 to R269, R290, R291), the punt policers and the handoff of punts (R287, R288, R550), and
what a generation's stamp selects (R20, R409). -/

namespace Sys2Proof.Machine

/-! ## Generations -/

/-- The word of a register with G fields for generation `g`: the older live generation's, or the active one (R409). -/
def State.genReg (s : State) (g a : Nat) : Word := if s.oldLive ∧ g ≠ s.gen then s.oldReg a else s.actReg a
def State.gf (s : State) (g a hi lo : Nat) : Nat := fld (s.genReg g a) hi lo
def State.gb (s : State) (g a i : Nat) : Bool := bit (s.genReg g a) i

/-- A stale-generation drop: EPC_GEN_STALE (R412). -/
def aGenStale : Nat := ra (mPage 0) 0x140

/-! ## Slices and ports -/

/-- The slice of a P-die serves frames: its pair's domain is ON, its MAC, PRS and CPH pages are RUNNING, the die's data path is not
stopped. -/
def State.sliceUp (s : State) (d sl : Nat) : Bool :=
  s.domIsOn (domPair d (sl / 2)) && [0, 1, 2].all (fun p => decide (s.pgState (slicePage d sl p) = 2)) && !s.halted.contains d

/-- Counter `i` of a port context (R291). -/
def State.macCnt (s : State) (d i k : Nat) : State := s.bump (ra (macPage d (i / 8)) (0x200 + 64 * (i % 8) + 4 * k))

/-- QUADS and LANE_RATE of a slice. -/
def State.quads (s : State) (d sl : Nat) : Nat := s.rf (ra (macPage d sl) 0x100) 1 0
def State.laneRate (s : State) (d sl : Nat) : Nat := s.rf (ra (macPage d sl) 0x100) 7 6

/-- A port is enabled. -/
def State.portEn (s : State) (d i : Nat) : Bool := s.rb (aPort d i) 31

/-- Lanes and lane rate of a MODE (R262). -/
def modeLanes (m : Nat) : Nat :=
  match m with
  | 1 | 5 | 8 => 1
  | 2 | 6 => 2
  | 3 | 7 | 9 => 4
  | 4 => 8
  | _ => 0
def modeRate (m : Nat) : Nat := if m ≤ 4 then 0 else if m ≤ 7 then 1 else 2

/-- The quads of a slice pair are legal (R259). -/
def quadsOk (lo hi : Nat) : Bool := decide ((lo, hi) = (0, 0) ∨ (lo, hi) = (1, 2) ∨ (lo, hi) = (2, 1) ∨ (lo, hi) = (3, 3))

/-- An enable of a port context is legal (R259, R260, R262, R263, R290). -/
def State.portOk (s : State) (d i : Nat) : Bool :=
  let sl := i / 8
  let p := i % 8
  let m := s.rf (aPort d i) 27 24
  let f := s.rf (aPort d i) 23 22
  let n := modeLanes m
  let q := s.quads d sl
  let others := (List.range 8).filter fun c => decide (c ≠ p) && s.portEn d (8 * sl + c)
  let lanesOf := fun c => modeLanes (s.rf (aPort d (8 * sl + c)) 27 24)
  let meets := others.any fun c => decide (c < p + n) && decide (p < c + lanesOf c)
  let rate := (others.map fun c => modeGbps (s.rf (aPort d (8 * sl + c)) 27 24)).foldl (· + ·) (modeGbps m)
  decide (1 ≤ m ∧ m ≤ 9) && (if m ≤ 7 then decide (f = 0) else decide (f = 1 ∨ f = 2))
    && quadsOk (s.quads d (sl / 2 * 2)) (s.quads d (sl / 2 * 2 + 1)) && decide (modeRate m = s.laneRate d sl)
    && (match q with
      | 3 => decide (m = 4 ∧ p = 0 ∧ sl % 2 = 0)
      | 2 => false
      | 1 => decide (m ≠ 4 ∧ p % n = 0 ∧ p + n ≤ 8) && !meets && decide (rate ≤ 400)
      | _ => decide (m ≠ 4 ∧ p % n = 0 ∧ p + n ≤ 4) && !meets && decide (rate ≤ 400))

/-- A write of MAC_PORT_CFG: stored by its classes; one that leaves EN = 1 and breaks a rule reads 0 in EN and logs BAD_MODE (R260, R262, R263,
R290). The time at which EN clears is kept for a frame in reception (R266). -/
def State.portWrite (s : State) (d i : Nat) (v : Word) : State :=
  if !s.domIsOn (domPair d (i / 16)) then s.domDeny
  else
    let was := s.portEn d i
    let s := s.writeReg (aPort d i) v
    let s := if s.portEn d i && !s.portOk d i then (s.setRb (aPort d i) 31 false).err (macPage d (i / 8)) 0 3 (aPort d i % 4096) 0 else s
    if was && !s.portEn d i then { s with portOff := tPut s.portOff (2 * (64 * d + i)) s.now } else s

/-- PORT_ENABLE (R260, R263, R266). -/
def execPortEnable (port : PortId) (value : Word) (s : State) : Host.Outcome State Fault Refusal :=
  .next (s.portWrite (port.val / 64) (port.val % 64) value)

/-- LINK_UP (R262) and LINK_LOSS (R266): a frame in reception ends with the link. -/
def execLinkUp (port : PortId) (s : State) : Host.Outcome State Fault Refusal := .next { s with links := tPut s.links port.val () }
def execLinkLoss (port : PortId) (s : State) : Host.Outcome State Fault Refusal := 
  .next { s with links := tDel s.links port.val, portOff := tPut s.portOff (2 * port.val + 1) s.now }

/-- Port context `i` is enabled and uses lanes of quad `q` (R259, R260). -/
def State.usesQuad (s : State) (d q i : Nat) : Bool :=
  let sl := i / 8
  let n := max 1 (modeLanes (s.rf (aPort d i) 27 24))
  let own := decide (q = sl) && decide (i % 8 < 4)
  let other := decide (q / 2 = sl / 2 ∧ q ≠ sl) && decide (4 < i % 8 + n ∨ 4 ≤ i % 8)
  s.portEn d i && decide (q / 2 = sl / 2) && (decide (s.quads d sl = 3) || own || (decide (s.quads d sl = 1) && other))

/-- The links of the ports that use a quad of a pair are lost. -/
def State.quadsDown (s : State) (k : Nat) : State :=
  let d := k / 4
  let l := (List.range 64).filter fun i => s.usesQuad d (k % 4 * 2) i || s.usesQuad d (k % 4 * 2 + 1) i
  l.foldl (fun s i => { s with links := tDel s.links (64 * d + i), portOff := tPut s.portOff (2 * (64 * d + i) + 1) s.now }) s

/-- A missing SDS_REFCLK takes the links of its quad pair down, as class 3; a missing PCIE_REFCLK takes the PCIe link down, which no register
shows but CLK_STAT (R494, log entry 230). -/
def State.sdsLoss (s : State) (k : Nat) : State :=
  let a := ra (mPage 2) 0x100
  (((s.setRb a (22 + k) false).setRb a k false).quadsDown k).err (mPage 2) 3 0x0F (22 + k) 0
def State.pcieClkLoss (s : State) : State := s.setRb (ra (mPage 2) 0x100) 30 false

/-- The port can carry frames: enabled, link up, and its lanes are its slice's as the pair's QUADS and LANE_RATE now stand: a LENT slice has no
ports (R259). -/
def State.portUp (s : State) (d i : Nat) : Bool := s.portEn d i && (tFind s.links (64 * d + i)).isSome && s.portOk d i

/-- The tick at which a frame of `n` bytes began whose last byte arrives now: its first preamble bit, `n` + 12 bytes ago at the port's
nominal rate. No rule says which bit is a frame's start: DESIGN CHOICE (log entry 200). -/
def State.frameStart (s : State) (d i n : Nat) : Nat := s.now - s.bitTicks d i (8 * (n + 12))

/-- EN of a port was cleared (`k` = 0), or its link was lost (`k` = 1), after tick `t` (R266). -/
def State.offSince (s : State) (d i k t : Nat) : Bool := (tFind s.portOff (2 * (64 * d + i) + k)).any fun x => decide (t < x)

/-! ## PFC (R265) -/

/-- A received PFC frame: each enabled priority is paused for its quanta of 512 bit times, or resumed by 0. -/
def State.pfcApply (s : State) (d i enable : Nat) (quanta : List Nat) : State :=
  (List.range 8).foldl (fun s k =>
    let key := (64 * d + i) * 8 + k
    if !enable.testBit k then s
    else if quanta.getD k 0 = 0 then { s with pauses := tDel s.pauses key }
    else { s with pauses := tPut s.pauses key (s.now + s.bitTicks d i (512 * quanta.getD k 0)) }) s

/-- PFC_FRAME_RECEIVE (R265): the frame is consumed and honoured. -/
def State.pfcReceive (s : State) (d i enable quanta : Nat) : State :=
  if s.portUp d i && s.sliceUp d (i / 8) then s.pfcApply d i enable ((List.range 8).map fun k => quanta / 2 ^ (16 * k) % 65536) else s
def execPfcFrameReceive (port : PortId) (enable : BitVec 8) (quanta : BitVec 128) (s : State) : Host.Outcome State Fault Refusal :=
  .next (s.pfcReceive (port.val / 64) (port.val % 64) enable.toNat quanta.toNat)

/-- PFC_PAUSE_EXPIRY (R265). -/
def State.pauseExpire (s : State) (port pri : Nat) : State :=
  match tFind s.pauses (port * 8 + pri) with
  | some t => { s.upTo t with pauses := tDel s.pauses (port * 8 + pri) }
  | none => s
def execPfcPauseExpiry (port : PortId) (pri : Fin 8) (s : State) : Host.Outcome State Fault Refusal := .next (s.pauseExpire port.val pri.val)

/-! ## Timestamps (R267, R290) -/

/-- The timebase count `n` bit times before now at a port's nominal rate, and the parts of a ns in which it is given: exact, since the time lies
between two ticks. -/
def State.bitsAgo (s : State) (d i n : Nat) : Nat × Nat :=
  let g := modeGbps (s.rf (aPort d i) 27 24)
  let k := s.now - s.bitTicks d i n
  if g = 0 then (s.fineAt k, 24 * tbUnit)
  else (s.fineAt k * g + (s.bitTicks d i n * g - 24 * n) * (s.fineAt (k + 1) - s.fineAt k), 24 * tbUnit * g)

/-- A timestamp, in ns, of the event at the timebase count `t`, of which `u` are a ns, within ±2 ns of it (R267); `adj` is the port's signed
correction. -/
def State.stamp (s : State) (t u : Nat) (adj : Int) : Nat :=
  let e : Int := if t % u = 0 then (Config.stampError s.draw % 5 : Nat) - 2 else (Config.stampError s.draw % 4 : Nat) - 1
  ((((t / u : Nat) : Int) + adj + e) % (2 ^ 64 : Nat)).toNat

/-- The word of MAC_TS_INFO, and the state with the entry removed. -/
def State.tsRead (s : State) (d sl : Nat) : Word × State :=
  match tGet (fun _ => []) (s.pd d).tsFifo sl with
  | [] => (0, s)
  | (tag, ctx, t) :: r =>
    let s := s.modPd d fun x => { x with tsFifo := tSet (fun _ => []) x.tsFifo sl r }
    (nw (2 ^ 31 + tag * 2 ^ 16 + ctx), s.setPair (ra (macPage d sl) 0x144) t)

/-- MAC_TS_INFO_READ (R290): the head of the timestamp FIFO is removed. -/
def execMacTsInfoRead (d : PDie) (sl : Slice) (s : State) : Host.Outcome State Fault Refusal :=
  if s.domIsOn (domPair d.val (sl.val / 2)) then .next ((s.tsRead d.val sl.val).2.emit (.data (s.tsRead d.val sl.val).1))
  else .next (s.emit (.data 0))

/-- A write of PRS_CTRL: a change of ROLE also sets MALFORMED_ACT to the role's default (R275, R292), in the shadow and in the active copy at
once: the field is class G, the two rules do not say in which copy it is set, and ROLE itself acts at once. DESIGN CHOICE (log entry 197). -/
def State.prsWrite (s : State) (d sl : Nat) (v : Word) : State :=
  let a := ra (prsPage d sl) 0x100
  if !s.domIsOn (domPair d (sl / 2)) then s.domDeny
  else
    let was := s.rb a 31
    let s := s.writeReg a v
    if s.rb a 31 = was then s
    else
      let s := s.setRb a 27 was
      { s with act := tSet regReset s.act a (setBit (tGet regReset s.act a) 27 was) }

/-- PRS_ROLE_WRITE (R275). -/
def execPrsRoleWrite (d : PDie) (sl : Slice) (value : Word) (s : State) : Host.Outcome State Fault Refusal :=
  .next (s.prsWrite d.val sl.val value)

/-! ## Token buckets (R388, R390) -/

/-- Credit a bucket at timebase `t`: the rate is in 1/256 coin per µs, the cap in coins. Answers whether the cap cut the credit. -/
def bucketCredit (rate burst t : Nat) (b : Bucket) : Bool × Bucket :=
  let cap : Int := burst * 65536
  if b.last < t then
    let full := b.bal + (rate * 256 * (t - b.last) / 1000 : Nat)
    (decide (cap < full), { b with bal := min cap full, last := t })
  else (false, { b with last := t })

/-- Charge a bucket. -/
def bucketCharge (l : Nat) (b : Bucket) : Bucket := { b with bal := b.bal - (l * 65536 : Nat) }

/-! ## Punts (R287, R288, R365, R366, R550) -/

/-- A punt policer's bucket; its balance at reset is its burst. -/
def punterFresh : Bucket := { Bucket.fresh with bal := 0x4000 * 65536 }
def State.punter (s : State) (d n : Nat) : Bucket := tGet (fun _ => punterFresh) s.punters (d * 32 + n)

/-- Police a punt of cause `n`: RATE and BURST of the frame's generation. -/
def State.punterPass (s : State) (d n g l : Nat) : Bool × State :=
  let b := (bucketCredit (256 * s.gf g (aCls d (0x400 + 8 * n)) 23 0) (s.gf g (aCls d (0x404 + 8 * n)) 23 0) s.tb (s.punter d n)).2
  let put := fun (b : Bucket) => { s with punters := tSet (fun _ => punterFresh) s.punters (d * 32 + n) b }
  if 0 ≤ b.bal then (true, (put (bucketCharge l b)).bump (aCls d (0x600 + 8 * n)))
  else (false, (put b).bump (aCls d (0x604 + 8 * n)))

/-- The registers of a DMA page; its DEST. -/
def aDma (q off : Nat) : Nat := ra (dmaPage q) off
def State.dmaDest (s : State) (q : Nat) : Bool := s.rb (aDma q 0x100) 31

/-- The queue pair of a cause (R550). -/
def State.puntPair (s : State) (g n : Nat) : Nat := s.gf g (ra (mPage 5) (0x100 + 4 * (n / 8))) (4 * (n % 8) + 3) (4 * (n % 8))

/-- Every buffer of a chain is charged to account `a`. -/
def State.recharge (s : State) (d h a : Nat) : State :=
  (s.chainOf d h).foldl (fun s c =>
    match s.buf? d c with
    | none => s
    | some b =>
      let s := ((s.discharge d b.acct).charge d a).putBuf d c { b with acct := a }
      (s.relevel d (s.acctPool d b.acct)).relevel d (s.acctPool d a)) s

/-- The account of a queue pair's punts: its cluster's, or the host's. -/
def State.puntAcct (s : State) (q : Nat) : Nat := if s.dmaDest q then 72 + s.rf (aDma q 0x100) 28 23 else 136

/-- A queue pair takes punts: it is RUNNING, and PERST_N is high where it serves the host (R550). -/
def State.pairOpen (s : State) (q : Nat) : Bool := decide (s.pgState (dmaPage q) = 2) && (!s.perst || s.dmaDest q)

/-- A punt that has passed its policer reaches its queue pair, or is dropped in PUNT_OFF. -/
def State.puntHand (s : State) (d : Nat) (p : Pkt) (cause : Nat) (copy : Bool) : State :=
  let q := s.puntPair p.gen cause
  if !s.pairOpen q then (s.freeFrame d p.handle).bump (aDma q 0x15C)
  else
    let tag := if s.dmaDest q then engine d 2 0 else engine 2 0 q
    let s := (s.retagFrame d p.handle tag).recharge d p.handle (s.puntAcct q)
    { s with punts := tUpd (fun _ => []) s.punts q (· ++ [{ pkt := p, cause := cause, copy := copy }]) }

/-- A punt: a poisoned frame is dropped as BUF_UE (R375); the policer of its cause decides (R288). -/
def State.punt (s : State) (d : Nat) (p : Pkt) (cause : Nat) (copy : Bool) : State :=
  if s.framePoison d p.handle then (s.freeFrame d p.handle).bpmCnt d 0x134
  else
    match s.punterPass d cause p.gen (p.len + 4) with
    | (true, s) => s.puntHand d p cause copy
    | (false, s) => s.freeFrame d p.handle

/-- A frame whose generation was retired is dropped at its next stage (R412). -/
def State.dropStale (s : State) (d : Nat) (p : Pkt) : State := (s.freeFrame d p.handle).bump aGenStale

end Sys2Proof.Machine
end

