-- ==== Sys2Proof/Machine/Ingress.lean ====
section
/-! DEFINITION. Ingress: reception, parsing, decryption, the fixed ingress time, fragments, classification and the hold (R19 to R24,
R264 to R286, R296 to R301, R312, R344 to R350, R370). -/

namespace Sys2Proof.Machine

/-! ## Decryption (R344) -/

/-- A drop of the ingress (`dir` 1) or egress half of a slice's engine: counted at offset `off` of the CPH page, and recorded (R356, R358). -/
def State.cphDrop (s : State) (d sl dir off i : Nat) : State :=
  let pg := slicePage d sl 2
  ((s.bump (ra pg off)).hwMark (ra pg 0x104) (maskOf 31 31)).setReg (ra pg 0x104) (nw (2 ^ 31 + dir * 2 ^ 30 + (off - 0x110) / 4 * 2 ^ 25 + i))

/-- A drop counted in the SAT page (R324): offset 0x150 SA_WRONG_HOME, 0x154 SA_MISS, 0x158 SA_UE. CPH_LAST_DROP records it with the SA index as
every drop (R24, R356); R358's CAUSE has no code for the three, so it is a free value: DESIGN CHOICE (log entry 202). -/
def State.satDrop (s : State) (d sl dir off i : Nat) : State :=
  ((s.bump (ra (satPage d) off)).hwMark (ra (slicePage d sl 2) 0x104) (maskOf 31 31)).setReg (ra (slicePage d sl 2) 0x104)
    (nw (2 ^ 31 + dir * 2 ^ 30 + Config.satCause off % 32 * 2 ^ 25 + i))

/-- The record of SA index `i` for the ingress (`dir` 1) or egress half of a slice's engine (R324): the words, or none where a row drops the
frame. -/
def State.saFetch (s : State) (d sl dir i : Nat) : Option (List Nat) × State :=
  if i / 2 ^ 19 ≠ d then (none, s.satDrop d sl dir 0x150 i)
  else
    match s.saSeen d i with
    | (_, true, s) => (none, s.satDrop d sl dir 0x158 i)
    | (r, false, s) => if (saW r 0).testBit 31 then (some r, s) else (none, s.satDrop d sl dir 0x154 i)

/-- VLT_STAT.ZEROIZING of a P-die. -/
def State.vltZeroing (s : State) (d : Nat) : Bool := s.rb (ra (vltPage d) 0x104) 31

/-- The slot of a record is valid and of the suite's length (R352), and no zeroization is in progress (R353): what it holds. -/
def State.saSlotKey (s : State) (d : Nat) (r : List Nat) : Option (List Byte) :=
  match (s.vltSeen (vltKey d (saSlot r))).1 with
  | some k => if k.length = suiteKey (saSuite r) ∧ !s.vltZeroing d then some k else none
  | none => none

/-- A Vault slot has an uncorrectable error. -/
def State.vltUe (s : State) (d : Nat) (r : List Nat) : Bool := flawUe (s.vltSeen (vltKey d (saSlot r))).2

/-- The key of a record: its slot holds one, and is read without an uncorrectable error (R352, R353). -/
def State.saKey (s : State) (d : Nat) (r : List Nat) : Option (List Byte) := if s.vltUe d r then none else s.saSlotKey d r

/-- A frame without a key is dropped: KEY_EMPTY, or VAULT_UE, which is logged as class 2 with the slot number in the VLT page (R352). -/
def State.keyDrop (s : State) (d sl dir x : Nat) (r : List Nat) : State :=
  match s.saSlotKey d r, (s.vltSeen (vltKey d (saSlot r))).2 with
  | some _, some f => (s.flawRead (vltPage d) f (saSlot r)).cphDrop d sl dir 0x12C x
  | _, _ => s.cphDrop d sl dir 0x128 x

/-- A key that is used although a bit of its slot had to be corrected: the correctable error is logged in the VLT page (R449). -/
def State.keyCe (s : State) (d : Nat) (r : List Nat) : State :=
  match (s.vltSeen (vltKey d (saSlot r))).2 with
  | some f => if f.ue then s else s.flawRead (vltPage d) f (32 * saSlot r + 8 * f.word)
  | none => s

/-- CLS_FT_PORT_CFG of a port context, in a generation. -/
def aPortCfg (d i : Nat) : Nat := aCls d (0x300 + 4 * i)
def State.portScope (s : State) (g d i : Nat) : Nat := s.gf g (aPortCfg d i) 7 0

/-- Step 1: the SA index (R24, R297, R298). -/
def State.saIndex (s : State) (d i g : Nat) (b : List Byte) (p : Parse) : Option Nat × State :=
  if p.last = 15 then (some (beAt b p.esp 4 % 2 ^ 20), s)
  else
    match s.ftLook d false (sciKey (s.portScope g d i) (frameSci b p.sec)) with
    | (some e, _, s) => (some (e.getD 13 0 / 4 % 2 ^ 18 * 4 + beAt b (p.sec + 2) 1 % 4), s)
    | (none, ue, s) => (none, s.ftMissUe d ue)

/-- A frame that has been verified (steps 9 to 12): the record is updated, the trailer checked, fillers dropped, headers removed.
Answers the frame, or none where it is dropped. -/
def State.decFinish (s : State) (d sl i g : Nat) (r : List Nat) (pn : Nat) (b : List Byte) (p : Parse) (pt : List Byte) :
    Option (List Byte) × State :=
  let oct := if p.last = 15 then (espData pt).length else pt.length
  let s := (s.saUpdate d i (pnUpdate r pn oct) (saQ (pnUpdate r pn oct) 8)).bump (ra (slicePage d sl 2) 0x114)
  let tr := if p.last = 15 then trailerCheck r pt else 0
  if tr ≠ 0 then (none, s.cphDrop d sl 1 tr i)
  else if isDummy p pt (s.gf g (ra (slicePage d sl 2) 0x100) 15 0) then (none, s.cphDrop d sl 1 0x144 i)
  else (some (stripFrame r b p pt), s)

/-- The ingress half (R344): the SA index and the frame that the engine produces, or none where a step drops the frame. -/
def State.decrypt (s : State) (d sl i g : Nat) (b : List Byte) (p : Parse) : Option (Nat × List Byte) × State :=
  match s.saIndex d i g b p with
  | (none, s) => (none, s.cphDrop d sl 1 0x118 0)
  | (some x, s) =>
    match s.saFetch d sl 1 x with
    | (none, s) => (none, s)
    | (some r, s) =>
      let tci := beAt b (p.sec + 2) 1
      let esp := decide (p.last = 15)
      if !(saW r 0).testBit 30 || suiteEsp (saSuite r) != esp || (!esp && !(tci.testBit 3 && tci.testBit 2)) then (none, s.cphDrop d sl 1 0x11C x)
      else if (if esp then decide (beAt b p.esp 4 ≠ saW r 1) else decide (frameSci b p.sec ≠ saBytes r 2 2)) then (none, s.cphDrop d sl 1 0x120 x)
      else if saState r = 2 then (none, s.cphDrop d sl 1 0x124 x)
      else
        match s.saKey d r with
        | none => (none, s.keyDrop d sl 1 x r)
        | some key =>
          let s := s.keyCe d r
          match pnRecover r (framePn b p) with
          | none => (none, (s.saEngine d x (saCountReplay r)).cphDrop d sl 1 0x134 x)
          | some pn =>
            let c := pnCheck r pn
            if c ≠ 0 then (none, (s.saEngine d x (saCountReplay r)).cphDrop d sl 1 c x)
            else
              match openFrame r key b p pn with
              | none => (none, (s.saEngine d x (saCountAuth r)).cphDrop d sl 1 0x138 x)
              | some pt =>
                match s.decFinish d sl x g r pn b p pt with
                | (some out, s) => (some (x, out), s)
                | (none, s) => (none, s)

/-! ## The pass of a slice -/

/-- A frame that failed a parse (R275): dropped or punted. -/
def State.malformed (s : State) (d sl : Nat) (k : Pkt) (bad : Nat) : State :=
  let s := s.bump (ra (prsPage d sl) (match bad with | 1 => 0x110 | 2 => 0x114 | _ => 0x118))
  if s.gb k.gen (ra (prsPage d sl) 0x100) 27 then s.punt d k (if bad = 2 then 3 else 2) false else s.freeFrame d k.handle

/-- The punt cause of R276 for the last header of a stack, if one applies. -/
def State.keyPunt (s : State) (d sl g last : Nat) : Option Nat :=
  let a := ra (prsPage d sl) 0x100
  if (last = 16 ∨ last = 17) ∧ s.gb g a 26 then some 7 else if last = 18 ∧ s.gb g a 25 then some 8 else none

/-- The cipher engine of a slice takes a frame with this last header (R277). -/
def State.engineTakes (s : State) (d sl last : Nat) : Bool :=
  if s.sliceBlack d sl then decide (last = 15 ∨ last = 4) else decide (last = 4) && s.rb (ra (prsPage d sl) 0x100) 30

/-- FRG_CTRL.ATOMIC_BYPASS = 0: an IPv6 atomic fragment is a first fragment (R281). -/
def State.atomicFirst (s : State) (d g : Nat) : Bool := !s.gb g (ra (pdPage d 1) 0x100) 31

/-- A stored frame passes the parser and the cipher stage of slice `sl` (R272 to R278): the frame as it goes on, or none where it
has been dropped or punted. -/
def State.slicePass (s : State) (d sl : Nat) (k : Pkt) (b : List Byte) : Option Pkt × State :=
  let i := k.port % 64
  let finish := fun (s : State) (k : Pkt) (b : List Byte) (p : Parse) =>
    if p.bad ≠ 0 then ((none : Option Pkt), s.malformed d sl k p.bad)
    else
      match s.keyPunt d sl k.gen p.last with
      | some c => (none, s.punt d k c false)
      | none =>
        let first := decide (p.frag = 1) || (decide (p.frag = 3) && s.atomicFirst d k.gen)
        let later := decide (p.frag = 2)
        (some { k with len := b.length, stack := p.stack, first := first, later := later, fkey := if first || later then fragKey b p else [] }, s)
  let p := parseFrame b (s.sliceBlack d sl) (s.atomicFirst d k.gen)
  if p.bad = 0 && s.engineTakes d sl p.last then
    match s.decrypt d sl i k.gen b p with
    | (none, s) => (none, s.freeFrame d k.handle)
    | (some (x, out), s) =>
      let s := (s.rewriteFrame d k.handle out).bump (ra (prsPage d sl) 0x120)
      finish (s.capture 1 d i out) { k with decrypted := true, sa := x, len := out.length } out (parseFrame out false (s.atomicFirst d k.gen))
  else finish s k b p

/-! ## FRAME_RECEIVE (R264, R20, R267) -/

/-- An IEEE 802.3 MAC control frame with an opcode: 1 PAUSE, 0x0101 PFC. -/
def isControl (b : List Byte) (op : Nat) : Bool := decide (beAt b 12 2 = 0x8808) && decide (beAt b 14 2 = op)

/-- The MAC's drops of a frame that has arrived (R264): the counter, if one applies. -/
def State.macDrop (s : State) (d i : Nat) (b : List Byte) (fcsOk : Bool) : Option Nat :=
  if !fcsOk then some 0
  else if b.length + 4 < 64 then some 1
  else if s.rf (aPort d i) 13 0 < b.length + 4 then some 2
  else if isControl b 1 then some 3
  else none

/-- The slice whose parser takes a frame of port context `i`: for a JOINT port the one that has received fewer bytes (R263). -/
def State.rxSlice (s : State) (d i n : Nat) : Nat × State :=
  if s.quads d (i / 8) = 3 then
    let m := i / 16
    let c := tGet (fun _ => (0, 0)) (s.pd d).jrx m
    let put := fun v => s.modPd d fun x => { x with jrx := tSet (fun _ => (0, 0)) x.jrx m v }
    if c.1 ≤ c.2 then (2 * m, put (c.1 + n, c.2)) else (2 * m + 1, put (c.1, c.2 + n))
  else (i / 8, s)

/-- The generation stamp of a frame of `n` bytes whose last byte arrives now: that of its start, which is its first preamble bit at the port's
nominal rate (R20; DESIGN CHOICE, log entry 200). -/
def State.stampGen (s : State) (d i n : Nat) : Nat := if s.frameStart d i n < s.clearAt ∧ s.oldLive then (s.gen + 3) % 4 else s.gen

/-- A frame that the MAC accepts is stored and passes its slice, to leave it T_ING after its last byte (R270). -/
def State.frameIn (s : State) (d i : Nat) (b : List Byte) : State :=
  let r := s.rxSlice d i b.length
  let sl := r.1
  let s := r.2
  let g := s.stampGen d i b.length
  let t := s.bitsAgo d i (8 * (b.length + 4))
  let rx := s.stamp t.1 t.2 (toSigned 16 (s.rf (ra (macPage d (i / 8)) (0x160 + 4 * (i % 8))) 31 16))
  match s.drawn.storeFrame d i (engine d 0 sl) b with
  | (none, s) => s
  | (some h, s) =>
    let k : Pkt := { gen := g, pass := 0, decrypted := false, first := false, later := false, stale := false, black := s.sliceBlack d sl,
                     port := 64 * d + i, slice := sl, len := b.length, rxts := rx, ts := s.tb, handle := h, policy := 0, sa := 0, queue := 0,
                     stack := [], fkey := [], tier := 0, fsa := 0, due := s.now + 1152 * fabricTicks }
    match s.slicePass d sl k b with
    | (none, s) => s
    | (some k, s) => s.modPd d fun x => { x with ingress := tUpd (fun _ => []) x.ingress sl (· ++ [k]) }

/-- A frame reaches a port's MAC; one that reaches no running port is lost. A frame in reception when EN clears is received whole, and one during
which the link was lost ends as an FCS error (R266). -/
def State.frameReceive (s : State) (port : Nat) (b : List Byte) (fcsOk : Bool) : State :=
  let d := port / 64
  let i := port % 64
  let t := s.frameStart d i b.length
  let en := s.portEn d i || s.offSince d i 0 t
  let lost := s.offSince d i 1 t
  if !en || !((tFind s.links port).isSome || lost) || !s.portOk d i || !s.sliceUp d (i / 8) then s
  else
    match s.macDrop d i b (fcsOk && !lost) with
    | some k => s.macCnt d i k
    | none =>
      if isControl b 0x0101 then s.pfcApply d i (beAt b 16 2) ((List.range 8).map fun k => beAt b (18 + 2 * k) 2)
      else (s.capture 0 d i b).frameIn d i b

/-- FRAME_RECEIVE (R264). -/
def execFrameReceive (port : PortId) (bytes : List Byte) (fcsOk : Bool) (s : State) : Host.Outcome State Fault Refusal :=
  .next (s.frameReceive port.val bytes fcsOk)

/-! ## Fragments (R279 to R281) -/

/-- The fragment table entries of a key's set, and the way that holds the key. -/
def fragSetOf (key : List Byte) : Nat := Config.fragSet key % 16384
def State.fragWay (s : State) (d : Nat) (key : List Byte) : Option (Nat × Frag) :=
  (List.range 4).findSome? fun w =>
    match tFind (s.pd d).frags (fragSetOf key * 4 + w) with
    | some f => if f.key = key ∧ !flawUe f.flaw then some (fragSetOf key * 4 + w, f) else none
    | none => none

/-- Put an entry of the fragment table. -/
def State.putFrag (s : State) (d i : Nat) (f : Frag) : State := s.modPd d fun x => { x with frags := tPut x.frags i f }

/-- A register of the FRG page. -/
def aFrg (d off : Nat) : Nat := ra (pdPage d 1) off

/-- The set of a key is read: an entry with an uncorrectable error is treated as absent, and its way is free (R448). -/
def State.fragScan (s : State) (d : Nat) (key : List Byte) : State :=
  (List.range 4).foldl (fun s w =>
    let i := fragSetOf key * 4 + w
    match tFind (s.pd d).frags i with
    | none => s
    | some e =>
      match e.flaw with
      | none => s
      | some f =>
        let s := s.flawRead (pdPage d 1) f (64 * i + 8 * f.word)
        if f.ue then s.modPd d fun x => { x with frags := tDel x.frags i } else s) s

/-- A first fragment at the fragment check: an entry that awaits its result, unless it has one or the set is full. -/
def State.fragOpen (s : State) (d : Nat) (k : Pkt) : Pkt × State :=
  match s.fragWay d k.fkey with
  | some (i, f) => (k, s.putFrag d i { f with used := s.now })
  | none =>
    match (List.range 4).find? fun w => (tFind (s.pd d).frags (fragSetOf k.fkey * 4 + w)).isNone with
    | some w => (k, s.putFrag d (fragSetOf k.fkey * 4 + w) { key := k.fkey, result := none, used := s.now, flaw := none })
    | none => ({ k with fkey := [] }, s.bump (aFrg d 0x110))

/-- A first fragment's result is written (R279): (0 forward, policy, SA index, queue), (1 punt, cause), (2 drop). -/
def State.fragResult (s : State) (d : Nat) (k : Pkt) (r : Nat × Nat × Nat × Nat) : State :=
  if !k.first || k.fkey = [] then s
  else
    match s.fragWay d k.fkey with
    | some (i, f) => s.putFrag d i { f with result := some r, used := s.now }
    | none => s

/-! ## Classification (R296, R301, R312) -/

/-- The result of an entry in a descriptor; a DECRYPTED frame keeps the SA that verified it (R282), beside that of the Flow Table. -/
def Pkt.take (k : Pkt) (policy sa queue : Nat) : Pkt :=
  { k with policy := policy, sa := if k.decrypted then k.sa else sa, fsa := sa, queue := queue }

/-- The tick at which a record that enters the classifier hold leaves it (R21, R66). -/
def State.holdEnd (s : State) : Nat := s.now + 2304 * fabricTicks

/-- A record enters the classifier hold. -/
def State.enterHold (s : State) (d : Nat) (k : Pkt) (tier : Nat) : State :=
  s.modPd d fun x => { x with hold := x.hold ++ [{ k with tier := tier, due := s.holdEnd }] }

/-- A punt by the classifier, with the verdict for a first fragment's peers. -/
def State.classPunt (s : State) (d : Nat) (k : Pkt) (cause : Nat) : State :=
  let s := s.fragResult d k (1, cause, 0, 0)
  let s := if cause = 0 then s.bump (aCls d 0x15C) else if cause = 1 then s.bump (aCls d 0x154) else s
  s.punt d k cause false

/-- The destination key (R296, R297). -/
def destKey (scope : Nat) (l2 : Bool) (b : List Byte) (p : Parse) : List Nat :=
  let w1 := scope * 2 ^ 24 + p.proto * 2 ^ 16 + p.vid.getD 0
  let ports := if p.l4 ≠ 0 then beAt b p.l4 4 else 0
  if l2 ∨ p.ver = 0 then l2Key scope (p.vid.getD 0) (bytesAt b 0 6)
  else if p.ver = 4 then mkKey 2 [w1, beAt b (p.l3 + 12) 4, beAt b (p.l3 + 16) 4, ports]
  else mkKey 3 ((w1 :: (List.range 8).map fun j => beAt b (p.l3 + 8 + 4 * j) 4) ++ [ports])

/-- The source lookup of a learning port (R312). -/
def State.sourceLookup (s : State) (d i : Nat) (k : Pkt) (b : List Byte) (p : Parse) : State :=
  if !s.gb k.gen (aPortCfg d i) 31 then s
  else
    let key := l2Key (s.portScope k.gen d i) (p.vid.getD 0) (bytesAt b 6 6)
    let sa := if k.decrypted then k.sa else s.gf k.gen (aLrn d (0x600 + 4 * k.port)) 19 0
    let ev : Learn := { key := (key.drop 1).take 3, port := k.port, sa := sa, ts := k.ts, at_ := s.now, slice := k.slice, cmd := none }
    match s.ftLook d false key with
    | (some e, _, s) =>
      if entPort e = k.port ∧ entSa e = sa then s
      else if entStatic e then s.bump (aLrn d 0x10C)
      else s.learnEvent d ev
    | (none, ue, s) => (s.ftMissUe d ue).learnEvent d ev

/-- A contended entry under MOVE_POLICY PUNT of the frame's generation: destination lookups that hit it count as misses (R20, R317). -/
def State.contendedMiss (s : State) (d : Nat) (k : Pkt) (e : List Nat) : Bool :=
  decide (entType e = 1) && (e.getD 0 0).testBit 27 && decide (s.gf k.gen (aLrn d 0x100) 31 30 = 2)

/-- CLASSIFY: the Flow Table's tiers are looked up, and the record is held: the hold of R21 applies in every case (R300, R301). -/
def State.classify (s : State) (d : Nat) (k : Pkt) : State :=
  let i := k.port % 64
  let b := (s.frameBytes d k.handle).1
  let p := parseFrame b false (s.atomicFirst d k.gen)
  let s := s.sourceLookup d i k b p
  let key := destKey (s.portScope k.gen d i) (s.gb k.gen (aPortCfg d i) 30) b p
  let hit := fun (k : Pkt) (e : List Nat) => k.take (e.getD 12 0 / 65536) (e.getD 13 0 % 2 ^ 20) (e.getD 12 0 % 2 ^ 15)
  match s.ftLook d false key with
  | (some e, _, s) =>
    if s.contendedMiss d k e then s.enterHold d k 3
    else (s.fragResult d k (0, e.getD 12 0 / 65536, e.getD 13 0 % 2 ^ 20, e.getD 12 0 % 2 ^ 15)).enterHold d (hit k e) 0
  | (none, ue, s) =>
    if s.ftDram d then
      match s.ftLook d true key with
      | (some e, _, s) => s.enterHold d (hit k e) 1
      | (none, ue', s) => (s.ftMissUe d (ue || ue')).enterHold d k 2
    else (s.ftMissUe d ue).enterHold d k 3

/-! ## The fragment check -/

/-- A result of the fragment table applied to a later fragment (R280). -/
def State.fragApply (s : State) (d : Nat) (k : Pkt) (r : Nat × Nat × Nat × Nat) : State :=
  match r with
  | (0, pol, sa, q) => s.enterHold d (k.take pol sa q) 0
  | (1, c, _, _) => s.punt d k c false
  | _ => s.freeFrame d k.handle

/-- The result that the table holds for a key. -/
def State.fragHas (s : State) (d : Nat) (key : List Byte) : Option (Nat × Nat × Nat × Nat) := (s.fragWay d key).bind fun e => e.2.result

/-- A later fragment is served, or waits, or is punted where the wait store is full. -/
def State.fragLater (s : State) (d : Nat) (k : Pkt) : State :=
  let touch := fun (s : State) => match s.fragWay d k.fkey with
    | some (i, f) => s.putFrag d i { f with used := s.now }
    | none => s
  match s.fragHas d k.fkey with
  | some r => (touch s).fragApply d k r
  | none =>
    if 2048 ≤ (s.pd d).fragWait.length then ((touch s).bump (aFrg d 0x114)).punt d k 4 false
    else (touch s).modPd d fun x => { x with fragWait := x.fragWait ++ [{ k with due := s.now + s.tbTicks 64000 }] }

/-- The fragment check, and classification. -/
def State.enterClass (s : State) (d : Nat) (k : Pkt) : State :=
  if k.stale then s.dropStale d k
  else if k.later then (s.fragScan d k.fkey).fragLater d k
  else if k.first then
    let r := (s.fragScan d k.fkey).fragOpen d k
    r.2.classify d r.1
  else s.classify d k

/-! ## INGRESS_RELEASE, the hold queue (R48, R270, R370) -/

/-- Frames of a port are held: its pool is at HOLD, or the pool of account 137 is and frames of the port wait there, or the ready queue holds more than 3,584 records, one of them of the port. -/
def State.held (s : State) (d i : Nat) : Bool :=
  s.poolHeld d i || (s.poolHeld d 137 && s.waitsCross d i) || (decide (3584 < (s.pd d).ready.length) && (s.pd d).ready.any fun k => decide (k.port % 64 = i))

/-- The oldest frame of a slice leaves T_ING after its last byte. -/
def State.releaseHead (s : State) (d sl : Nat) : State :=
  match tGet (fun _ => []) (s.pd d).ingress sl with
  | [] => s
  | k :: r =>
    let s := (s.upTo k.due).modPd d fun x => { x with ingress := tSet (fun _ => []) x.ingress sl r }
    if k.stale then s.dropStale d k
    else if s.held d (k.port % 64) || (s.pd d).holdq.any fun h => decide (h.port = k.port) then
      if 16384 ≤ (s.pd d).holdq.length then (s.freeFrame d k.handle).bpmCnt d 0x12C
      else s.modPd d fun x => { x with holdq := x.holdq ++ [k] }
    else s.enterClass d k

/-- The fabric cycle in which the oldest frame of a slice leaves. -/
def State.releaseFab (s : State) (d sl : Nat) : Option Nat := ((tGet (fun _ => []) (s.pd d).ingress sl).head?).map fun k => k.due / fabricTicks

/-- INGRESS_RELEASE: the oldest frame of the slice leaves, behind those of the lower slices that leave in the same fabric cycle (R281). -/
def State.ingressRelease (s : State) (d sl : Nat) : State :=
  let f := s.releaseFab d sl
  (((List.range sl).filter fun i => decide (f ≠ none ∧ s.releaseFab d i = f)).foldl (fun s i => s.releaseHead d i) s).releaseHead d sl

/-- HOLD_QUEUE_RELEASE: the oldest frame in the hold queue whose port is not held. -/
def State.holdRelease (s : State) (d : Nat) : State :=
  match (List.range (s.pd d).holdq.length).find? fun j => match (s.pd d).holdq[j]? with
      | some k => !s.held d (k.port % 64)
      | none => false with
  | none => s
  | some j =>
    match (s.pd d).holdq[j]? with
    | none => s
    | some k => (s.modPd d fun x => { x with holdq := x.holdq.eraseIdx j }).enterClass d k

/-- FRAGMENT_WAIT_RELEASE: the oldest waiting fragment whose entry holds a result. -/
def State.fragRelease (s : State) (d : Nat) : State :=
  match (List.range (s.pd d).fragWait.length).find? fun j => match (s.pd d).fragWait[j]? with
      | some k => k.stale || (s.fragHas d k.fkey).isSome
      | none => false with
  | none => s
  | some j =>
    match (s.pd d).fragWait[j]? with
    | none => s
    | some k => (s.modPd d fun x => { x with fragWait := x.fragWait.eraseIdx j }).enterClass d k

/-- FRAG_ORPHAN: the oldest waiting fragment has waited 64 µs. -/
def State.fragOrphan (s : State) (d : Nat) : State :=
  match (s.pd d).fragWait with
  | [] => s
  | k :: r =>
    let s := (s.upTo k.due).modPd d fun x => { x with fragWait := r }
    if k.stale then s.dropStale d k else (s.bump (aFrg d 0x114)).punt d k 4 false

/-- FRAG_ENTRY_AGE: the entry unused for longest is freed AGE µs after its last use. -/
def State.fragAge (s : State) (d : Nat) : State :=
  match (s.pd d).frags with
  | [] => s
  | e :: r =>
    let f := r.foldl (fun (a : Nat × Frag) x => if x.2.used < a.2.used then x else a) e
    let age := max 1 (s.af (aFrg d 0x100) 15 0)
    (s.upTo (f.2.used + s.tbTicks (1000 * age))).modPd d fun x => { x with frags := tDel x.frags f.1 }

/-- CLASSIFIER_HOLD_END: the oldest record leaves the hold for the ready queue, or is punted on a late or missing DRAM-tier entry. -/
def State.classEnd (s : State) (d : Nat) (ftLate : Bool) : State :=
  match (s.pd d).hold with
  | [] => s
  | k :: r =>
    if 4096 ≤ (s.pd d).ready.length then s
    else
      let s := (s.upTo k.due).modPd d fun x => { x with hold := r }
      if k.stale then s.dropStale d k
      else if (k.tier = 1 ∨ k.tier = 2) ∧ ftLate then s.classPunt d k 1
      else if 2 ≤ k.tier then s.classPunt d k 0
      else
        let s := if k.tier = 1 then s.fragResult d k (0, k.policy, k.fsa, k.queue) else s
        s.modPd d fun x => { x with ready := x.ready ++ [k] }

/-- INGRESS_RELEASE (R270). -/
def execIngressRelease (d : PDie) (sl : Slice) (s : State) : Host.Outcome State Fault Refusal := .next (s.ingressRelease d.val sl.val)
/-- FRAGMENT_WAIT_RELEASE (R280). -/
def execFragmentWaitRelease (d : PDie) (s : State) : Host.Outcome State Fault Refusal := .next (s.fragRelease d.val)
/-- FRAG_ORPHAN (R280). -/
def execFragOrphan (d : PDie) (s : State) : Host.Outcome State Fault Refusal := .next (s.fragOrphan d.val)
/-- FRAG_ENTRY_AGE (R281). -/
def execFragEntryAge (d : PDie) (s : State) : Host.Outcome State Fault Refusal := .next (s.fragAge d.val)
/-- CLASSIFIER_HOLD_END (R21). -/
def execClassifierHoldEnd (d : PDie) (ftLate : Bool) (s : State) : Host.Outcome State Fault Refusal := .next (s.classEnd d.val ftLate)
/-- HOLD_QUEUE_RELEASE (R370). -/
def execHoldQueueRelease (d : PDie) (s : State) : Host.Outcome State Fault Refusal := .next (s.holdRelease d.val)

end Sys2Proof.Machine
end

