-- ==== Sys2Proof/Machine/Records.lean ====
section
/-! DEFINITION. Packet records: the dispatch calendar, delivery, and the return slot (R47 to R57, R74, R76, R282 to R284, R512). -/

namespace Sys2Proof.Machine

/-! ## The calendars -/

/-- T_RET (R54). -/
def State.tRet (s : State) : Nat := 168 + 8 * s.span

/-- The round table in use in core cycle `c` (R42). -/
def State.calTable (s : State) (c : Nat) : Nat := (c / 4096 - s.prof.start) % max 1 s.prof.img.cycle

/-- A cluster holds calendar slots: packet mode, live, not detached by a debugger (R49, R72, R78). -/
def State.cluServes (s : State) (c : Nat) : Bool :=
  let k := s.clu? c
  k.packet && decide (k.st = .live) && !k.detached

/-- The spare of a C-die that the profile names (R15). -/
def State.spareOf (s : State) (die : Nat) : Nat := s.prof.img.spares.getD die (16 * die + 15)

/-- The clusters of a C-die by survivor rank: ascending, the claimed spare last (R49). -/
def State.ranks (s : State) (die : Nat) : List Nat :=
  let l := (List.range 16).map (16 * die + ·)
  let last := fun c => decide (c = s.spareOf die) && (s.clu? c).claimed
  (l.filter fun c => s.cluServes c && !last c) ++ (l.filter fun c => s.cluServes c && last c)

/-- The cluster that an entry of a lane names, if any (R47, R49). -/
def State.entryClu (s : State) (lane e : Nat) : Option Nat :=
  if e.testBit 13 then (s.ranks lane)[bitsOf e 12 9]? else some (16 * lane + bitsOf e 12 9)

/-- An entry of a calendar set: round table `j`, slot `slot`, for P-die `d`. -/
def calSlot (k : CalSet) (d j slot : Nat) : Nat := (tGet (fun _ => (0 : BitVec 16)) (k.dispatch.getD d []) (j * 16384 + slot)).toNat

/-- The thread and buffer that a slot of the composed calendar names: the lane's own entry, or an overflow entry of another C-die's
cross-die set, renamed where the lane's fallback set replaces its cluster (R76, R517). -/
def State.calEntry (s : State) (d j slot : Nat) : Option (Nat × Nat) :=
  let lane := slot % 4
  let place := fun (c e : Nat) => (64 * c + bitsOf e 8 3, bitsOf e 14 14)
  let own := match s.calSet lane with
    | some k => calSlot k d j slot
    | none => 0
  if own.testBit 15 then (s.entryClu lane own).map fun c => place c own
  else if (s.calSet lane).isNone then none
  else
    let across := (List.range 4).findSome? fun a =>
      if a ≠ lane ∧ (s.prof.sets.getD a (0, 0)).1 = 2 then
        match s.calSet a with
        | some k => if (calSlot k d j slot).testBit 15 then some (calSlot k d j slot) else none
        | none => none
      else none
    match across with
    | none => none
    | some e =>
      let c := 16 * lane + bitsOf e 12 9
      some (place (if s.prof.sets.getD lane (0, 0) = (1, c) then s.spareOf lane else c) e)

/-- The index of a die-to-die link in `State.repairs`. -/
def linkNo : Link → Nat
  | .cp c d => c.val * 2 + d.val
  | .cross => 8
  | .mdie k => 9 + k.val

/-- A link is in repair, or degraded for want of a redundant lane (R512). -/
def State.linkWeak (s : State) (l : Nat) : Bool := (tFind s.repairs l).isSome

/-- A buffer still holds a record of the set before, under the seam guard (R74). -/
def State.seamHolds (s : State) (d t b c : Nat) : Bool :=
  match (s.pd d).seamEnd with
  | none => false
  | some e =>
    decide (c < e) && s.flights.any fun f =>
      decide (f.thread = t ∧ f.buf = b ∧ f.dcyc + (s.tRet + 16) < e ∧ c < f.dcyc + s.tRet + 16)

/-! ## The record -/

/-- The descriptor (R282, R283). -/
def Pkt.descriptor (k : Pkt) : List Byte :=
  let w0 := k.gen * 2 ^ 30 + k.pass % 4 * 2 ^ 28 + b2n k.decrypted * 2 ^ 27 + b2n k.first * 2 ^ 26 + b2n k.later * 2 ^ 25
    + b2n k.black * 2 ^ 24 + k.port * 2 ^ 16 + k.len % 2 ^ 14
  let e := min 192 k.len
  let ws := [w0, k.policy * 2 ^ 16 + e * 2 ^ 8 + e, k.sa, k.queue % 2 ^ 15, k.rxts, k.rxts / 2 ^ 32, k.handle, 0]
  (ws.map (leBytes 4)).flatten ++ padTo 32 ((k.stack.map (leBytes 2)).flatten)

/-- The cell at which a read of the first `n` bytes of a chain meets an uncorrectable error first (R375). -/
def State.windowUe : Nat → State → Nat → Nat → Nat → Option Nat
  | 0, _, _, _, _ => none
  | k + 1, s, d, c, n =>
    if n = 0 then none
    else
      match s.link? d c with
      | none => if s.linkBad d c then some c else none
      | some b =>
        let m := min n b.cnt
        if 0 < m ∧ s.pktCode d c b.off m = 2 then some (s.pktUe d c b.off m)
        else match b.next with
          | some x => State.windowUe k s d x (n - m)
          | none => none

/-- The record of a frame, its header window read from the packet buffer; whether that read met an error, which poisons the frame (R284,
R375). -/
def State.makeRecord (s : State) (d : Nat) (k : Pkt) : List Byte × Bool × State :=
  let w := padTo 192 ((s.frameBytes d k.handle).1.take 192)
  let u := State.frameCes (s.bufs.length + 1) s d (hCell k.handle) 192
  match State.windowUe (s.bufs.length + 1) s d (hCell k.handle) 192 with
  | some c => (k.descriptor ++ w, true, (u.setPoison d k.handle true).bufUe d c)
  | none => (k.descriptor ++ w, false, u)

/-! ## DISPATCH -/

/-- The ready queue without the stale records at its head, which are dropped (R412). -/
def State.dropStaleHeads : List Pkt → State → Nat → List Pkt × State
  | [], s, _ => ([], s)
  | k :: r, s, d => if k.stale then State.dropStaleHeads r (s.dropStale d k) d else (k :: r, s)

/-- The oldest record of the ready queue goes to the buffer of a thread in core cycle `c`. -/
def State.sendRecord (s : State) (d slot c t b : Nat) : State :=
  let r := State.dropStaleHeads (s.pd d).ready s d
  match r.1 with
  | [] => r.2.modPd d fun x => { x with ready := [] }
  | k :: q =>
    let s := r.2.modPd d fun x => { x with ready := q }
    let m := s.makeRecord d k
    let live := (m.2.2.clu? (cluOf t)).packet && decide ((m.2.2.clu? (cluOf t)).st = .live)
    let f : Flight :=
      { die := d, thread := t, buf := b, dcyc := c, slot := slot, record := m.1, pkt := some k, delivered := false,
        cause := if live then 0 else 0x101, returned := none, late := false, pol := 0, ue := m.2.1 }
    { m.2.2 with flights := m.2.2.flights ++ [f] }

/-- DISPATCH: the slot comes up in the next core cycle of the round that it names. -/
def State.dispatchSlot (s : State) (d slot : Nat) : State :=
  let c := nextCongr s.cycCeil (slot / 4) 4096
  match s.calEntry d (s.calTable c) slot with
  | none => s
  | some (t, b) =>
    let s := s.upToCyc c
    if s.halted.contains d then s
    else if s.linkWeak (slot % 4 * 2 + d) ∧ 3 ≤ c % 8 then s.bump (aCls d (0x50C + 4 * (slot % 4)))
    else if s.seamHolds d t b c then s.bump (aCls d 0x504)
    else s.sendRecord d slot c t b
def execDispatch (d : PDie) (slot : Fin 16384) (s : State) : Host.Outcome State Fault Refusal := .next (s.dispatchSlot d.val slot.val)

/-! ## The end of a packet program -/

/-- The record of flight `f` is the one that its thread runs, or ran last. -/
def State.runsFlight (s : State) (f : Flight) : Bool :=
  let x := s.th f.thread
  f.delivered && f.returned.isNone && decide (f.cause < 0x100) && decide (x.buf = f.buf ∧ f.dcyc + 160 ≤ x.t0 ∧ x.t0 < f.dcyc + 168)

/-- The program that a context runs has had its last slot: one that has issued no end move traps SPAN_OVERRUN (R45); the policy-fail
latch, a poisoned record and a stop are noted in its flight (R57, R135, R182, R239). The record of a context that was killed in mid-program
returns as it stands, for R57 names traps, late and missing records: DESIGN CHOICE (log entry 223). -/
def State.finishProgram (s : State) (t : Nat) : State :=
  match s.flights.find? fun f => decide (f.thread = t) && s.runsFlight f with
  | none => s
  | some f =>
    let x := s.th t
    let s := if x.st = .running ∧ !x.ended ∧ !x.stopped ∧ (s.clu? (cluOf t)).st = .live then
        s.trap t (x.t0 + 8 * (s.span - 1)) 0x04 0 x.pc false
      else s
    { s with flights := s.flights.map fun g =>
        if g.thread = t ∧ g.buf = f.buf ∧ g.dcyc = f.dcyc then
          { g with pol := x.polFail, cause := (if g.cause ≠ 0 then g.cause else if x.stopped then 0x103 else if x.recPois then 0x102 else 0) }
        else g }

/-! ## RECORD_DELIVERY (R51, R53) -/

/-- Change the flight that a thread's buffer was sent in core cycle `c`. -/
def State.modFlight (s : State) (t b c : Nat) (g : Flight → Flight) : State :=
  { s with flights := s.flights.map fun f => if f.thread = t ∧ f.buf = b ∧ f.dcyc = c then g f else f }

/-- RECORD_DELIVERY: the record becomes visible, and the program starts at the thread's next own slot. -/
def State.deliverRecord (s : State) (t b : Nat) (late : Bool) : State :=
  match s.flights.find? fun f => decide (f.thread = t ∧ f.buf = b) && !f.delivered with
  | none => s
  | some f =>
    let c := f.dcyc + 160
    let s := (s.upToCyc c).finishProgram t
    let mark := fun (s : State) (n : Nat) => s.modFlight t b f.dcyc fun g => { g with delivered := true, cause := n }
    let k := s.clu? (cluOf t)
    if f.cause = 0x101 ∨ k.st ≠ .live ∨ (!k.packet) then mark s 0x101
    else if late then ((mark s 0x100).bump (ra (cluPage (cluOf t) 0) 0x190)).raise (cluPage (cluOf t) 0) 9
    else
      let s := s.cmemPut (cluOf t) (recBase t b) f.record
      if (s.th t).stopped then mark s 0x103
      else
        (mark s 0).modTh t fun x => { x with st := .running, buf := b, t0 := ownSlot t c, nextCyc := ownSlot t c, ended := false, polFail := 0,
                                             recPois := false, lateTrap := [], rep := none }
def execRecordDelivery (t : ThreadId) (buf late : Bool) (s : State) : Host.Outcome State Fault Refusal :=
  .next (s.deliverRecord t.val (b2n buf) late)

/-! ## RETURN_SLOT (R54 to R57) -/

/-- The slot of a round in which the result of a dispatch in slot `slot` returns (R54). -/
def State.returnOf (s : State) (slot : Nat) : Nat := (slot + 4 * s.tRet) % 16384

/-- The image that RUN_RECORD's buffer holds (R564): DBG_REC. -/
def aDbgRec : Nat := ra (mPage 6) 0xA00

/-- The result of a RUN_RECORD is written back into DBG_REC; a dropped one carries action DROP. -/
def State.recordBack (s : State) (b : List Byte) (cause : Nat) : State :=
  let b := if cause = 0 then b else putBytes b 15 [(b.getD 15 0) &&& 0x3F]
  (List.range 64).foldl (fun s i => s.setReg (aDbgRec + 4 * i) (nw (leAt b (4 * i) 4))) s

/-- RETURN_SLOT: the record buffer is read out; a trapped, late, lost, stopped or poisoned record returns DROP with its cause. -/
def State.returnSlot (s : State) (d slot : Nat) (late : Bool) : State :=
  match s.flights.find? fun f => decide (f.die = d ∧ s.returnOf f.slot = slot) && f.delivered && f.returned.isNone with
  | none => s
  | some f =>
    let s := s.upToCyc (f.dcyc + s.tRet)
    let runs := s.runsFlight f
    let s := if runs then s.finishProgram f.thread else s
    let k := s.clu? (cluOf f.thread)
    let g := (s.flights.find? fun g => decide (g.thread = f.thread ∧ g.buf = f.buf ∧ g.dcyc = f.dcyc)).getD f
    let cause := if k.st ≠ .live ∧ f.pkt.isSome then 0x101 else g.cause
    let b := s.cmem.read arrCmem (cmemAt (cluOf f.thread) (recBase f.thread f.buf)) 256
    let s := if runs then s.modTh f.thread fun x => { x with st := if x.st = .resetting ∨ (x.stopped ∧ !x.ended) then x.st else .idle } else s
    if f.pkt.isNone then
      { s.recordBack b cause with flights := s.flights.filter fun g => !decide (g.thread = f.thread ∧ g.buf = f.buf ∧ g.dcyc = f.dcyc) }
    else s.modFlight f.thread f.buf f.dcyc fun g => { g with returned := some (b, cause), cause := cause, late := late }
def execReturnSlot (d : PDie) (slot : Fin 16384) (late : Bool) (s : State) : Host.Outcome State Fault Refusal :=
  .next (s.returnSlot d.val slot.val late)

end Sys2Proof.Machine
end

