-- ==== Sys2Proof/Machine/Tm.lean ====
section
/-! DEFINITION. The traffic manager (R379 to R399) and the cross link (R33, R376): enqueue, deficit round robin, shapers and policers,
cover traffic, the indirect operations. -/

namespace Sys2Proof.Machine

/-! ## Records -/

/-- A register of the TM page. -/
def aTm (d off : Nat) : Nat := ra (pdPage d 6) off

/-- A queue of a P-die, and the fields of its record (R399). -/
def State.queue (s : State) (d q : Nat) : TmQueue := tGet (fun _ => TmQueue.fresh) s.queues (d * 32768 + q)
def State.putQueue (s : State) (d q : Nat) (x : TmQueue) : State :=
  { s with queues := tSet (fun _ => TmQueue.fresh) s.queues (d * 32768 + q) x }

/-- A queue as a selection or an enqueue of this fabric cycle uses it: a WRITE of this cycle does not count yet (R399). -/
def State.queueNow (s : State) (d q : Nat) : TmQueue :=
  let x := s.queue d q
  if x.was.1 = s.fab + 1 then { x with w0 := x.was.2.1, w1 := x.was.2.2.1, w2 := x.was.2.2.2 } else x
def TmQueue.en (x : TmQueue) : Bool := bit x.w0 31
def TmQueue.remote (x : TmQueue) : Bool := bit x.w0 30
def TmQueue.cls (x : TmQueue) : Nat := fld x.w0 29 27
def TmQueue.port (x : TmQueue) : Nat := fld x.w0 26 21
def TmQueue.target (x : TmQueue) : Nat := fld x.w0 14 0
def TmQueue.shpEn (x : TmQueue) : Bool := bit x.w1 31
def TmQueue.shaper (x : TmQueue) : Nat := fld x.w1 28 16
def TmQueue.quantum (x : TmQueue) : Nat := fld x.w1 12 0
def TmQueue.polEn (x : TmQueue) : Bool := bit x.w2 31
def TmQueue.policer (x : TmQueue) : Nat := fld x.w2 28 16
def TmQueue.qlim (x : TmQueue) : Nat := fld x.w2 15 0

/-- A shaper, a policer, a port context. -/
def State.shaper (s : State) (d i : Nat) : Bucket := tGet (fun _ => Bucket.fresh) s.shapers (d * 8192 + i)
def State.putShaper (s : State) (d i : Nat) (b : Bucket) : State := { s with shapers := tSet (fun _ => Bucket.fresh) s.shapers (d * 8192 + i) b }
def State.policer (s : State) (d i : Nat) : Bucket := tGet (fun _ => Bucket.fresh) s.policers (d * 8192 + i)
def State.putPolicer (s : State) (d i : Nat) (b : Bucket) : State := { s with policers := tSet (fun _ => Bucket.fresh) s.policers (d * 8192 + i) b }
def State.tport (s : State) (d i : Nat) : TmPort := tGet (fun _ => TmPort.fresh) s.tports (d * 64 + i)
def State.putTport (s : State) (d i : Nat) (p : TmPort) : State := { s with tports := tSet (fun _ => TmPort.fresh) s.tports (d * 64 + i) p }

/-- The rate in 1/256 coin per µs, the burst, and COVER of a record. -/
def Bucket.rate (b : Bucket) : Nat := fld b.w0 23 0 * 256 + fld b.w0 31 24
def Bucket.burst (b : Bucket) : Nat := fld b.w1 23 0
def Bucket.cover (b : Bucket) : Bool := bit b.w1 30
def Bucket.coverSa (b : Bucket) : Nat := fld b.a3 19 0
def Bucket.fillLen (b : Bucket) : Nat := fld b.a4 29 16
def Bucket.tplNo (b : Bucket) : Nat := fld b.a4 9 0

/-- A queue is a cover queue (R391), as a selection or an enqueue of this fabric cycle takes it (R399). -/
def State.isCover (s : State) (d : Nat) (x : TmQueue) : Bool :=
  let b := s.shaper d x.shaper
  x.shpEn && if b.was.1 = s.fab + 1 then bit b.was.2 30 else b.cover

/-- The position moves on, and the visit ends. -/
def TmPort.advance (p : TmPort) : TmPort := { p with pos := (p.pos + 1) % max 1 p.active.length, visit := false }

/-- The queue at the position leaves the list. -/
def TmPort.leave (p : TmPort) : TmPort :=
  let l := p.active.eraseIdx p.pos
  { p with active := l, pos := if p.pos < l.length then p.pos else 0, visit := false }

/-- A queue leaves the active list of its port, emptied (R384). -/
def TmPort.drop (p : TmPort) (q : Nat) : TmPort :=
  match p.active.findIdx? (· = q) with
  | none => p
  | some j =>
    if j = p.pos then p.leave
    else
      let l := p.active.erase q
      { p with active := l, pos := if j < p.pos then p.pos - 1 else p.pos }

/-! ## Lengths (R382) -/

/-- The record of an SA for its length alone: readable, valid and at home. -/
def State.saPeek (s : State) (d i : Nat) : Option (List Nat) :=
  let r := s.saSeen d i
  if i / 2 ^ 19 = d ∧ !r.2.1 ∧ saV r.1 then some r.1 else none

/-- The encapsulated length of a frame. -/
def State.encLen (s : State) (d cipher sa : Nat) (b : List Byte) (filler : Bool) : Nat :=
  if cipher = 1 then match s.saPeek d sa with
    | some r => encLength r b filler
    | none => b.length
  else b.length

/-- The charged length of a frame of encapsulated length `n` for port context `i`. -/
def State.chargeLen (s : State) (d i n : Nat) : Nat := n + 4 + s.rf (aTm d (0x400 + 4 * i)) 23 16

/-! ## Enqueue (R381) -/

/-- The role check of R26. -/
def State.roleOk (s : State) (d : Nat) (port : Nat) (t : Tx) : Bool :=
  if s.sliceBlack d (port / 8) then decide (t.role = 1 ∨ t.role = 3 ∨ t.cipher = 1) else decide (t.role ≠ 1) || t.decrypted

/-- A frame that the TM refuses: counted, and its buffers are released. -/
def State.tmDrop (s : State) (d off : Nat) (t : Tx) : State := (s.freeFrame d t.handle).bump (aTm d off)

/-- Empty a queue: each frame is counted at `a` and its buffers are released. -/
def State.emptyQueue (s : State) (d q a : Nat) : State :=
  let x := s.queue d q
  let s := x.frames.foldl (fun s t => (s.freeFrame d t.handle).bump a) s
  (s.putQueue d q { x with frames := [], bytes := 0, defi := 0 }).putTport d x.port ((s.tport d x.port).drop q)

/-- The TM reads the record of a queue: one with an uncorrectable error has its queue flushed and disabled, counted in Q_FLUSH (R448). -/
def State.tmCheck (s : State) (d q : Nat) : State :=
  match (s.queue d q).flaw with
  | none => s
  | some f =>
    let s := s.flawRead (pdPage d 6) f (Config.tmAddr q / 8 * 8)
    if f.ue then
      let s := s.emptyQueue d q (aTm d 0x160)
      let x := s.queue d q
      s.putQueue d q { x with w0 := x.w0 &&& 0x7FFFFFFF, flaw := none }
    else s

/-- Police a frame at enqueue (R390). In the fabric cycle of a WRITE that reset the balance the frame is policed, and charged, on the balance
before it (R389, R399). -/
def State.police (s : State) (d i l : Nat) : Bool × State :=
  let b := s.policer d i
  let b := (bucketCredit b.rate b.burst s.tb b).2
  let late := decide (b.wrote = s.fab + 1)
  if 0 ≤ (if late then b.chgBal else b.bal) then
    let c := if late then { b with chgBal := b.chgBal - (l * 65536 : Nat) } else bucketCharge l b
    (true, s.putPolicer d i { c with passed := satAdd (2 ^ 32 - 1) b.passed 1 })
  else (false, s.putPolicer d i { b with dropped := satAdd (2 ^ 32 - 1) b.dropped 1 })

/-- The source of a frame in the order of R381: a slice of P-die `d`, the cross link, inject. -/
def txRank (d : Nat) (t : Tx) : Nat := if t.inPort = 128 + d then 9 else if t.inPort / 64 = d then t.inPort % 64 / 8 else 8

/-- A queue joins the active list of its port. -/
def State.joinActive (s : State) (d i q : Nat) : State := s.putTport d i { s.tport d i with active := (s.tport d i).active ++ [q] }

/-- A frame in its queue: at the tail, before the frames of this fabric cycle whose sources come later (R381). -/
def TmQueue.insert (x : TmQueue) (fab rank : Nat) (t : Tx) : TmQueue :=
  let k := if x.tail.1 = fab + 1 then x.tail.2 else []
  let k := k.drop (k.length - x.frames.length)
  let n := (k.filter fun r => decide (rank < r)).length
  { x with frames := x.frames.take (x.frames.length - n) ++ t :: x.frames.drop (x.frames.length - n), bytes := x.bytes + t.charge,
           tail := (fab + 1, k.take (k.length - n) ++ rank :: k.drop (k.length - n)) }

/-- Append a frame to its queue; the queue joins the active list of its port where it was empty (R381, R386). -/
def State.appendFrame (s : State) (d q : Nat) (t : Tx) : State :=
  let x := s.queue d q
  let s := s.retagFrame d t.handle (engine d 1 (x.port / 8))
  let joins := decide (x.frames = []) && !s.isCover d x
  let s := s.putQueue d q { x.insert s.fab (txRank d t) t with defi := if joins then 0 else x.defi }
  if joins then s.joinActive d x.port q else s

/-- Steps 2 to 6: whether the frame is enqueued. -/
def State.tmStep2 (s : State) (d : Nat) (t : Tx) : Bool × State :=
  let x := s.queueNow d t.queue
  if x.remote then (false, s.tmDrop d 0x154 t)
  else if !s.roleOk d x.port t then (false, s.tmDrop d 0x150 t)
  else if !x.en then (false, s.tmDrop d 0x154 t)
  else
    let n := s.encLen d t.cipher t.sa (s.frameBytes d t.handle).1 false
    let l := s.chargeLen d x.port n
    let r := if x.polEn then s.police d x.policer l else (true, s)
    if !r.1 then (false, r.2.tmDrop d 0x15C t)
    else if x.qlim ≠ 0 ∧ x.qlim * 1024 < x.bytes + l then (false, r.2.tmDrop d 0x158 t)
    else (true, r.2.appendFrame d t.queue { t with ctx := x.port, charge := l, enc := n })

/-- Store bytes in an account with a refusal counted nowhere but by the caller. -/
def State.storeCopy (s : State) (d a : Nat) (tag : OwnerId) (b : List Byte) : Option Nat × State :=
  match State.storeGo (b.length / 256 + 2) s d a tag b [] with
  | (0, cs, s) => (some (mkHandle (s.acctPool d a) (cs.headD 0)), s.linkCells d cs)
  | (_, cs, s) => (none, cs.foldl (fun s c => s.releaseBuf d c) s)

/-- A frame bound for the other P-die is stored again in account 137 and waits for the link (R376, R515). -/
def State.crossFrame (s : State) (d : Nat) (t : Tx) : State :=
  if s.halted.contains (1 - d) then (s.freeFrame d t.handle).bpmCnt d 0x13C
  else
    let r := s.readFrame d t.handle
    let w := (r.2.2.storeCopy d 137 (engine d 5 0) r.1)
    let s := w.2.freeFrame d t.handle
    match w.1 with
    | none => s.bpmCnt d 0x13C
    | some h => (s.setPoison d h r.2.1).modPd d fun x => { x with xwait := x.xwait ++ [{ t with handle := h, queue := (s.queueNow d t.queue).target }] }

/-- The TM takes a frame from step 1 on. -/
def State.tmSend (s : State) (d : Nat) (t : Tx) : State :=
  let s := s.tmCheck d t.queue
  if (s.queueNow d t.queue).remote then s.crossFrame d t else (s.tmStep2 d t).2

/-! ## The cross link -/

/-- The ticks that a frame of `n` bytes takes at 1.6 Tb/s, preamble, gap and FCS counted (R33). -/
def crossTicks (n : Nat) : Nat := ((n + 24) * 192 + 1599) / 1600

/-- A frame whose generation was retired while it waited or crossed (R412). -/
def State.staleTx (s : State) : State := s.bump aGenStale

/-- XLINK_SEND (R33): the oldest waiting frame crosses as soon as the cap allows it and the link is not in repair (R513). -/
def State.xlinkSend (s : State) (d : Nat) : State :=
  match (s.pd d).xwait with
  | [] => s
  | t :: r =>
    if decide (tFind s.repairs 8 = some 1) ∨ s.halted.contains d then s
    else
      let s := s.upTo (s.pd d).xfree
      let s := s.modPd d fun x => { x with xwait := r }
      if t.stale then (s.freeFrame d t.handle).staleTx
      else
        let f := s.readFrame d t.handle
        let s := f.2.2.freeFrame d t.handle
        let c : Cross := { tx := t, bytes := f.1, poison := f.2.1, due := s.now + 480 * fabricTicks }
        s.modPd d fun x => { x with xfree := s.now + crossTicks f.1.length, xfly := x.xfly ++ [c] }
def execXlinkSend (d : PDie) (s : State) : Host.Outcome State Fault Refusal := .next (s.xlinkSend d.val)

/-- XLINK_ARRIVAL (R376): the frame is stored on the egress P-die `d` and enqueued from step 2. -/
def State.xlinkArrive (s : State) (d : Nat) : State :=
  match (s.pd (1 - d)).xfly with
  | [] => s
  | c :: r =>
    let s := (s.upTo c.due).modPd (1 - d) fun x => { x with xfly := r }
    if c.tx.stale then s.staleTx
    else if s.halted.contains d then s
    else
      let s := s.tmCheck d c.tx.queue
      match s.storeFrame d (64 + (s.queueNow d c.tx.queue).cls) (engine d 5 0) c.bytes with
      | (none, s) => s
      | (some h, s) => ((s.setPoison d h c.poison).tmStep2 d { c.tx with handle := h }).2
def execXlinkArrival (d : PDie) (s : State) : Host.Outcome State Fault Refusal := .next (s.xlinkArrive d.val)

/-! ## Selection (R385 to R388) -/

/-- A class of a port context is paused (R265, R383). -/
def State.paused (s : State) (d i k : Nat) : Bool :=
  match tFind s.pauses ((64 * d + i) * 8 + k) with
  | some t => decide (s.now < t)
  | none => false

/-- A check of a shaper: it is credited, a capped credit of a cover shaper is counted, and the balance before this fabric cycle
decides (R387, R388, R395). -/
def State.shaperCheck (s : State) (d i : Nat) : Bool × State :=
  let r := bucketCredit (s.shaper d i).rate (s.shaper d i).burst s.tb (s.shaper d i)
  let s := s.putShaper d i r.2
  let s := if r.1 && r.2.cover then s.bump (aTm d 0x168) else s
  (decide (0 ≤ (if r.2.chgCyc = s.fab + 1 then r.2.chgBal else r.2.bal)), s)

/-- Charge a shaper. In the fabric cycle of a WRITE that reset the balance the charge comes first, and is discarded with it (R389). -/
def State.shaperCharge (s : State) (d i l : Nat) : State :=
  let b := s.shaper d i
  if b.wrote = s.fab + 1 then s
  else
  let b := if b.chgCyc = s.fab + 1 then b else { b with chgCyc := s.fab + 1, chgBal := b.bal }
  s.putShaper d i (bucketCharge l b)

/-- A queue is eligible: its class is not paused, and its shaper allows it. -/
def State.queueElig (s : State) (d i : Nat) (x : TmQueue) : Bool × State :=
  if s.paused d i x.cls then (false, s)
  else if !x.shpEn then (true, s)
  else s.shaperCheck d x.shaper

/-- An entry is written into the port's transmit FIFO (R397). -/
def State.toFifo (s : State) (d i : Nat) (t : Tx) : State :=
  s.modPd d fun x => { x with fifo := tUpd (fun _ => []) x.fifo (i / 8) (· ++ [t]) }

/-- One DRR decision; the fuel is the number of queues still to be tried. -/
def State.drr : Nat → State → Nat → Nat → State
  | 0, s, _, _ => s
  | k + 1, s, d, i =>
    let p := s.tport d i
    match p.active[p.pos]? with
    | none => s
    | some q =>
      let e := if s.isCover d (s.queue d q) then (false, s) else s.queueElig d i (s.queue d q)
      let x := e.2.queue d q
      if !e.1 then State.drr k (e.2.putTport d i p.advance) d i
      else
        let defi := if p.visit then x.defi else x.defi + (e.2.queueNow d q).quantum * 64
        match x.frames with
        | [] => State.drr k (e.2.putTport d i p.advance) d i
        | h :: r =>
          if h.charge ≤ defi then
            let s := if x.shpEn then e.2.shaperCharge d x.shaper h.charge else e.2
            let s := s.putQueue d q { x with frames := r, bytes := x.bytes - h.charge, defi := if r = [] then 0 else defi - h.charge }
            (s.putTport d i (if r = [] then p.leave else { p with visit := true })).toFifo d i h
          else State.drr k ((e.2.putQueue d q { x with defi := defi }).putTport d i p.advance) d i

/-! ## Cover traffic (R391 to R395) -/

/-- The bytes of a filler. -/
def State.fillerBytes (s : State) (d tpl len : Nat) : List Byte :=
  padTo len (tRange (fun _ => 0) s.tpl (d * 2 ^ 18 + tpl * 256) (min len 256))

/-- The cover queues of a port context, in the order in which round robin tries them. -/
def State.coverQueues (s : State) (d i : Nat) : List Nat :=
  let l := (s.queues.filter fun e => decide (e.1 / 32768 = d) && decide (e.2.port = i) && s.isCover d e.2).map fun e => e.1 % 32768
  let c := (s.tport d i).cover
  (l.filter fun q => decide (c < q)) ++ l.filter fun q => decide (q ≤ c)

/-- A cover queue is served: its head frame, or a filler. -/
def State.serveCover (s : State) (d i q : Nat) : State :=
  let x := s.queue d q
  let b := s.shaper d x.shaper
  let s := s.putTport d i { s.tport d i with cover := q }
  match x.frames with
  | h :: r =>
    let s := (s.shaperCharge d x.shaper h.charge).putQueue d q { x with frames := r, bytes := x.bytes - h.charge }
    (if r = [] then s.putTport d i ((s.tport d i).drop q) else s).toFifo d i h
  | [] =>
    let bytes := s.fillerBytes d b.tplNo b.fillLen
    let n := s.encLen d 1 b.coverSa bytes true
    let l := s.chargeLen d i n
    let t : Tx := { handle := 0, len := b.fillLen, charge := l, cipher := 1, sa := b.coverSa, gen := s.gen, tsReq := 0, tsTag := 0, tsOff := 0,
                    ckOff := 0, rxts := 0, ctx := i, queue := q, filler := true, tpl := b.tplNo, role := 2, decrypted := false, inPort := 0, stale := false, enc := n }
    (((s.shaperCharge d x.shaper l).bump (aTm d 0x164)).toFifo d i t)

/-- Serve the first eligible cover queue of a list, if any. -/
def State.tryCover : List Nat → State → Nat → Nat → Bool × State
  | [], s, _, _ => (false, s)
  | q :: r, s, d, i =>
    let e := s.queueElig d i (s.queue d q)
    if e.1 then (true, e.2.serveCover d i q) else State.tryCover r e.2 d i

/-- The stages of a selection (R385). -/
def State.select (s : State) (d i : Nat) : State :=
  match State.tryCover (s.coverQueues d i) s d i with
  | (true, s) => s
  | (false, s) => State.drr (s.tport d i).active.length s d i

/-- The queues of a port that a FLUSH of this fabric cycle has emptied. -/
def State.flushedNow (s : State) (d i : Nat) : List Nat :=
  (s.queues.filter fun e => decide (e.1 / 32768 = d) && decide (e.2.port = i) && e.2.flush.any fun u => decide (u.cyc = s.fab + 1)).map (·.1 % 32768)

/-- The buffers of a frame that a FLUSH has released are taken back, where none has been allocated again. -/
def State.unfree (s : State) (d : Nat) (l : List (Nat × Buf)) : State :=
  l.foldl (fun s e =>
    (((s.modPool d e.2.pool fun x => { x with till := x.till.erase e.1 }).charge d e.2.acct).putBuf d e.1 e.2).relevel d e.2.pool) s

/-- Buffers of a pool and an account are taken for the bytes of a frame, without threshold checks: the cells, and the bytes left over. -/
def State.storeAgain : Nat → State → Nat → Buf → List Byte → List Nat → List Nat × List Byte × State
  | 0, s, _, _, b, cs => (cs, b, s)
  | k + 1, s, d, x, b, cs =>
    if b = [] then (cs, b, s)
    else
      match s.takeBuf d x.pool x.acct x.tag with
      | (none, s) => (cs, b, s)
      | (some c, s) =>
        let n := 256 * s.poolCells d x.pool
        State.storeAgain k ((s.pktWrite d c (b.take n)).putBuf d c { x with next := none, off := 0, cnt := min n b.length, poison := false }) d x (b.drop n) (cs ++ [c])

/-- The head frame that a FLUSH has released stands again: in its own buffers where they are still free in the Till, else in others of their pool;
none where that pool has none left. -/
def State.reviveHead (s : State) (d : Nat) (u : FlushTurn) : Option Tx × State :=
  if u.bufs.all fun e => (s.pool d e.2.pool).till.contains e.1 then (some u.head, s.unfree d u.bufs)
  else
    match u.bufs with
    | [] => (none, s)
    | e :: _ =>
      match State.storeAgain (u.bytes.1.length / 256 + 2) s d e.2 u.bytes.1 [] with
      | (cs, [], s) =>
        let h := mkHandle e.2.pool (cs.headD 0)
        (some { u.head with handle := h }, (s.linkCells d cs).setPoison d h u.bytes.2)
      | (cs, _, s) => (none, cs.foldl (fun s c => s.releaseBuf d c) s)

/-- A frame handed over in the fabric cycle of a FLUSH is not dropped (R384): for a selection of that cycle the head frame of the queue stands
again, in its place. -/
def State.unflush (s : State) (d q : Nat) : State :=
  let x := s.queue d q
  match x.flush with
  | none => s
  | some u =>
    match s.reviveHead d u with
    | (none, s) => s.putQueue d q { x with flush := none }
    | (some h, s) =>
      let s := s.setReg (aTm d 0x160) (s.reg (aTm d 0x160) - 1)
      let p := (s.tport d x.port).drop q
      let s := s.putQueue d q { x with frames := h :: x.frames, bytes := x.bytes + h.charge, defi := u.defi, flush := some { u with head := h } }
      match u.place with
      | none => s
      | some j =>
        s.putTport d x.port { p with active := p.active.take j ++ q :: p.active.drop j, pos := if u.stood then j else if j ≤ p.pos ∧ p.active ≠ [] then p.pos + 1 else p.pos,
                                     visit := if u.stood then u.visit else p.visit }

/-- The head frame that the selection has left is dropped again. -/
def State.reflush (s : State) (d q : Nat) : State :=
  let x := s.queue d q
  match x.flush, x.frames with
  | some u, h :: r =>
    if h = u.head then
      let s := (s.freeFrame d h.handle).bump (aTm d 0x160)
      let s := (s.putQueue d q { x with frames := r, bytes := x.bytes - h.charge, defi := 0 }).putTport d x.port ((s.tport d x.port).drop q)
      if r = [] ∨ s.isCover d x then s else s.joinActive d x.port q
    else s.putQueue d q { x with flush := none }
  | _, _ => s.putQueue d q { x with flush := none }

/-- PORT_SELECT: a port whose transmit FIFO holds fewer than 2 frames selects one. The selection reads the records of the port's active and
cover queues (log entry 201). -/
def State.portSelect (s : State) (d i : Nat) : State :=
  let pg := s.pgState (pdPage d 6)
  if s.halted.contains d ∨ ¬(pg = 2 ∨ pg = 3) ∨ 2 ≤ ((tGet (fun _ => []) (s.pd d).fifo (i / 8)).filter fun t => decide (t.ctx = i)).length then s
  else
    let s := ((s.tport d i).active ++ s.coverQueues d i).foldl (fun s q => s.tmCheck d q) s
    let l := s.flushedNow d i
    l.foldl (fun s q => s.reflush d q) ((l.foldl (fun s q => s.unflush d q) s).select d i)
def execPortSelect (port : PortId) (s : State) : Host.Outcome State Fault Refusal := .next (s.portSelect (port.val / 64) (port.val % 64))

/-! ## Indirect operations (R384, R389, R391, R399) -/

/-- The words of TM_IND_DATA, and RESULT of TM_IND_CMD. -/
def State.tmData (s : State) (d i : Nat) : Word := s.reg (aTm d (0x120 + 4 * i))
def State.tmResult (s : State) (d r : Nat) : State := s.setReg (aTm d 0x100) (nw (r * 2 ^ 28))
def State.tmOut (s : State) (d : Nat) (ws : List Word) : State :=
  ((List.range 8).foldl (fun s i => s.setReg (aTm d (0x120 + 4 * i)) (ws.getD i 0)) s).tmResult d 0

/-- An operation runs on the records of a P-die: TM_IND_CMD.BUSY, until when a write of TM_IND_CMD is ignored (R398, R399). -/
def State.tmRuns (s : State) (d : Nat) : Bool := decide (s.now < (s.pd d).tmBusy)
def State.tmIdle (s : State) (d : Nat) (f : State → State) : State := if s.tmRuns d then s else f s

/-- A write of an S field refused. -/
def State.tmRunning (s : State) (d : Nat) : State := (s.err (pdPage d 6) 0 1 0x100 0).tmResult d 2

/-- The balance in signed coins. -/
def Bucket.coins (b : Bucket) : Word := iw (b.bal / 65536)

/-- The queues of a P-die that name a shaper with SHP_EN = 1. -/
def State.shapedBy (s : State) (d i : Nat) : List TmQueue :=
  (s.queues.filter fun e => decide (e.1 / 32768 = d) && e.2.shpEn && decide (e.2.shaper = i)).map (·.2)

/-- The conditions of R391 hold for shaper `i`. -/
def State.coverOk (s : State) (d i : Nat) : Bool :=
  let b := s.shaper d i
  let l := s.shapedBy d i
  !b.cover || (decide ((l.filter TmQueue.en).length ≤ 1) && (l.all fun x => s.sliceBlack d (x.port / 8)) && decide (fld b.w3 19 19 = d))

/-- READ. -/
def State.tmRead (s : State) (d tab i : Nat) : State :=
  match tab with
  | 0 => let s := s.tmCheck d i; let x := s.queue d i; s.tmOut d [x.w0, x.w1, x.w2, nw x.bytes]
  | 1 =>
    if 8192 ≤ i then s.tmResult d 1
    else
      let s := (s.shaperCheck d i).2
      let b := s.shaper d i
      s.tmOut d [b.w0, b.w1, b.coins, b.w3, b.w4]
  | 2 =>
    if 8192 ≤ i then s.tmResult d 1
    else
      let b := (bucketCredit (s.policer d i).rate (s.policer d i).burst s.tb (s.policer d i)).2
      (s.putPolicer d i b).tmOut d [b.w0, b.w1, b.coins, nw b.passed, nw b.dropped]
  | _ => s.tmResult d 1
def execTmIndRead (d : PDie) (table : Fin 4) (index : BitVec 15) (s : State) : Host.Outcome State Fault Refusal :=
  .next (s.tmIdle d.val (·.tmRead d.val table.val index.toNat))

/-- WRITE of a queue record. -/
def State.tmWriteQueue (s0 : State) (d q : Nat) : State :=
  let s := s0.tmCheck d q
  let x := s.queue d q
  let n0 := s.tmData d 0 &&& 0xFFE07FFF
  let n1 := s.tmData d 1 &&& 0x9FFF1FFF
  let n2 := s.tmData d 2 &&& 0x9FFFFFFF
  let y := { x with w0 := n0, w1 := n1, w2 := n2, flaw := none, was := if x.was.1 = s.fab + 1 then x.was else (s.fab + 1, x.w0, x.w1, x.w2) }
  if y.quantum = 0 ∨ 4096 < y.quantum then s.tmResult d 1
  else if ((n0 ^^^ x.w0) &&& 0x7FE07FFF ≠ 0 ∨ (n1 ^^^ x.w1) &&& 0x9FFF0000 ≠ 0 ∨ (n2 ^^^ x.w2) &&& 0x9FFF0000 ≠ 0) ∧ (x.en ∨ x.frames ≠ []) then
    s.tmRunning d
  else
    let s' := s.putQueue d q y
    if y.shpEn && !s'.coverOk d y.shaper then s.tmResult d 1 else s'.tmResult d 0

/-- The balance after a write of RATE, FRAC or BURST in fabric cycle `fab` (R388, R389); the balance before it decides what that cycle still
selects (R399). -/
def bucketRewrite (tb fab : Nat) (b : Bucket) (n0 n1 : Word) : Bucket :=
  let c := { b with w0 := n0, w1 := n1, written := true, was := if b.was.1 = fab + 1 then b.was else (fab + 1, b.w1) }
  if b.written ∧ n0 = b.w0 ∧ c.burst = b.burst then c
  else { c with bal := if b.written ∧ bit n1 31 then 0 else c.burst * 65536, last := tb, wrote := fab + 1, chgCyc := fab + 1,
                chgBal := if b.chgCyc = fab + 1 then b.chgBal else (bucketCredit b.rate b.burst tb b).2.bal }

/-- A disabled queue that holds frames and whose shaper is no cover shaper any longer takes part in DRR (R386). -/
def State.uncover (s : State) (d i : Nat) : State :=
  (s.queues.filter fun e => decide (e.1 / 32768 = d) && e.2.shpEn && decide (e.2.shaper = i) && decide (e.2.frames ≠ [])).foldl (fun s e =>
    let q := e.1 % 32768
    if (s.tport d e.2.port).active.contains q then s else (s.putQueue d q { s.queue d q with defi := 0 }).joinActive d e.2.port q) s

/-- WRITE of a shaper record. -/
def State.tmWriteShaper (s : State) (d i : Nat) : State :=
  let b := s.shaper d i
  let n1 := s.tmData d 1 &&& 0xC0FFFFFF
  if (n1 ^^^ b.w1) &&& 0x40000000 ≠ 0 ∧ (s.shapedBy d i).any TmQueue.en then s.tmRunning d
  else
    let c := { bucketRewrite s.tb s.fab b (s.tmData d 0) n1 with w3 := s.tmData d 3 &&& 0xFFFFF, w4 := s.tmData d 4 &&& 0x3FFF03FF }
    let s' := s.putShaper d i c
    if !s'.coverOk d i then s.tmResult d 1 else (if b.cover && !c.cover then s'.uncover d i else s').tmResult d 0

/-- WRITE of a policer record: its first write too resets the balance by the record's own mode (R390). -/
def State.tmWritePolicer (s : State) (d i : Nat) : State :=
  (s.putPolicer d i (bucketRewrite s.tb s.fab { s.policer d i with written := true } (s.tmData d 0) (s.tmData d 1 &&& 0x80FFFFFF))).tmResult d 0

/-- WRITE. -/
def State.tmWrite (s : State) (d tab i : Nat) : State :=
  match tab with
  | 0 => s.tmWriteQueue d i
  | 1 => if 8192 ≤ i then s.tmResult d 1 else s.tmWriteShaper d i
  | 2 => if 8192 ≤ i then s.tmResult d 1 else s.tmWritePolicer d i
  | _ => s.tmResult d 1
def execTmIndWrite (d : PDie) (table : Fin 4) (index : BitVec 15) (s : State) : Host.Outcome State Fault Refusal :=
  .next (s.tmIdle d.val (·.tmWrite d.val table.val index.toNat))

/-- READ_CLR: a policer's record, its counts cleared. -/
def State.tmReadClr (s : State) (d tab i : Nat) : State :=
  if tab = 2 ∧ i < 8192 then
    let s := s.tmRead d 2 i
    s.putPolicer d i { s.policer d i with passed := 0, dropped := 0 }
  else s.tmResult d 1
def execTmIndReadClr (d : PDie) (table : Fin 4) (index : BitVec 15) (s : State) : Host.Outcome State Fault Refusal :=
  .next (s.tmIdle d.val (·.tmReadClr d.val table.val index.toNat))

/-- What a FLUSH is about to take from a queue. -/
def State.flushTurn (s : State) (d q : Nat) : Option FlushTurn :=
  let x := s.queue d q
  let p := s.tport d x.port
  let j := p.active.findIdx? (· = q)
  x.frames.head?.map fun h =>
    { cyc := s.fab + 1, head := h, bufs := (s.chainOf d h.handle).filterMap fun c => (s.buf? d c).map fun b => (c, b), place := j,
      stood := decide (j = some p.pos), visit := p.visit, defi := x.defi, bytes := ((s.frameBytes d h.handle).1, s.framePoison d h.handle) }

/-- FLUSH (R384, R399): it takes 64 fabric cycles and 2 for each frame that it drops. -/
def State.tmFlush (s : State) (d tab q : Nat) : State :=
  if tab = 0 then
    let u := s.flushTurn d q
    let n := (s.queue d q).frames.length
    let s := s.emptyQueue d q (aTm d 0x160)
    ((s.putQueue d q { s.queue d q with flush := u }).tmResult d 0).modPd d fun x => { x with tmBusy := s.now + (64 + 2 * n) * fabricTicks }
  else s.tmResult d 1
def execTmIndFlush (d : PDie) (table : Fin 4) (index : BitVec 15) (s : State) : Host.Outcome State Fault Refusal :=
  .next (s.tmIdle d.val (·.tmFlush d.val table.val index.toNat))

/-- A write of TM_IND_CMD. -/
def State.tmCmd (s : State) (d : Nat) (v : Word) : State :=
  let tab := fld v 25 24
  let i := fld v 14 0
  s.tmIdle d fun s => match fld v 22 20 with
  | 1 => s.tmRead d tab i
  | 2 => s.tmWrite d tab i
  | 3 => s.tmReadClr d tab i
  | 4 => s.tmFlush d tab i
  | _ => s.tmResult d 1

end Sys2Proof.Machine
end

