-- ==== Sys2Proof/Machine/Egress.lean ====
section
/-! DEFINITION. The egress half of the cipher engines and the transmitters (R263, R268, R269, R330, R338 to R343, R356, R397). -/

namespace Sys2Proof.Machine

/-! ## The steps of R338 -/

/-- Step 7: the PN is assigned and the record updated; none where the suite has no PN left. -/
def State.assignPn (s : State) (d sl x : Nat) (r : List Nat) (octets : Nat) : Option Nat × State :=
  let pn := saQ r 8
  if pn = 0 ∨ saMaxPn r < pn then
    (none, ((s.saEngine d x (saSetState r 2)).lifePush d 1 x).cphDrop d sl 0 0x154 x)
  else
    let next := (pn + 1) % 2 ^ 64
    (some pn, s.saUpdate d x (saSetQ (saSetQ r 8 next) 18 (saQ r 18 + octets)) next)

/-- Steps 5 to 8 with the record's key. -/
def State.encBuild (s : State) (d sl x lim : Nat) (r : List Nat) (key : List Byte) (b : List Byte) (filler : Bool) : Option (List Byte) × State :=
  if suiteEsp (saSuite r) then
    match espPoint r b filler with
    | .error e => (none, s.cphDrop d sl 0 e x)
    | .ok (i, nh) =>
      if lim < encLength r b filler + 4 then (none, s.cphDrop d sl 0 0x150 x)
      else
        match s.assignPn d sl x r (b.length - i) with
        | (none, s) => (none, s)
        | (some pn, s) => (some (espBuild r key pn b i nh), s.bump (ra (slicePage d sl 2) 0x110))
  else if lim < encLength r b filler + 4 then (none, s.cphDrop d sl 0 0x150 x)
  else
    match s.assignPn d sl x r (b.length - 12) with
    | (none, s) => (none, s)
    | (some pn, s) => (some (secBuild r key x pn b), s.bump (ra (slicePage d sl 2) 0x110))

/-- The steps of R338 for a frame of CIPHER = ENCRYPT under SA index `x`, for a port whose MAXLEN is `lim`; none where a step drops it. -/
def State.encrypt (s : State) (d sl x lim : Nat) (b : List Byte) (filler : Bool) : Option (List Byte) × State :=
  match s.saFetch d sl 0 x with
  | (none, s) => (none, s)
  | (some r, s) =>
    if saIn r then (none, s.cphDrop d sl 0 0x11C x)
    else if saState r = 2 then (none, s.cphDrop d sl 0 0x124 x)
    else
      match s.saKey d r with
      | none => (none, s.keyDrop d sl 0 x r)
      | some key => (s.keyCe d r).encBuild d sl x lim r key b filler

/-- The fixed delay of the egress half in fabric cycles (R330). -/
def State.cipherDelay (s : State) (d cipher sa : Nat) : Nat :=
  if cipher ≠ 1 then 64
  else
    match ((s.saPeek d sa).map saSuite).getD 0 with
    | 0 => 144
    | 1 => 168
    | 2 | 4 => 132
    | _ => 156

/-! ## EGRESS_CIPHER -/

/-- The slices whose queues slice `sl` shares: a JOINT pair works as its lower slice (R263). -/
def State.txKey (s : State) (d sl : Nat) : Nat := if s.quads d sl = 3 then sl / 2 * 2 else sl

/-- The slices that serve the ports of slice `sl`. -/
def State.txSlices (s : State) (d sl : Nat) : List Nat := if s.quads d sl = 3 then [sl / 2 * 2, sl / 2 * 2 + 1] else [sl]

/-- The engine that takes the next frame of a JOINT pair, by bytes taken, and the state with `n` bytes added to it. -/
def State.jointTx (s : State) (d sl n : Nat) : Bool × State :=
  if s.quads d sl ≠ 3 then (true, s)
  else
    let c := tGet (fun _ => (0, 0)) (s.pd d).jtx (sl / 2)
    let low := decide (c.1 ≤ c.2)
    (low == decide (sl % 2 = 0),
      s.modPd d fun x => { x with jtx := tSet (fun _ => (0, 0)) x.jtx (sl / 2) (if low then (c.1 + n, c.2) else (c.1, c.2 + n)) })

/-- A frame of `n` bytes leaves the transmit FIFO: it is read behind the one before it, and reaches the MAC `delay` fabric cycles after its last
byte is read. One that is dropped gives its buffers back. -/
def State.egressPut (s : State) (d k n delay : Nat) (t : Tx) (b : Option (List Byte)) : State :=
  let s := if b.isNone ∧ !t.filler then s.freeFrame d t.handle else s
  let l := tGet (fun _ => []) (s.pd d).egress k
  let read := max s.now ((l.getLast?.map (·.read)).getD 0) + (n + 63) / 64 * fabricTicks
  s.modPd d fun x => { x with egress := tSet (fun _ => []) x.egress k (l ++ [{ tx := t, bytes := b, read := read, due := read + delay * fabricTicks }]) }

/-- EGRESS_CIPHER: the oldest entry of the FIFO is read from the packet buffer and passes the engine of slice `sl`. -/
def State.egressCipher (s : State) (d sl : Nat) : State :=
  let k := s.txKey d sl
  match tGet (fun _ => []) (s.pd d).fifo k with
  | [] => s
  | t :: r =>
    let n := if t.filler then (s.fillerBytes d t.tpl t.len).length else (s.frameBytes d t.handle).1.length
    let j := s.jointTx d sl n
    let down := (s.txSlices d sl).any fun x => [0, 1, 2].any fun p => decide (4 ≤ s.pgState (slicePage d x p))
    if s.halted.contains d ∨ !j.1 ∨ (!down ∧ !s.sliceUp d sl) then s
    else
      let s := j.2.modPd d fun x => { x with fifo := tSet (fun _ => []) x.fifo k r }
      if down then (if t.filler then s else s.freeFrame d t.handle).macCnt d t.ctx 4
      else
        let f := if t.filler then (s.fillerBytes d t.tpl t.len, false, s) else s.readFrame d t.handle
        let w := s.cipherDelay d t.cipher t.sa
        if f.2.1 then (f.2.2.cphDrop d sl 0 0x158 (if t.cipher = 1 then t.sa else 0)).egressPut d k n w t none
        else if t.cipher ≠ 1 then f.2.2.egressPut d k n w t (some f.1)
        else
          let e := f.2.2.encrypt d sl t.sa (f.2.2.rf (aPort d t.ctx) 13 0) f.1 t.filler
          e.2.egressPut d k n w t e.1
def execEgressCipher (d : PDie) (sl : Slice) (s : State) : Host.Outcome State Fault Refusal := .next (s.egressCipher d.val sl.val)

/-! ## FRAME_TRANSMIT -/

/-- A 16-bit checksum updated for a changed field (RFC 1624). -/
def ckUpdate (hc : Nat) (old new : List Byte) : Nat :=
  65535 - inetFold (inetFold ((65535 - hc) + (65535 - inetSum old) + inetSum new))

/-- A field of the frame replaced by a one-step action, with the checksum at `ck` unless that is 0. -/
def oneStep (b : List Byte) (o ck : Nat) (new : List Byte) : List Byte :=
  let old := bytesAt b o new.length
  let b := putBytes b o new
  if ck = 0 then b else putBytes b ck (beBytes 2 (ckUpdate (beAt b ck 2) old new))

/-- The field of a one-step request lies within the frame and below byte 256. -/
def oneStepFits (b : List Byte) (o ck n : Nat) : Bool :=
  decide (o + n ≤ min b.length 256) && (decide (ck = 0) || decide (ck + 2 ≤ min b.length 256))

/-- A timestamp enters the slice's FIFO, or is lost where it is full (R269). -/
def State.tsPush (s : State) (d : Nat) (t : Tx) (ts : Nat) : State :=
  let sl := t.ctx / 8
  let l := tGet (fun _ => []) (s.pd d).tsFifo sl
  if 64 ≤ l.length then (s.macCnt d t.ctx 7).raise (macPage d sl) 8
  else (s.modPd d fun x => { x with tsFifo := tSet (fun _ => []) x.tsFifo sl (l ++ [(t.tsTag, t.ctx % 8, ts)]) }).raise (macPage d sl) 9

/-- The timestamp action of a frame at its transmitter (R268, R269): the bytes as they are sent. -/
def State.stampFrame (s : State) (d : Nat) (t : Tx) (b : List Byte) : List Byte × State :=
  let ts := s.stamp s.tbFine (24 * tbUnit) (toSigned 16 (s.rf (ra (macPage d (t.ctx / 8)) (0x160 + 4 * (t.ctx % 8))) 15 0))
  let u := s.drawn
  if t.tsReq = 0 then (b, s)
  else if t.tsReq = 1 then (b, u.tsPush d t ts)
  else if t.cipher = 1 then (b, (u.macCnt d t.ctx 6).tsPush d t ts)
  else if t.tsReq = 2 then
    if !oneStepFits b t.tsOff t.ckOff 8 then (b, s.macCnt d t.ctx 5)
    else (oneStep b t.tsOff t.ckOff (beBytes 8 ((beAt b t.tsOff 8 + (ts + 2 ^ 64 - t.rxts) % 2 ^ 64 * 65536) % 2 ^ 64)), u)
  else if !oneStepFits b t.tsOff t.ckOff 10 then (b, s.macCnt d t.ctx 5)
  else (oneStep b t.tsOff t.ckOff (beBytes 6 (ts / 10 ^ 9) ++ beBytes 4 (ts % 10 ^ 9)), u)

/-- FRAME_TRANSMIT: the oldest frame in the egress half of the slice reaches its port; its buffers are released. -/
def State.frameTransmit (s : State) (d sl : Nat) : State :=
  let k := s.txKey d sl
  match tGet (fun _ => []) (s.pd d).egress k with
  | [] => s
  | e :: r =>
    if s.halted.contains d then s
    else
      let s := (s.upTo e.due).modPd d fun x => { x with egress := tSet (fun _ => []) x.egress k r }
      match e.bytes with
      | none => s
      | some b =>
        let s := if e.tx.filler then s else s.freeFrame d e.tx.handle
        if !s.portUp d e.tx.ctx then s.macCnt d e.tx.ctx 4
        else
          let o := s.stampFrame d e.tx b
          (o.2.capture 2 d e.tx.ctx o.1).emit (.frame (64 * d + e.tx.ctx) o.1)
def execFrameTransmit (d : PDie) (sl : Slice) (s : State) : Host.Outcome State Fault Refusal := .next (s.frameTransmit d.val sl.val)

end Sys2Proof.Machine
end

