-- ==== Sys2Proof/Machine/Results.lean ====
section
/-! DEFINITION. RESULT_TAKE: a returned record is checked, written back and carried out (R22, R29, R56, R57, R135, R182, R239,
R285 to R289, R343, R362, R375, R396). -/

namespace Sys2Proof.Machine

/-! ## The fields that the P-die reads (R282, R285) -/

/-- Word `i` of a record. -/
def recW (b : List Byte) (i : Nat) : Nat := leAt b (4 * i) 4
def recEditOut (b : List Byte) : Nat := bitsOf (recW b 1) 15 8
def recEditIn (b : List Byte) : Nat := bitsOf (recW b 1) 7 0
def recPunt (b : List Byte) : Nat := bitsOf (recW b 2) 31 28
def recSa (b : List Byte) : Nat := bitsOf (recW b 2) 19 0
def recAct (b : List Byte) : Nat := bitsOf (recW b 3) 31 30
def recCopy (b : List Byte) : Bool := (recW b 3).testBit 29
def recMirror (b : List Byte) : Bool := (recW b 3).testBit 28
def recCipher (b : List Byte) : Nat := bitsOf (recW b 3) 27 26
def recQueue (b : List Byte) : Nat := bitsOf (recW b 3) 14 0

/-- Step 3: the fields are consistent with a frame of `n` bytes. -/
def resultOk (b : List Byte) (n : Nat) : Bool :=
  decide (recEditIn b ≤ min 192 n ∧ recEditOut b ≤ 192 ∧ recCipher b < 2)
    && decide (60 ≤ n - recEditIn b + recEditOut b ∧ n - recEditIn b + recEditOut b ≤ 10236)

/-- What the TM is given for a frame and its result. -/
def Pkt.tx (k : Pkt) (b : List Byte) : Tx :=
  { handle := k.handle, len := k.len, charge := 0, cipher := recCipher b, sa := recSa b, gen := k.gen, tsReq := bitsOf (recW b 7) 31 30,
    tsTag := bitsOf (recW b 7) 23 16, tsOff := bitsOf (recW b 7) 15 8, ckOff := bitsOf (recW b 7) 7 0, rxts := k.rxts, ctx := 0,
    queue := recQueue b, filler := false, tpl := 0, role := b2n k.black, decrypted := k.decrypted, inPort := k.port, stale := false }

/-! ## Copies (R289, R396) -/

/-- COPY: the frame is copied into buffers of its queue pair's account and punted under cause 9; a copy of a poisoned frame is poisoned, and a
read of the frame that meets an uncorrectable error poisons both (R27, R375). -/
def State.copyOut (s : State) (d : Nat) (k : Pkt) : State :=
  let q := s.puntPair k.gen 9
  let tag := if s.dmaDest q then engine d 2 0 else engine 2 0 q
  let f := s.readFrame d k.handle
  match f.2.2.storeFrame d (s.puntAcct q) tag f.1 with
  | (none, s) => s
  | (some h, s) => (s.setPoison d h f.2.1).punt d { k with handle := h } 9 true

/-- MIRROR: the frame is copied to the mirror queue of its ingress port, its poison with it; a refusal counts in the BPM counter of its cause
and in MIRROR_DROP (R367, R375, R396). -/
def State.mirrorOut (s : State) (d : Nat) (k : Pkt) (b : List Byte) : State :=
  let a := aTm d (0x400 + 4 * (k.port % 64))
  let q := s.gf k.gen a 14 0
  let x := s.queueNow d q
  if !s.gb k.gen a 31 then s.bump (aTm d 0x16C)
  else
    let f := s.readFrame d k.handle
    match f.2.2.storeFrame d (64 + x.cls) (engine d 1 (x.port / 8)) f.1 with
    | (none, s) => s.bump (aTm d 0x16C)
    | (some h, s) => (s.setPoison d h f.2.1).tmSend d { k.tx b with handle := h, queue := q, cipher := 0, tsReq := 0 }

/-! ## Recirculation (R29, R278, R343) -/

/-- The frame enters the parser and cipher stage of its ingress slice again. -/
def State.reenter (s : State) (d sl : Nat) (k : Pkt) (b : List Byte) : State :=
  match s.slicePass d sl { k with pass := k.pass + 1, len := b.length, due := s.now + 1152 * fabricTicks } b with
  | (none, s) => s
  | (some k, s) => s.modPd d fun x => { x with ingress := tUpd (fun _ => []) x.ingress sl (· ++ [k]) }

/-- RECIRC through the slice that took the frame in: with ENCRYPT its egress half ciphers the frame, which is stored anew; a poisoned frame is
dropped there as POISON (R29, R278, R330, R343, R375). -/
def State.recirc (s : State) (d : Nat) (k : Pkt) (b : List Byte) : State :=
  let i := k.port % 64
  let sl := k.slice
  let r := s.readFrame d k.handle
  let f := r.1
  let s := r.2.2
  if recCipher b ≠ 1 then s.reenter d sl k f
  else if r.2.1 then (s.freeFrame d k.handle).cphDrop d sl 0 0x158 (recSa b)
  else
    match s.encrypt d sl (recSa b) (s.rf (aPort d i) 13 0) f false with
    | (none, s) => s.freeFrame d k.handle
    | (some out, s) =>
      match (s.freeFrame d k.handle).storeFrame d i (engine d 0 sl) out with
      | (none, s) => s
      | (some h, s) => s.reenter d sl { k with handle := h } out

/-! ## RESULT_TAKE -/

/-- Step 5: the action, on the frame as written back. -/
def State.resultAct (s : State) (d : Nat) (k : Pkt) (b : List Byte) : State :=
  let extra := fun (s : State) =>
    let s := if recCopy b then s.copyOut d k else s
    if recMirror b then s.mirrorOut d k b else s
  match recAct b with
  | 0 => s.freeFrame d k.handle
  | 1 => (extra s).tmSend d (k.tx b)
  | 2 => s.punt d k (16 + recPunt b) false
  | _ => (extra s).recirc d k b

/-- Steps 2 to 5 for a result that is no DROP under R57; `ue`: the read of the record's header window met an uncorrectable error (R375). -/
def State.resultApply (s : State) (d pol : Nat) (k : Pkt) (b : List Byte) (ue : Bool) : State :=
  if ue then (s.freeFrame d k.handle).bpmCnt d 0x134
  else if pol ≠ 0 then s.punt d k (if pol = 2 then 6 else 5) false
  else if !resultOk b k.len then (s.freeFrame d k.handle).bump (aCls d 0x520)
  else if recAct b = 3 ∧ 3 ≤ k.pass then (s.freeFrame d k.handle).bump (aCls d 0x51C)
  else
    match s.writeBack d k.handle (recEditIn b) (bytesAt b 64 (recEditOut b)) with
    | (none, s) => s.freeFrame d k.handle
    | (some h, s) => s.resultAct d { k with handle := h, len := k.len - recEditIn b + recEditOut b } b

/-- The counter of a DROP under R57, by its cause. -/
def dropCounter (cause : Nat) : Nat :=
  match cause with
  | 0x101 => 0x500
  | 0x102 => 0x524
  | 0x103 => 0x528
  | _ => 0x52C

/-- The place of a result among those that a P-die takes: the fabric cycle in which it is due; within one, the slice of the frame (R381), then
the earliest dispatch, then the lowest lane. -/
def State.resultRank (s : State) (f : Flight) : Nat × Nat × Nat × Nat :=
  (s.cycTick (f.dcyc + s.tRet + 160) / fabricTicks, (f.pkt.map fun k => k.port % 64 / 8).getD 0, f.dcyc, f.slot % 4)

/-- One place comes before another. -/
def rankLt (a b : Nat × Nat × Nat × Nat) : Bool :=
  decide (a.1 < b.1 ∨ a.1 = b.1 ∧ (a.2.1 < b.2.1 ∨ a.2.1 = b.2.1 ∧ (a.2.2.1 < b.2.2.1 ∨ a.2.2.1 = b.2.2.1 ∧ a.2.2.2 < b.2.2.2)))

/-- The returned flight of a P-die whose result it takes next. -/
def State.nextResult (s : State) (d : Nat) : Option Flight :=
  (s.flights.filter fun f => decide (f.die = d) && f.returned.isSome).foldl (fun a f =>
    match a with
    | none => some f
    | some g => if rankLt (s.resultRank f) (s.resultRank g) then some f else a) none

/-- RESULT_TAKE: the P-die takes the result 160 core cycles after its return slot. -/
def State.resultTake (s : State) (d : Nat) : State :=
  match s.nextResult d with
  | none => s
  | some f =>
    let s := s.upToCyc (f.dcyc + s.tRet + 160)
    let s := { s with flights := s.flights.filter fun g => !decide (g.thread = f.thread ∧ g.buf = f.buf ∧ g.dcyc = f.dcyc) }
    match f.pkt, f.returned with
    | some k, some (b, cause) =>
      if k.stale then s.dropStale d k
      else if f.late then (s.freeFrame d k.handle).bump (aCls d 0x508)
      else if cause ≠ 0 then (s.freeFrame d k.handle).bump (aCls d (dropCounter cause))
      else s.resultApply d f.pol k b f.ue
    | _, _ => s
def execResultTake (d : PDie) (s : State) : Host.Outcome State Fault Refusal := .next (s.resultTake d.val)

end Sys2Proof.Machine
end

