-- ==== Sys2Proof/Machine/Mailbox.lean ====
section
/-! DEFINITION. The mailbox (R542 to R545): starting and ending a command, its buffers; and the wake of a power domain (R418, R485). -/

namespace Sys2Proof.Machine

/-- Ticks per microsecond. -/
def usTicks : Nat := 24000

/-! ## The mailbox -/

/-- A register of the MBX page. -/
def aMbx (off : Nat) : Nat := ra (mPage 8) off

/-- BUSY. -/
def State.mbxBusy (s : State) : Bool := s.rb (aMbx 0x100) 31

/-- Argument word `i`. -/
def State.mbxArg (s : State) (i : Nat) : Word := s.reg (aMbx (0x120 + 4 * i))

/-- Response word `i`. -/
def State.mbxRsp (s : State) (i : Nat) (v : Word) : State := s.setReg (aMbx (0x140 + 4 * i)) v

/-- The running command ends: DONE, RESULT, event bit 8. -/
def State.mbxEnd (s : State) (r : Nat) : State :=
  ({ (s.hwMark (aMbx 0x100) (maskOf 30 30)).setReg (aMbx 0x100) (nw (2 ^ 30 + r * 2 ^ 16)) with mbxJob := 0 }).raise (mPage 8) 8

/-- The command goes on; `job` names it: 1 warm PROFILE_SELECT, 2 CAL_SWITCH, 3 RETIRE of a DRAM page, 4 RETIRE of an SRAM bank, 5
ZEROIZE, 6 ATTEST or KEY_LOAD. -/
def State.mbxRuns (s : State) (job : Nat) : State := { s with mbxJob := job }

/-- The command `job` ends, if it is the one that runs. -/
def State.mbxEndOf (s : State) (job r : Nat) : State := if s.mbxJob = job then s.mbxEnd r else s

/-- The command uses the DRAM buffer. -/
def State.mbxDram (s : State) : Bool := s.rb (aMbx 0x104) 0

/-- The bytes [off, off + n) lie in the selected buffer. -/
def State.mbxFits (s : State) (off n : Nat) : Bool :=
  if s.mbxDram then decide (off + n ≤ s.rf (aMbx 0x110) 15 0) && s.dramRange (s.pair (aMbx 0x108) / 64 * 64 + off) n
  else decide (off + n ≤ 2048)

/-- Bytes of the selected buffer, whether a word of the DRAM buffer has an uncorrectable error, and the state with the errors logged (R448). -/
def State.mbxIn (s : State) (off n : Nat) : List Byte × Bool × State :=
  if s.mbxDram then s.dramRead (s.pair (aMbx 0x108) / 64 * 64 + off) n
  else ((List.range n).map fun i => BitVec.ofNat 8 ((s.reg (aMbx (0x800 + (off + i) / 4 * 4))).toNat / 256 ^ ((off + i) % 4)), false, s)

/-- A command uses bytes of its buffer; over an uncorrectable error it uses none of them and ends BAD_PARAM: R448 lets no poisoned data be used,
and no rule names the result. DESIGN CHOICE (log entry 126). -/
def State.mbxUse (s : State) (off n : Nat) (f : State → List Byte → State) : State :=
  let r := s.mbxIn off n
  if r.2.1 then r.2.2.mbxEnd 3 else f r.2.2 r.1

/-- Write one byte of the page buffer. -/
def State.mbxPut (s : State) (i : Nat) (b : Byte) : State :=
  s.setRf (aMbx (0x800 + i / 4 * 4)) (i % 4 * 8 + 7) (i % 4 * 8) b.toNat

/-- Write bytes into the selected buffer. -/
def State.mbxOut (s : State) (off : Nat) (b : List Byte) : State :=
  if s.mbxDram then (s.dramWrite (s.pair (aMbx 0x108) / 64 * 64 + off) b).2
  else (List.range b.length).foldl (fun s i => s.mbxPut (off + i) (b.getD i 0)) s

/-! ## What the SEC's commands share -/

/-- A register of the SEC page. -/
def aSec (off : Nat) : Nat := ra (mPage 4) off

/-- Change what the SEC holds. -/
def State.modSec (s : State) (f : Sec → Sec) : State := { s with sec := f s.sec }

/-- SEC_KEK_OCC follows the master store. -/
def State.kekOcc (s : State) : State := s.setReg (aSec 0x110) (nw s.sec.keks.length)

/-- Install a KEK in a KW slot of every cluster of a mask; the SEC records each. -/
def State.installKek (s : State) (slot kw mask : Nat) (k : List Byte) : State :=
  (List.range 64).foldl (fun s c =>
    if mask.testBit c then { s.modSec (fun x => { x with kekFrom := tPut x.kekFrom (16 * c + kw) slot }) with kek := tPut s.kek (16 * c + kw) k }
    else s) s

/-- An ATTEST or a KEY_LOAD begins; it ends within `us` microseconds, when is a free value (R465, R468; log entry 226). -/
def State.secStart (s : State) (us : Nat) (t : SecTask) : State :=
  ((s.modSec fun x => { x with task := some { t with due := s.now + Config.secTicks s.draw % (us * usTicks + 1) } }).drawn).mbxRuns 6

/-- It ends OK: the report stands in the buffer, or the KEK is stored and installed. -/
def State.secEnd (s : State) (t : SecTask) : State :=
  let s := s.modSec fun x => { x with task := none }
  match t.kek with
  | some (slot, kw, mask, key) => (((s.modSec fun x => { x with keks := tPut x.keks slot key }).installKek slot kw mask key).kekOcc).mbxEnd 0
  | none => ((t.parts.foldl (fun s e => s.mbxOut e.1 e.2) s).mbxRsp 0 (nw t.size)).mbxEnd 0

/-- The state with the SEC's command ended, if its end has come. -/
def State.secDue (s : State) : State :=
  match s.secDone with
  | some t => s.secEnd t
  | none => s

/-- A zeroization starts while the SEC's command runs: an ATTEST is discarded and ends ZEROIZED (R466), a KEY_LOAD stores nothing and ends
ZEROIZING (R472). -/
def State.secStop (s : State) : State :=
  let s := s.secDue
  match s.sec.task with
  | some t => if s.mbxBusy ∧ s.mbxJob = 6 then (s.modSec fun x => { x with task := none }).mbxEnd (if t.kek.isSome then 6 else 5) else s
  | none => s

/-- A write of CODE: refused while a command runs, and counted; otherwise BUSY is 1, DONE 0, and the command begins (R543). -/
def State.mbxStart (s : State) (f : State → State) : State :=
  let s := s.secDue
  if s.mbxBusy then s.bumpF (aMbx 0x114) 15 0 1 else f (s.setReg (aMbx 0x100) (nw (2 ^ 31)))

/-- An access to the MBX or the SEC page finds a command of the SEC ended whose end has come. -/
def State.secLook (s : State) (pg : Nat) : State := if pg = mPage 8 ∨ pg = mPage 4 then s.secDue else s

/-! ## Domains that switch -/

/-- The domain is switching. -/
def State.domChanging (s : State) (n : Nat) : Bool := s.pwr.domSw.any fun e => decide (e.1 = n)

/-- A domain begins to switch to a state, which it has `d` ticks later; one that leaves ON serves nothing from now on. -/
def State.domStart (s : State) (n st d : Nat) : State :=
  let p := s.pwr
  { s with pwr := { p with domSw := (p.domSw.filter fun e => !decide (e.1 = n)) ++ [(n, st, s.now + d)] },
           doms := if st = 1 then s.doms else tSet (fun _ => 0) s.doms n st }

/-- A command to IDLE or OFF a cluster that has not completed gives way to a wake: it ends REFUSED, and the cluster is as it was (R486). -/
def State.wakeWins (s : State) (c : Nat) : State :=
  let n := domClu c
  if s.pwr.domCmd = some n ∧ s.pwr.domSw.any (fun e => decide (e.1 = n ∧ e.2.1 ≠ 1)) then
    let p := s.pwr
    { s.setReg (ra (mPage 1) 0x130) (nw (2 ^ 28)) with
      pwr := { p with domSw := p.domSw.filter fun e => !decide (e.1 = n), domCmd := none }, doms := tSet (fun _ => 0) s.doms n p.domWas }
  else s

/-- An IDLE cluster is woken (R418, R485, R486). -/
def State.wakeClu (s : State) (c : Nat) : State :=
  let s := s.wakeWins c
  if s.dom (domClu c) = 2 ∧ (!s.pwr.domSw.any fun e => decide (e.1 = domClu c ∧ e.2.1 = 1)) then s.domStart (domClu c) 1 (40 * usTicks) else s

end Sys2Proof.Machine
end

