-- ==== Sys2Proof/Machine/Calendars.lean ====
section
/-! DEFINITION. The calendar checker (R50, R55, R61, R63, R76, R79), calendar switches and the seam (R66, R72 to R76, R415, R517), the
claim of a spare, and the recovery of a cluster (R419, R511, R516). -/

namespace Sys2Proof.Machine

/-! ## The calendar checker -/

/-- A dispatch that a calendar makes: P-die, slot of the cycle, cluster (64 + 16 × lane + rank for a survivor rank), context, buffer. -/
def calEvents (k : CalSet) (d : Nat) : List (Nat × Nat × Nat × Nat × Nat) :=
  ((k.dispatch.getD d []).filter fun e => e.2.toNat.testBit 15).map fun e =>
    let v := e.2.toNat
    (d, e.1, (if v.testBit 13 then 64 else 0) + 16 * (e.1 % 4) + bitsOf v 12 9, bitsOf v 8 3, bitsOf v 14 14)

/-- The dispatches of both P-dies. -/
def calAll (k : CalSet) : List (Nat × Nat × Nat × Nat × Nat) := calEvents k 0 ++ calEvents k 1

/-- The distance of two core cycles in a cycle of `m`. -/
def cycDist (m a b : Nat) : Nat := min ((a % m + m - b % m) % m) ((b % m + m - a % m) % m)

/-- A dispatch: P-die, slot of the cycle, cluster or rank, context, buffer. -/
abbrev CalEvent := Nat × Nat × Nat × Nat × Nat

/-- The condition of R50 that two dispatches break, taken cyclically over `m` core cycles: 2 or 3. -/
def calClash (m span : Nat) (a b : CalEvent) : Option Nat :=
  let x := cycDist m (a.2.1 / 4) (b.2.1 / 4)
  if a.2.2.1 = b.2.2.1 ∧ a.2.2.2.1 = b.2.2.2.1 then
    if x < 8 * span then some 2 else if a.2.2.2.2 = b.2.2.2.2 ∧ x < 184 + 8 * span then some 3 else none
  else none

/-- What fails R50 conditions 2 and 3 among dispatches, each also against itself one cycle later: the condition, the P-die, the slot. -/
def calSpacing (m span : Nat) : List CalEvent → List (Nat × Nat × Nat)
  | [] => []
  | a :: r =>
    (if m < 8 * span then [(2, a.1, a.2.1)] else if m < 184 + 8 * span then [(3, a.1, a.2.1)] else []) ++
      (r.filterMap fun b => (calClash m span a b).map fun n => (n, b.1, b.2.1)) ++ calSpacing m span r

/-- What fails R50 condition 4: on each lane of each P-die at most 5 dispatches in any 8 consecutive core cycles. -/
def calDensity (m : Nat) (l : List CalEvent) : List (Nat × Nat × Nat) :=
  (l.filter fun a => decide (5 < (l.filter fun b => decide (b.1 = a.1 ∧ b.2.1 % 4 = a.2.1 % 4 ∧ (b.2.1 / 4 + m - a.2.1 / 4) % m < 8)).length)).map
    fun a => (4, a.1, a.2.1)

/-- What fails R50 conditions 2 to 4. -/
def calUnion (m span : Nat) (l : List CalEvent) : List (Nat × Nat × Nat) := calSpacing m span l ++ calDensity m l

/-- R55: the entries in which the return calendar is not the dispatch calendar displaced by 4 × T_RET slots. -/
def calReturn (slots tret : Nat) (disp ret : Tbl (BitVec 16)) : List Nat :=
  let g := fun (t : Tbl (BitVec 16)) s => tGet (fun _ => (0 : BitVec 16)) t s
  ((disp.map fun e => (e.1 + 4 * tret) % slots) ++ ret.map (·.1)).filter fun s => g ret s ≠ g disp ((s + slots - 4 * tret % slots) % slots)

/-- R61: the rows after which a region's calendar grants some core of the listed clusters nothing for 8 core cycles. -/
def calRegion (t : Tbl Byte) (clus : List Nat) : List Nat :=
  (List.range 4096).filter fun n => clus.any fun c => (List.range 8).any fun k => (List.range 32).all fun i =>
    !decide ((tGet (fun _ => (0 : Byte)) t (4 * ((n + i / 4) % 4096) + i % 4)).toNat / 4 = 32 + c % 4 * 8 + k)

/-- R63: the rows of a bank-phase map that keep it from being a Latin square of the eight pairs: a row that lacks a pair, or row `k` for a
core `k` that never owns some pair. -/
def bankMapBad (t : Tbl Word) (c : Nat) : List Nat :=
  let pair := fun (k φ : Nat) => fld (tGet (fun _ => 0) t (8 * c + φ)) (4 * k + 2) (4 * k)
  (List.range 8).filter fun φ =>
    !((List.range 8).all fun v => (List.range 8).any fun k => decide (pair k φ = v)) ||
      !((List.range 8).all fun v => (List.range 8).any fun k => decide (pair φ k = v))

/-- A finding of the calendar checker: what fails (1 to 5: a condition of R50; 55, 61, 63, 76: that rule); the calendar, 32 × the set + the part;
the entry. The sets are numbered 0 to 3 for the tiers, 4 + k for the fallback set of cluster k, 68 + a for the cross-die set of C-die a, 72 for
the bank-phase maps; the parts 0 and 1 for the dispatch calendars of the P-dies, 2 and 3 for the return calendars, 4 + r for region r, the
cluster for a map. R79 returns the three and gives their words no layout: this numbering only names them (`Config.calReport`). -/
abbrev CalFault := Nat × Nat × Nat

/-- The legality of an entry on its own (R47, R50 condition 1, R76): a cluster that the set may name, or a rank from 0 to 14 on the lane of a
cross-die set, whose entries all use ranks. -/
def calNames (names : List Nat) (lane : Option Nat) (a : CalEvent) : Option Nat :=
  if lane = some (a.2.1 % 4) then (if a.2.2.1 < 64 then some 76 else if a.2.2.1 % 16 = 15 then some 1 else none)
  else if 64 ≤ a.2.2.1 ∧ lane.isSome then some 76
  else if names.contains a.2.2.1 then none else some 1

/-- What fails in one set, numbered `n`: the clusters that its entries may name, those whose cores its regions must grant, and the lane that
uses survivor ranks. A fallback set that still names the cluster whose loss it covers fails condition 1 of R50: DESIGN CHOICE (log entry 204). -/
def calSetFaults (p : Profile) (n : Nat) (k : CalSet) (names grants : List Nat) (lane : Option Nat) : List CalFault :=
  let m := 4096 * p.cycle
  let l := calAll k
  let at_ := fun (e : Nat × Nat × Nat) => (e.1, 32 * n + e.2.1, e.2.2)
  (l.filterMap fun a => (calNames names lane a).map fun x => at_ (x, a.1, a.2.1)) ++
    (calUnion m p.span l).map at_ ++
    (if k.tables = p.cycle then [] else [(5, 32 * n, k.tables)]) ++
    (l.filter fun a => decide (4 * m ≤ a.2.1)).map (fun a => at_ (5, a.1, a.2.1)) ++
    ([0, 1].map fun d => (calReturn (4 * m) (168 + 8 * p.span) (k.dispatch.getD d []) (k.ret.getD d [])).map fun s => (55, 32 * n + 2 + d, s)).flatten ++
    ((List.range 16).map fun r =>
      (calRegion (k.region.getD r []) (grants.filter fun c => decide (c / 4 = r))).map fun i => (61, 32 * n + 4 + r, i)).flatten

/-- The spare of a C-die in a profile image. -/
def profSpare (p : Profile) (c : Nat) : Nat := p.spares.getD c (16 * c + 15)

/-- The overflow entries that a cross-die set of C-die `a` places on a lane (R76). -/
def overflowOn (k : CalSet) (lane : Nat) : List CalEvent := (calAll k).filter fun a => decide (a.2.1 % 4 = lane)

/-- The slots that two of the dispatches share. -/
def calShared : List CalEvent → List (Nat × Nat × Nat)
  | [] => []
  | a :: r => (r.filter fun b => decide (a.1 = b.1 ∧ a.2.1 = b.2.1)).map (fun b => (76, b.1, b.2.1)) ++ calShared r

/-- R76 on one lane, for the set `base` numbered `n`: the overflow entries of the other C-dies' cross-die sets stand in empty entries of it and
in shares that are disjoint, and meet R50 together with the lane's entries, where the cluster `lost` is renamed to the spare. -/
def laneFaults (p : Profile) (lane n : Nat) (base : CalSet) (lost : Option Nat) : List CalFault :=
  let own := (calAll base).filter fun a => decide (a.2.1 % 4 = lane)
  let across := ((p.cross.filter fun e => decide (e.1 ≠ lane)).map fun e => overflowOn e.2 lane).flatten
  let across := across.map fun a => if lost = some a.2.2.1 then (a.1, a.2.1, profSpare p lane, a.2.2.2.1, a.2.2.2.2) else a
  let l := own ++ across
  (calShared l ++ calUnion (4096 * p.cycle) p.span l).map fun e => (e.1, 32 * n + e.2.1, e.2.2)

/-- Every failure that the loader and the calendar checker find in a whole profile (R50, R55, R61, R63, R76, R79), in the order in which this
model's checker looks: the tiers, the fallback sets, the cross-die sets, the primary set under the overflow entries, the maps. R79 asks for the
first and does not say in which order the checks run. DESIGN CHOICE (log entry 199). -/
def calFaults (p : Profile) : List CalFault :=
  let spares := (List.range 4).map (profSpare p)
  (if 1 ≤ p.cycle ∧ p.cycle ≤ 4 ∧ p.tiers ≠ [] then [] else [(5, 0, 0)]) ++
    ((List.range p.tiers.length).map fun n => match p.tiers[n]? with
      | some k => calSetFaults p n k p.packet p.packet none
      | none => []).flatten ++
    (p.fallback.map fun e =>
      let claimed := if spares.contains e.1 then [] else [profSpare p (e.1 / 16)]
      let serve := (p.packet.filter fun c => decide (c ≠ e.1)) ++ claimed
      calSetFaults p (4 + e.1) e.2 serve serve none ++ laneFaults p (e.1 / 16) (4 + e.1) e.2 (some e.1)).flatten ++
    (p.cross.map fun e =>
      calSetFaults p (68 + e.1) e.2 (p.packet.filter fun c => decide (c / 16 ≠ e.1) && !spares.contains c)
        (p.packet ++ [profSpare p e.1]) (some e.1)).flatten ++
    ((List.range 4).map fun lane => match p.tiers with
      | [] => []
      | k :: _ => laneFaults p lane 0 k none).flatten ++
    ((List.range 64).map fun c => (bankMapBad p.bankMap c).map fun φ => (63, 32 * 72 + c, φ)).flatten

/-- The profile passes the calendar checker. -/
def calOk (p : Profile) : Bool := (calFaults p).isEmpty

/-! ## The clusters of a tier (R418) -/

/-- The clusters that a set's entries name; a survivor rank names every packet-mode cluster of its lane. -/
def setClusters (p : Profile) (k : CalSet) : List Nat :=
  ((calAll k).map fun a => if 64 ≤ a.2.2.1 then p.packet.filter fun c => decide (c / 16 = a.2.1 % 4) else [a.2.2.1]).flatten

/-- The packet-mode clusters that the sets of a tier name: tier 0 has the fallback and the cross-die sets (R418). -/
def tierClusters (p : Profile) (t : Nat) : List Nat :=
  let sets := (p.tiers[t]?).toList ++ (if t = 0 then p.fallback.map (·.2) ++ p.cross.map (·.2) else [])
  p.packet.filter fun c => sets.any fun k => (setClusters p k).contains c

/-- Some packet-mode cluster that a tier of a profile needs is not ON. -/
def State.tierAsleep (s : State) (p : Profile) (t : Nat) : Bool := (tierClusters p t).any fun c => !s.domIsOn (domClu c) && decide ((s.clu? c).st = .live)

/-- Wake the IDLE clusters that a tier of a profile needs. -/
def State.wakeTier (s : State) (p : Profile) (t : Nat) : State := (tierClusters p t).foldl (fun s c => s.wakeClu c) s

/-! ## CAL_SWITCH (R66, R73, R517) -/

/-- The set that the FMG holds for a C-die. -/
def State.setOf (s : State) (c : Nat) : Nat × Nat := s.prof.sets.getD c (0, 0)

/-- EPC_CAL. -/
def aEpcCal : Nat := ra (mPage 0) 0x148

/-- The FMG issues CAL_SWITCH: it applies at the first round boundary at least 1,024 core cycles later, and after the boundary of a
switch issued before it. -/
def State.calIssue (s : State) (sets : List (Option (Nat × Nat))) (mbx : Bool) : State :=
  let f := s.fmg
  let due := max (roundCeil (s.cycCeil + 1024)) ((f.reqs.map fun q => q.due + 4096).foldl max 0)
  { s with fmg := { f with reqs := f.reqs ++ [{ sets := sets, due := due, mbx := mbx }] } }

/-- One C-die's part of a CAL_SWITCH. -/
def setFor (c : Nat) (k : Nat × Nat) : List (Option (Nat × Nat)) := (List.range 4).map fun i => if i = c then some k else none

/-- The spare of a C-die can be claimed: it is live and not claimed already. -/
def State.spareFree (s : State) (c : Nat) : Bool :=
  let k := s.clu? (s.spareOf c)
  decide (k.st = .live) && !k.claimed && !k.detached && decide (s.dom (domClu (s.spareOf c)) ≠ 0)

/-- The FMG claims the spare of a C-die for a lost cluster (R73, R228). -/
def State.claimSpare (s : State) (c lost : Nat) : State :=
  let sp := s.spareOf c
  let s := ((s.setClu sp fun k => { k with claimed := true }).reclaim sp).wakeClu sp
  let f := s.fmg
  { s with fmg := { f with claims := tPut f.claims c lost } }

/-- The set of a C-die that no spare can help: its cross-die set, or none where the profile lacks one. -/
def State.crossSet (s : State) (c : Nat) : Nat × Nat := if s.prof.img.cross.any fun e => decide (e.1 = c) then (2, 0) else (3, 0)

/-- A cluster of C-die `c` leaves the calendar: the spare is claimed, or the cross-die set is taken (R73, R75, R419). A second loss before
the claimed spare is ready awaits the spare for the cross-die set: DEDUCED (log entry 205). -/
def State.replaceClu (s : State) (c lost : Nat) : State :=
  let s := if s.prof.tier = 0 then s else s.wakeTier s.prof.img 0
  let f := s.fmg
  if (tFind f.claims c).isSome then { s with fmg := { f with claims := tPut f.claims c 64 } }
  else if s.setOf c = (0, 0) ∧ s.spareFree c then s.claimSpare c lost
  else s.calIssue (setFor c (s.crossSet c)) false

/-- Every context of a cluster that waits to be saved is saved now. -/
def State.saveAll (s : State) (c : Nat) : State :=
  (List.range 64).foldl (fun s i => if (s.th (64 * c + i)).saveReq.isSome then s.saveCtx (64 * c + i) else s) s

/-- Some context of a cluster still waits to be saved: a DM access that it owns is not complete (R224, R228). -/
def State.saving (s : State) (c : Nat) : Bool := (List.range 64).any fun i => (s.th (64 * c + i)).saveReq.isSome

/-- A cluster takes calendar slots: its task-mode work has been saved or killed, every context is PKT_IDLE (R73, R182). -/
def State.packetOn (s : State) (c : Nat) : State :=
  let s := s.setClu c fun k => { k with packet := true, detached := false }
  (List.range 64).foldl (fun s i =>
    s.modTh (64 * c + i) fun x => if x.st = .resetting then x else { Thread.fresh with sb := x.sb }) s

/-- SPARE_READY (R73, R75, R419): the claimed spare has stopped its task-mode work, and the FMG issues CAL_SWITCH; it is not ready while a
context of it still waits to be saved. -/
def State.spareReady (s : State) (c : Nat) : State :=
  match tFind s.fmg.claims c with
  | none => s
  | some lost =>
    let s := s.saveAll (s.spareOf c)
    if s.saving (s.spareOf c) then s
    else
      let f := s.fmg
      ({ s with fmg := { f with claims := tDel f.claims c } }).calIssue (setFor c (if lost = 64 then s.crossSet c else (1, lost))) false
def execSpareReady (cdie : Fin 4) (s : State) : Host.Outcome State Fault Refusal := .next (s.spareReady cdie.val)

/-- The clusters that leave task mode when a C-die takes a set: with a primary set those that have returned from a recovery, else the spare. -/
def State.takers (s : State) (c : Nat) (k : Nat × Nat) : List Nat :=
  match k.1 with
  | 0 => s.prof.img.packet.filter fun x => decide (x / 16 = c ∧ (s.clu? x).st = .live) && !(s.clu? x).packet
  | 1 => [s.spareOf c]
  | 2 => [s.spareOf c].filter fun x => (s.clu? x).claimed && !(s.clu? x).packet && decide ((s.clu? x).st = .live)
  | _ => []

/-- A C-die takes another set. -/
def State.takeSet (s : State) (c : Nat) (k : Nat × Nat) : State :=
  let old := s.setOf c
  let sp := s.spareOf c
  let p := s.prof
  let f := s.fmg
  let take := s.takers c k
  let s := { s with prof := { p with sets := p.sets.set c k },
                    fmg := { f with crossed := f.crossed || decide (k.1 = 2), freed := f.freed && decide (k.1 = 0),
                                    leaving := if k.1 ≠ 0 ∨ old.1 = 0 ∨ !(s.clu? sp).claimed then f.leaving else f.leaving ++ [sp] } }
  take.foldl (fun s x => (s.packetOn x).setClu x fun y => { y with claimed := decide (k.1 ≠ 0) }) s

/-- The seam guard begins in core cycle `c` (R74). -/
def State.openSeam (s : State) (c : Nat) : State :=
  [0, 1].foldl (fun s d => s.modPd d fun x => { x with seamEnd := some (c + s.tRet + 16) }) s

/-- The sets of the round boundary at core cycle `c` are in force: the seam opens, the cycle starts at position 0, and C-die `i` is the
lowest-numbered whose set changed (R42, R74, R80). One CYCLE_POS stands for the device, so the tables of the other C-dies start anew with it:
DEDUCED (log entry 81). -/
def State.restartSets (s : State) (c i : Nat) : State :=
  let p := s.prof
  let k := p.sets.getD i (0, 0)
  ({ s with prof := { p with start := c / 4096, last := if k.1 = 2 then (2, i) else if k.1 = 3 then p.last else k } }).openSeam c

/-- C-dies take other sets at the round boundary at core cycle `c`; those that hold theirs already change nothing. -/
def State.takeSets (s : State) (c : Nat) (l : List (Nat × (Nat × Nat))) : State :=
  let l := l.filter fun e => decide (e.2 ≠ s.setOf e.1)
  let s' := l.foldl (fun s e => s.takeSet e.1 e.2) s
  match l with
  | [] => s
  | e :: _ => s'.restartSets c e.1

/-- The round boundary at which the oldest switch issued applies: its own, or after a repair of an M-die link the next one (R513). -/
def State.calBoundary (s : State) (q : CalReq) : Nat := if s.cycCeil ≤ q.due then q.due else roundCeil s.cycCeil

/-- A link of the M-die is being repaired. -/
def State.mlinkBusy (s : State) : Bool := (List.range 6).any fun k => decide (tFind s.repairs (9 + k) = some 1)

/-- The sets that a switch issued names, by C-die. -/
def CalReq.list (q : CalReq) : List (Nat × (Nat × Nat)) := (List.range 4).filterMap fun i => (q.sets.getD i none).map fun k => (i, k)

/-- The part of CAL_SWITCH's argument for C-die `c` (R544): the set asked for, none for unchanged; and whether it is refused. -/
def State.calArg (s : State) (arg : Word) (c : Nat) : Option (Nat × Nat) × Bool :=
  let b := fld arg (8 * c + 7) (8 * c)
  let lost := b % 64
  let p := s.prof.img
  match b / 64 with
  | 0 => (some (0, 0), !((p.packet.filter fun x => decide (x / 16 = c)).all fun x => decide ((s.clu? x).st = .live)))
  | 1 =>
    (some (1, lost), !(p.fallback.any (fun e => decide (e.1 = lost)) && p.packet.contains lost && decide (lost / 16 = c)
      && (s.spareFree c || decide (s.setOf c = (1, lost)))))
  | 2 => (some (2, 0), !(p.cross.any fun e => decide (e.1 = c)))
  | _ => (none, false)

/-- CAL_SWITCH (R544): refused, busy under R75, or issued; clusters that will take slots give up their task-mode work. -/
def State.calSwitchGo (s : State) (arg : Word) : State :=
  let l := (List.range 4).map (s.calArg arg)
  if s.fmg.crossed then s.mbxEnd 0x0D
  else if l.any (·.2) then s.mbxEnd 4
  else
    let s := (List.range 4).foldl (fun s c => match (l.getD c (none, false)).1 with
      | some (0, _) =>
        (s.prof.img.packet.filter fun x => decide (x / 16 = c) && !(s.clu? x).packet).foldl
          (fun s x => (s.setClu x fun k => { k with claimed := true }).reclaim x) s
      | some (1, _) =>
        if s.spareFree c then ((s.setClu (s.spareOf c) fun k => { k with claimed := true }).reclaim (s.spareOf c)).wakeClu (s.spareOf c) else s
      | _ => s) s
    (s.calIssue (l.map (·.1)) true).mbxRuns 2
def State.calSwitch (s : State) (arg : Word) : State := s.mbxStart fun s => s.calSwitchGo arg
def execCalSwitch (arg : Word) (s : State) : Host.Outcome State Fault Refusal := .next (s.calSwitch arg)

/-! ## SEAM_CLOSE -/

/-- SEAM_CLOSE (R74, R228, R418): the guard of a P-die ends. When both have ended, clusters that gave their slots back leave packet mode,
and packet-mode clusters that no set of the active tier names become IDLE. -/
def State.seamClose (s : State) (d : Nat) : State :=
  match (s.pd d).seamEnd with
  | none => s
  | some e =>
    let s := (s.upToCyc e).modPd d fun x => { x with seamEnd := none }
    if (s.pd (1 - d)).seamEnd.isSome then s
    else
      let f := s.fmg
      let s := { f.leaving.foldl (fun s c => 
          (s.setClu c fun k => { k with packet := false, claimed := false, eligAt := roundCeil (e + 1) }).active c) s with
                 fmg := { f with leaving := [] } }
      let used := tierClusters s.prof.img s.prof.tier
      s.prof.img.packet.foldl (fun s c =>
        if used.contains c ∨ (s.clu? c).st ≠ .live ∨ !(s.clu? c).packet ∨ s.dom (domClu c) ≠ 1 then s
        else { s with doms := tSet (fun _ => 0) s.doms (domClu c) 2 }) s
def execSeamClose (d : PDie) (s : State) : Host.Outcome State Fault Refusal := .next (s.seamClose d.val)

/-! ## The loss of a cluster (R511, R516) -/

/-- The lane's calendar in force no longer names the cluster. -/
def State.replaced (s : State) (c : Nat) : Bool :=
  match s.setOf (c / 16) with
  | (1, k) => decide (k = c) || !(s.prof.img.packet.contains c || decide (c = s.spareOf (c / 16)))
  | (2, _) => true
  | (3, _) => true
  | _ => !s.prof.img.packet.contains c

/-- The pages of a cluster with its cores: the unit that its recovery covers (R509). -/
def cluPages (c : Nat) : List Nat := (List.range 9).map (cluPage c) ++ (List.range 8).map fun k => corePage (8 * c + k)

/-- A retired cluster stays FAULTED, with its bit in FMG_RETIRED (R516, R532). -/
def State.retireClu (s : State) (c : Nat) : State :=
  let s := (cluPages c).foldl (fun s pg => s.pgFault pg) s
  (s.setClu c fun k => { k with st := .retired, resetEnd := none }).setRb (ra (mPage 3) (0x118 + c / 32 * 4)) (c % 32) true

/-- A cluster whose error is fatal stops issuing, and its recovery begins; an error in a cluster that recovers already retires it. -/
def State.cluLost (s : State) (c : Nat) : State :=
  let k := s.clu? c
  match k.st with
  | .retired => s
  | .lost => s.retireClu c
  | .resetting => s.retireClu c
  | .live =>
    let s := (cluPages c).foldl (fun s pg => s.pgFault pg) (s.setClu c fun k => { k with st := .lost, detached := false })
    let f := s.fmg
    let s := { s with fmg := { f with detached := tDel f.detached c } }
    if k.detached then s
    else if c = s.spareOf (c / 16) then
      (if k.claimed then
        let f := s.fmg
        ({ s with fmg := { f with claims := tDel f.claims (c / 16) } }).calIssue (setFor (c / 16) (s.crossSet (c / 16))) false
      else s)
    else if k.packet ∧ !s.replaced c then s.replaceClu (c / 16) c
    else s

/-- CLUSTER_FATAL. A trap storm, an error in the program section and a parity error of the CDC have been recorded by the commands in which they occur. -/
def State.clusterFatal (s : State) (c cause : Nat) : State :=
  let s := if cause = 0x07 ∨ cause = 0x0A ∨ cause = 0x0B then s else s.err (cluPage c 0) 3 cause 0 0
  s.cluLost c
def execClusterFatal (c : ClusterId) (cause : BitVec 16) (s : State) : Host.Outcome State Fault Refusal := .next (s.clusterFatal c.val cause.toNat)

/-- The CDC fields of class S that a profile names for a cluster, and its program and bank maps, are written back. -/
def State.reloadClu (s : State) (c : Nat) : State :=
  let cdc := fun (a : Nat) => decide (a / 4096 = cluPage c 2) && [0x100, 0x108, 0x10C, 0x110].contains (a % 4096)
  let s := (s.prof.img.fields.filter fun e => cdc e.1).foldl (fun s e => s.setReg e.1 e.2) s
  if s.prof.img.packet.contains c ∨ s.prof.img.spares.contains c then
    (s.prof.img.program.filter fun e => decide (e.1 / 16384 = c)).foldl
      (fun s e => s.cmemPut c (progAt (e.1 % 16384)) (leBytes 8 e.2.toNat)) s
  else s

/-- The SEC installs again the KEKs that it recorded for a cluster (R469). -/
def State.reinstall (s : State) (c : Nat) : State :=
  (s.sec.kekFrom.filter fun e => decide (e.1 / 16 = c)).foldl (fun s e => match tFind s.sec.keks e.2 with
    | some k => { s with kek := tPut s.kek e.1 k }
    | none => s) s

/-- Every context of a cluster leaves every queue and is reset, its locks abandoned with REASON = CLUSTER_RESET, its coprocessors and CDC cleared (R511 step 4). -/
def State.cluClear (s : State) (c : Nat) : State :=
  let s := [0, 1, 2, 3].foldl (fun s n => (s.copSettle c n).putCop c n Cop.idle) s
  let s := (List.range 64).foldl (fun s i => (s.leaveLocks (64 * c + i)).leaveChans (64 * c + i)) s
  let s := (List.range 64).foldl (fun s i =>
    let t := 64 * c + i
    let s := match tFind (s.teller (rgnOf t)).restore t with
      | some n => s.endRestore (rgnOf t) t n 0
      | none => s.tellerEnd t 0xFFFF0000 true
    ((s.resetThread t 1 1).putTh t Thread.fresh)) s
  let s := { s with kek := s.kek.filter fun e => !decide (e.1 / 16 = c), chans := s.chans.filter fun e => !decide (e.1 / 32 = c) }
  s.cdcInvalidate c

/-- CLUSTER_RESET: once the calendar has moved its slots, the lost cluster is reset within 50 µs. -/
def State.clusterReset (s : State) (c : Nat) : State :=
  if (s.clu? c).st ≠ .lost ∨ ((s.clu? c).packet ∧ !s.replaced c) then s
  else
    let s := (s.cluClear c).setClu c fun k => { k with st := .resetting, packet := false, claimed := false, resetEnd := some (s.now + 50 * usTicks) }
    (cluPages c).foldl (fun s pg => s.pgRecover pg) s
def execClusterReset (c : ClusterId) (s : State) : Host.Outcome State Fault Refusal := .next (s.clusterReset c.val)

/-- CLUSTER_RESET_DONE: the CDC's invalidation is complete, program, CDC layout and KEKs stand again; the cluster returns in task mode, and
both P-dies sweep its buffers. -/
def State.clusterResetDone (s : State) (c : Nat) : State :=
  match (s.clu? c).resetEnd with
  | none => s
  | some e =>
    let s := (s.upTo e).invalidated c
    let s := ((s.reloadClu c).reinstall c).setClu c fun k => { k with st := .live, resetEnd := none }
    let s := (cluPages c).foldl (fun s pg => s.pgRecovered pg) (s.active c)
    [0, 1].foldl (fun s d => s.modPd d fun x => { x with sweeps := x.sweeps ++ [(128 * c, 0x3F80)] }) s
def execClusterResetDone (c : ClusterId) (s : State) : Host.Outcome State Fault Refusal := .next (s.clusterResetDone c.val)

end Sys2Proof.Machine
end

