-- ==== Sys2Proof/Machine/Epochs.lean ====
section
/-! DEFINITION. The timebase, epoch boundaries, EPOCH_SYNC_IN, commits, clearings and the retirement of generations (R400 to R419). -/

namespace Sys2Proof.Machine

/-! ## The timebase (R400, R401) -/

/-- A register of the EPC page. -/
def aEpc (off : Nat) : Nat := ra (mPage 0) off

/-- The signed difference of two timebase values. -/
def tbDiff (a b : Nat) : Int := toSigned 64 ((a + 2 ^ 64 - b % 2 ^ 64) % 2 ^ 64)

/-- A timebase value moved by a signed number of ns. -/
def tbMove (a : Nat) (d : Int) : Nat := (((a : Int) + d) % 2 ^ 64).toNat

/-- The tick at which the timebase reaches value `v`, or now if it has. -/
def State.tbTick (s : State) (v : Nat) : Nat :=
  let d := tbDiff v s.tb
  if d ≤ 0 then s.now
  else
    let r := ((tbUnit : Int) + toSigned 32 (s.reg aTbRate).toNat).toNat
    let goal := (s.tbFine / (24 * tbUnit) + d.toNat) * (24 * tbUnit)
    s.now + (goal - s.tbFine + r - 1) / r

/-- The count so far becomes the base of what follows: done before RATE changes. -/
def State.tbRebase (s : State) : State := { s.tbKeep with tbNum := s.tbFine % (24 * tbUnit * 2 ^ 64), tbAt := s.now }

/-- Change what the EPC holds. -/
def State.modEpc (s : State) (f : Epc → Epc) : State := { s with epc := f s.epc }

/-- TB_STEP: a write to EPC_TB_STEP_HI adds the signed step to the timebase and to the target (R400, R401). -/
def State.tbStep (s : State) (hi : Word) : State :=
  let d := toSigned 64 ((s.reg (aEpc 0x15C)).toNat + 2 ^ 32 * hi.toNat)
  let m : Int := (24 * tbUnit * 2 ^ 64 : Nat)
  let s := { s.tbKeep with tbNum := (((s.tbFine : Int) + d * (24 * tbUnit : Nat)) % m).toNat, tbAt := s.now }
  s.modEpc fun e => { e with target := tbMove e.target d, returnTb := e.returnTb.map fun v => tbMove v d }
def execTbStep (hi : Word) (s : State) : Host.Outcome State Fault Refusal := .next (s.tbStep hi)

/-- TB_READ: a read of EPC_TB_LO answers the low half and latches the upper. -/
def State.tbRead (s : State) : Word × State := (nw s.tb, s.setReg (aEpc 0x154) (nw (s.tb / 2 ^ 32)))
def execTbRead (s : State) : Host.Outcome State Fault Refusal := .next (s.tbRead.2.emit (.data s.tbRead.1))

/-- PPS_IN_EDGE. -/
def State.ppsIn (s : State) : State := (s.setPair (aEpc 0x164) s.tb).raise (mPage 0) 8
def execPpsInEdge (s : State) : Host.Outcome State Fault Refusal := .next s.ppsIn

/-- PPS_OUT_PULSE: the timebase passes the next whole multiple of 10^9 ns. -/
def State.ppsOut (s : State) : State :=
  if s.rb (aEpc 0x100) 28 then (s.upTo (s.tbTick ((s.tb / 1000000000 + 1) * 1000000000))).emit .pps else s
def execPpsOutPulse (s : State) : Host.Outcome State Fault Refusal := .next s.ppsOut

/-! ## Boundaries (R402, R403, R406) -/

/-- The active LEN in ns. -/
def State.epcLen (s : State) : Nat := s.af (aEpc 0x104) 25 0 * 1000

/-- EPC_CTRL.EN. -/
def State.epcOn (s : State) : Bool := s.rb (aEpc 0x100) 31

/-- EPC_CTRL.SYNC_EN. -/
def State.syncEn (s : State) : Bool := s.rb (aEpc 0x100) 30

/-- The first target: the smallest timebase value at least 20 µs on that stands on the grid. -/
def State.firstTarget (s : State) : Nat :=
  let len := max 1 (s.af (aEpc 0x104) 25 0)
  (nextCongr (s.tb + 20000) (s.rf (aEpc 0x108) 25 0 % len * 1000) (len * 1000)) % 2 ^ 64

/-- EPC_ENABLE: a write of EPC_CTRL; EN from 0 to 1 places B0 and starts the page, from 1 to 0 stops it (R402). -/
def State.epcCtrl (s : State) (v : Word) : State :=
  let was := s.epcOn
  let s := if !bit v 31 ∧ was ∧ s.pgState (mPage 0) < 4 then s.setPg (mPage 0) 1 else s
  let s := s.setReg (aEpc 0x100) (v &&& 0xF0000000)
  if bit v 31 ∧ !was then
    let s := s.modEpc fun e => { e with target := s.firstTarget, len := s.epcLen, corr := none, cleared := false, noticed := false }
    let s := (s.setReg (aEpc 0x110) 0).setPg (mPage 0) 2
    if s.af (aEpc 0x104) 25 0 ≤ s.rf (aEpc 0x108) 25 0 then s.err (mPage 0) 0 2 0x108 0 else s
  else s
def execEpcEnable (ctrl : Word) (s : State) : Host.Outcome State Fault Refusal := .next (s.epcCtrl ctrl)

/-- EPC_NEXT: the target, or between a clearing and the close of its window the next one as it then stands (R406). -/
def State.epcNext (s : State) : Nat :=
  if s.epc.cleared then tbMove s.epc.target ((s.epcLen : Int) + s.epc.corr.getD 0) else s.epc.target

/-- The window of the boundary that has been cleared closes: a miss is counted, and the next target stands (R406, R407). -/
def State.closeWindow (s : State) : State :=
  if !s.epc.cleared then s
  else
    let s := if s.syncEn ∧ s.epc.corr.isNone then s.bump (aEpc 0x134) else s
    s.modEpc fun e => { e with target := s.epcNext, len := s.epcLen, corr := none, cleared := false, noticed := false }

/-- SYNC_WINDOW_CLOSE, at Bk + LEN / 8. -/
def State.syncClose (s : State) : State :=
  if s.epcOn ∧ s.epc.cleared then (s.upTo (s.tbTick (tbMove s.epc.target (s.epc.len / 8 : Nat)))).closeWindow else s
def execSyncWindowClose (s : State) : Host.Outcome State Fault Refusal := .next s.syncClose

/-- SYNC_EDGE: an edge on EPOCH_SYNC_IN (R406, R407). -/
def State.syncEdge (s : State) : State :=
  if !s.epcOn ∨ !s.syncEn then s
  else
    let s := if (s.epc.len / 8 : Nat) < tbDiff s.tb s.epc.target then s.closeWindow else s
    let d := tbDiff s.tb s.epc.target - toSigned 16 (s.rf (aEpc 0x10C) 15 0)
    let w : Int := (s.epc.len / 8 : Nat)
    if w < d ∨ d < -w ∨ s.epc.corr.isSome then s.bump (aEpc 0x130)
    else
      let lim : Int := min w 100000000
      let c := max (-lim) (min lim d)
      let s := (s.modEpc fun e => { e with corr := some c }).setReg (aEpc 0x124) (iw c)
      if c = d then s else s.bump (aEpc 0x138)
def execSyncEdge (s : State) : Host.Outcome State Fault Refusal := .next s.syncEdge

/-! ## Commits (R413 to R419) -/

/-- EPC_COMMIT_STAT. -/
def aCommit : Nat := aEpc 0x120
def State.commitOpen (s : State) : Bool := s.rb aCommit 31

/-- The stored words that hold G fields. -/
def gWords (t : Tbl Word) : Tbl Word := t.filter fun e => decide (gMask e.1 ≠ 0)

/-- The addresses whose shadow differs from the active value. -/
def State.shadowed (s : State) : List Nat :=
  (((gWords s.regs).map (·.1)) ++ ((gWords s.act).map (·.1))).filter fun a => decide ((s.reg a ^^^ s.actReg a) &&& gMask a ≠ 0)

/-- The shapers whose words 3 and 4 differ from the active values. -/
def State.shapersPend (s : State) : List Nat := tKeys (fun b => decide (b.w3 ≠ b.a3 ∨ b.w4 ≠ b.a4)) s.shapers

/-- A page holds shadows that differ from its active values: SHADOW_PEND (R537). -/
def State.shadowPend (s : State) (pg : Nat) : Bool :=
  (s.shadowed.any fun a => decide (a / 4096 = pg)) ||
    ([0, 1].any fun d => decide (pg = pdPage d 6) && s.shapersPend.any fun k => decide (k / 8192 = d))

/-- The shadows change a calendar: TIER differs, or the commit carries a profile (R75, R77). -/
def State.calChange (s : State) : Bool := decide (fld (s.reg aEpcCal) 1 0 ≠ s.af aEpcCal 1 0) || s.epc.prof.isSome

/-- The clusters that take slots again when the commit's tier takes C-dies back from their fallback sets (R419). -/
def State.tierTakers (s : State) : List Nat :=
  if fld (s.reg aEpcCal) 1 0 = s.af aEpcCal 1 0 ∨ s.epc.prof.isSome then []
  else (((List.range 4).filter fun i => decide (s.setOf i ≠ (0, 0))).map fun i => s.takers i (0, 0)).flatten

/-- The profile that the commit leaves in force. -/
def State.nextImg (s : State) : Profile := (s.epc.prof.map (·.2)).getD s.prof.img

/-- The tier that the shadows select. -/
def State.shadowTier (s : State) : Nat := fld (s.reg aEpcCal) 1 0

/-- The first round boundary at or after the target, as a core cycle; one round later after a return to MAIN within 10 µs of the
target (R403, R404). -/
def State.boundary (s : State) : Nat × Bool :=
  let t := s.tbTick s.epc.target
  let c := roundCeil (s.upTo t).cycCeil
  match s.epc.returnTb with
  | none => (c, false)
  | some v => if (tbDiff v s.epc.target).natAbs ≤ 10000 then (c + 4096, true) else (c, false)

/-- A CAL_SWITCH takes effect at core cycle `c`: one that has been issued will, or one has (R77, R415). -/
def State.switchAt (s : State) (c : Nat) : Bool :=
  (!s.mlinkBusy && s.fmg.reqs.any fun q => decide (s.calBoundary q = c)) || decide (s.fmg.applied = c)

/-- The pages that answer not ready because they are FAULTED or RECOVERING and hold shadows of the commit. -/
def State.badPages (s : State) : List Nat :=
  let pages := (s.shadowed.map (· / 4096)) ++ (s.shapersPend.map fun k => pdPage (k / 8192) 6)
  pages.filter fun pg => decide (s.pgState pg = 4 ∨ s.pgState pg = 5)

/-- The lowest cause for which the commit slips; 0: every block is ready (R414, R513). -/
def State.slipCause (s : State) : Nat :=
  if s.oldLive then 1
  else if s.epc.prof.isSome ∧ s.now < s.epc.checkEnd then 2
  else if s.calChange ∧ s.switchAt s.boundary.1 then 3
  else if s.tierAsleep s.nextImg s.shadowTier ∨ s.tierTakers.any s.saving then 4
  else if s.badPages ≠ [] ∨ s.mlinkBusy then 5
  else 0

/-- NOT_BEFORE is reached at the notice of a clearing that will bring EPC_EPOCH to `n` (R417). -/
def reached (n notBefore : Nat) : Bool := decide (notBefore = 0 ∨ (n % 2 ^ 24 + 2 ^ 24 - notBefore) % 2 ^ 24 < 2 ^ 23)

/-- Every shadow is latched (R413, R416). -/
def State.latchAll (s : State) : State :=
  let sh := (s.shapers.filter fun e => decide (e.2.w3 ≠ e.2.a3 ∨ e.2.w4 ≠ e.2.a4)).map fun e => (e.1, (e.2.w3, e.2.w4))
  let g := s.gsa.foldl (fun t e => if e.1 % 4 = 0 then tPut (tDel t (e.1 + 1)) (e.1 + 1) { e.2 with phase := 1 } else tPut t e.1 e.2) []
  ({ s with gsa := g }).modEpc fun e => { e with latch := some (gWords s.regs, sh) }

/-- The latch is undone: the commit stays open, and latched pointers return to the shadow store unless a later one stands there. -/
def State.unlatch (s : State) : State :=
  let g := s.gsa.foldl (fun t e =>
    if e.1 % 4 = 1 then (if (tFind s.gsa (e.1 - 1)).isSome then t else tPut t (e.1 - 1) { e.2 with phase := 0 }) else tPut t e.1 e.2) []
  ({ s with gsa := g }).modEpc fun e => { e with latch := none }

/-- A switch to another set than the primary: the tier is 0 from now on, active and shadow (R419). A commit latched for a clearing at a later
boundary `clr` goes back to its shadows until its next notice; one at the same boundary is judged there (R77). DEDUCED (log entry 206). -/
def State.tierZero (s : State) (c clr : Nat) : State :=
  let p := s.prof
  let s := ({ s with prof := { p with tier := 0, start := c / 4096 }, act := tSet regReset s.act aEpcCal 0 }).setReg aEpcCal 0
  if s.epc.latch.isSome ∧ clr ≠ c then s.unlatch else s

/-- CAL_SWITCH_APPLY: all dies take the sets together (R66, R73, R74, R419). It waits while a cluster that takes slots still has a context to
save: DEDUCED (log entry 205). A switch that changes no set opens no seam and leaves SET_KIND and SET_INDEX: DESIGN CHOICE (log entry 207). -/
def State.calApply (s : State) : State :=
  match s.fmg.reqs with
  | [] => s
  | q :: r =>
    let l := q.list
    let away := l.any fun (e : Nat × (Nat × Nat)) => decide (e.2.1 ≠ 0)
    let take := ((l.filter fun e => decide (e.2 ≠ s.setOf e.1)).map fun e => s.takers e.1 e.2).flatten
    let s := take.foldl (fun s x => s.saveAll x) s
    if s.mlinkBusy ∨ (away ∧ s.prof.tier ≠ 0 ∧ s.tierAsleep s.prof.img 0) ∨ take.any s.saving then s
    else
      let clr := s.boundary.1
      let c := s.calBoundary q
      let s := s.upToCyc c
      let f := s.fmg
      let s : State := { s with fmg := { f with reqs := r, applied := c, tierWas := s.af aEpcCal 1 0 } }
      let s : State := if away && decide (s.prof.tier ≠ 0) then s.tierZero c clr else s
      let s := s.takeSets c l
      if q.mbx then s.mbxEndOf 2 0 else s
def execCalSwitchApply (s : State) : Host.Outcome State Fault Refusal := .next s.calApply

/-- CLEARING_NOTICE, at Bk − 16 µs (R403, R413). -/
def State.notice (s : State) : State :=
  if !s.epcOn then s
  else
    let s := s.closeWindow
    if s.epc.noticed then s
    else
      let s := s.upTo (s.tbTick (tbMove s.epc.target (-16000)))
      let s := s.modEpc fun e => { e with noticed := true, notReady := [] }
      let n := (s.reg (aEpc 0x110)).toNat + 1
      if !s.commitOpen ∨ s.epc.latch.isSome ∨ !reached n s.epc.notBefore then s.setRf aCommit 29 27 0
      else
        let s := s.tierTakers.foldl (fun s x => s.saveAll x) s
        let c := s.slipCause
        let s := s.setRf aCommit 29 27 c
        if c = 0 then s.latchAll
        else (s.bump (aEpc 0x12C)).modEpc fun e => { e with notReady := s.badPages }
def execClearingNotice (s : State) : Host.Outcome State Fault Refusal := .next s.notice

/-! ## Clearings (R403 to R405, R408, R409, R413 to R415, R422) -/

/-- The latched words of the shapers become active. -/
def putShapers : Tbl Bucket → Tbl (Word × Word) → Tbl Bucket
  | t, [] => t
  | t, e :: r => putShapers (tUpd (fun _ => Bucket.fresh) t e.1 fun b => { b with a3 := e.2.1, a4 := e.2.2 }) r

/-- Phase one of every latched GSA, in the slot of the new generation's parity (R322). -/
def State.gsaOne (s : State) : State :=
  let s := (s.gsa.filter fun e => decide (e.1 % 4 = 1)).foldl
    (fun s e => s.tbRedo (e.1 / 4) fun s => s.polPutAll (e.1 / 4) (1 + s.gen % 2) (nw e.2.x)) s
  { s with gsa := s.gsa.foldl (fun t e => if e.1 % 4 = 1 then tPut t (e.1 + 1) { e.2 with phase := 2 } else tPut t e.1 e.2) [] }

/-- Phase two, in the other slot; the entry is free (R322). -/
def State.gsaTwo (s : State) : State :=
  let s := (s.gsa.filter fun e => decide (e.1 % 4 = 2)).foldl
    (fun s e => s.tbRedo (e.1 / 4) fun s => s.polPutAll (e.1 / 4) (1 + (s.gen + 1) % 2) (nw e.2.x)) s
  { s with gsa := s.gsa.filter fun e => !decide (e.1 % 4 = 2) }

/-- The balances of the punt policers whose rate or burst changed are full (R390). -/
def State.fillPunters (s : State) : State :=
  [0, 1].foldl (fun s d => (List.range 32).foldl (fun s n =>
    let r := aCls d (0x400 + 8 * n)
    if s.af r 23 0 = fld (s.oldReg r) 23 0 ∧ s.af (r + 4) 23 0 = fld (s.oldReg (r + 4)) 23 0 then s
    else { s with punters := tPut s.punters (d * 32 + n) { s.punter d n with bal := (s.af (r + 4) 23 0 * 65536 : Nat), last := s.tb } }) s) s

/-- The pools take their new thresholds (R409, R368). -/
def State.relevelAll (s : State) : State := (s.pools.map (·.1)).foldl (fun s k => s.relevel (k / 64) (k % 64)) s

/-- The value of a register with the fields that a profile names; MAC_PORT_CFG.EN is never among them (R498). -/
def State.fieldWord (s : State) (m : RegDef → Word) (e : Nat × Word) : Word :=
  match regDef? e.1 with
  | none => s.reg e.1
  | some d =>
    let k := if pageKind (e.1 / 4096) |>.any (fun k => decide (k.1 = .mac)) then (m d) &&& 0x7FFFFFFF else m d
    (s.reg e.1 &&& ~~~ k) ||| (e.2 &&& k)

/-- The fields of some classes that a profile names are stored, but for EPC_CTRL; the timebase counts at another RATE from now on (R400). -/
def State.putFields (s : State) (fs : List (Nat × Word)) (m : RegDef → Word) : State :=
  (fs.filter fun e => decide (e.1 ≠ aEpc 0x100)).foldl (fun s e => s.setReg e.1 (s.fieldWord m e)) s.tbRebase

/-- EPC_CTRL as a profile names it: once LEN and PHASE stand, EN places B0 and starts the page (R402). With `en` false EN keeps its value:
it is 0 when power-up ends (R498), and a cold switch keeps the epoch grid (R423). DEDUCED (log entry 209). -/
def State.putEpcCtrl (s : State) (fs : List (Nat × Word)) (en : Bool) : State :=
  (fs.filter fun e => decide (e.1 = aEpc 0x100)).foldl (fun s e =>
    let v := s.fieldWord (·.rwL) e
    s.epcCtrl (if en then v else setBit v 31 s.epcOn)) s

/-- The program words and the bank-phase maps of the packet-mode clusters and the spares are in place (R591). -/
def State.loadPrograms (s : State) (p : Profile) (clus : List Nat) : State :=
  (p.program.filter fun e => clus.contains (e.1 / 16384)).foldl
    (fun s e => s.cmemPut (e.1 / 16384) (progAt (e.1 % 16384)) (leBytes 8 e.2.toNat)) (clus.foldl (fun s c => s.setClu c fun k => { k with entry := p.entry }) s)

/-- The calendar tier or the profile of the commit becomes active at core cycle `c`, and the seam opens (R72, R74, R418, R422). -/
def State.newCalendars (s : State) (c : Nat) : State :=
  match s.epc.prof with
  | some (n, p) =>
    let q := s.prof
    let fresh := p.spares.filter fun x => !(q.img.spares.contains x || q.img.packet.contains x)
    let s := ({ s with prof := { q with active := n, img := p, tier := s.af aEpcCal 1 0, start := c / 4096 } }).loadPrograms p fresh
    let s := (s.putFields p.fields (·.rwL)).putEpcCtrl p.fields true
    let f := s.fmg
    let s := { s with fmg := { f with crossed := false, freed := true } }
    let x := s.sec
    let s := { s with sec := { x with profWait := none, meas := match x.profWait with
      | some (_, dp, ds, _) => tPut (tPut x.meas 3 dp) 4 ds
      | none => x.meas } }
    let s := s.setReg (aEpc 0x170) (nw (n * 2 ^ 30 + s.rf (aEpc 0x170) 29 28 * 2 ^ 28))
    ((s.modEpc fun e => { e with prof := none }).openSeam c).mbxEndOf 1 0
  | none =>
    if s.af aEpcCal 1 0 = s.prof.tier then s
    else
      let s := ((List.range 4).filter fun i => decide (s.setOf i ≠ (0, 0))).foldl (fun s i => s.takeSet i (0, 0)) s
      let q := s.prof
      ({ s with prof := { q with tier := s.af aEpcCal 1 0, start := c / 4096 } }).openSeam c

/-- The latched values become active in all blocks in the same round, and the generation advances (R408, R409). -/
def State.applyCommit (s : State) (c : Nat) (regs : Tbl Word) (sh : Tbl (Word × Word)) : State :=
  let s := { s with old := s.act, act := regs, shapers := putShapers s.shapers sh, gen := (s.gen + 1) % 4, oldLive := true, clearAt := s.now }
  let s := s.modEpc fun e => { e with latch := none, clearCyc := c }
  let s := (s.hwMark aCommit (maskOf 30 30)).setReg aCommit (nw (2 ^ 30 + (s.reg (aEpc 0x110)).toNat % 2 ^ 24))
  ((((s.gsaOne).fillPunters).relevelAll).newCalendars c).raise (mPage 0) 10

/-- A cluster that a debugger released may be attached at this clearing: the switch that detached it has been made, and every cluster that
a debugger detached in its C-die after it is released as well. A later clearing attaches it otherwise: DEDUCED (log entry 208). -/
def State.attachable (s : State) (e : Nat × ((Nat × Nat) × Bool)) : Bool :=
  let f := s.fmg
  e.2.2 && (tFind f.claims (e.1 / 16)).isNone && !(f.reqs.any fun q => (q.sets.getD (e.1 / 16) none).isSome) &&
    f.detached.all fun o => decide (o.1 / 16 ≠ e.1 / 16) || o.2.2 || decide (o.2.1.1 < e.2.1.1)

/-- The clusters that a debugger released are attached again: their C-dies go back to the sets that they held before, one with several to
the set before the first of them (R78, R80, R182). -/
def State.reattach (s : State) (c : Nat) : State :=
  let l := s.fmg.detached.filter s.attachable
  let s := l.foldl (fun s e =>
    let f := s.fmg
    let s := { s with fmg := { f with detached := tDel f.detached e.1 } }
    s.packetOn e.1) s
  s.takeSets c ((List.range 4).filterMap fun i =>
    let sets := (l.filter fun e => decide (e.1 / 16 = i)).map (·.2.1)
    match sets with
    | [] => none
    | k :: r => some (i, r.foldl (fun a b => if b.1 < a.1 then b else a) k))

/-- CLEARING (R403 to R405); its notice precedes it. -/
def State.clear (s : State) : State :=
  if !s.epcOn then s
  else
    let s := s.notice
    let b := s.boundary
    let s := s.upToCyc b.1
    let s := if b.2 then s.bump (aEpc 0x128) else s
    let s := s.setReg (aEpc 0x110) (s.reg (aEpc 0x110) + 1)
    let s := s.modEpc fun e => { e with cleared := true, returnTb := none }
    let s := if s.rb (aEpc 0x100) 29 then s.emit .epochMark else s
    let s := s.raise (mPage 0) 9
    let s := match s.epc.latch with
      | none => s
      | some (regs, sh) =>
        let tier := if s.fmg.applied = b.1 then s.fmg.tierWas else s.af aEpcCal 1 0
        let same := decide (fld (tGet regReset regs aEpcCal) 1 0 = tier)
        if (!same || s.epc.prof.isSome) && s.switchAt b.1 then s.unlatch.setRf aCommit 29 27 3
        else s.applyCommit b.1 (if same then tSet regReset regs aEpcCal (nw (s.af aEpcCal 1 0)) else regs) sh
    s.reattach b.1
def execClearing (s : State) : Host.Outcome State Fault Refusal := .next s.clear

/-! ## GEN_COMMIT (R417 to R419) -/

/-- GEN_COMMIT: a commit opens; the clusters that its tier needs are woken. -/
def State.genCommitGo (s : State) (nb : Nat) : State :=
  if s.commitOpen then s.mbxEnd 0x0C
  else if decide (s.shadowTier ≠ s.af aEpcCal 1 0) && (s.fmg.crossed || (!s.fmg.freed && s.prof.sets.any fun k => decide (k.1 ≠ 0))) then s.mbxEnd 0x0D
  else
    let s := (s.setRb aCommit 31 true).modEpc fun e => { e with notBefore := nb }
    let s := s.tierTakers.foldl (fun s x => (s.setClu x fun k => { k with claimed := true }).reclaim x) s
    (s.wakeTier s.nextImg s.shadowTier).mbxEnd 0x0B
def State.genCommit (s : State) (nb : Nat) : State := s.mbxStart fun s => s.genCommitGo nb
def execGenCommit (notBefore : BitVec 24) (s : State) : Host.Outcome State Fault Refusal := .next (s.genCommit notBefore.toNat)

/-- Every shadow holds its active value again. -/
def State.dropShadows (s : State) : State :=
  let s := s.shadowed.foldl (fun s a => s.setReg a (s.actReg a)) s
  let s := { s with shapers := tMap (fun _ (b : Bucket) => { b with w3 := b.a3, w4 := b.a4 }) s.shapers,
                    gsa := s.gsa.filter fun e => decide (e.1 % 4 = 2) }
  s.modEpc fun e => { e with latch := none, prof := none }

/-- GEN_DISCARD: the open commit, if there is one, is closed. -/
def State.genDiscardGo (s : State) : State := (s.dropShadows.setRb aCommit 31 false).mbxEnd 0x0E
def State.genDiscard (s : State) : State := s.mbxStart fun s => s.genDiscardGo
def execGenDiscard (s : State) : Host.Outcome State Fault Refusal := .next s.genDiscard

/-! ## Retirement (R410 to R412) -/

/-- The stamp of the older generation. -/
def State.oldGen (s : State) : Nat := (s.gen + 3) % 4

/-- The packets in flight with stamp `g` on a P-die (R410). -/
def State.inflightOn (s : State) (d g : Nat) : Nat :=
  let x := s.pd d
  let n := fun (l : List Pkt) => (l.filter fun (k : Pkt) => decide (k.gen = g) && !k.stale).length
  (x.ingress.map fun e => n e.2).foldl (· + ·) 0 + n x.holdq + n x.fragWait + n x.hold + n x.ready
    + (x.xwait.filter fun t => decide (t.gen = g) && !t.stale).length
    + (x.xfly.filter fun c => decide (c.tx.gen = g) && !c.tx.stale).length
    + n ((s.flights.filter fun f => decide (f.die = d)).filterMap (·.pkt))

/-- The packets in flight with stamp `g`. -/
def State.inflight (s : State) (g : Nat) : Nat := s.inflightOn 0 g + s.inflightOn 1 g

/-- Mark a packet of stamp `g` stale. -/
def markPkt (g : Nat) (k : Pkt) : Pkt := if k.gen = g then { k with stale := true } else k
def markTx (g : Nat) (t : Tx) : Tx := if t.gen = g then { t with stale := true } else t

/-- Every packet in flight with stamp `g` is stale (R412). -/
def State.markStale (s : State) (g : Nat) : State :=
  let s := [0, 1].foldl (fun s d => s.modPd d fun x =>
    { x with ingress := tMap (fun _ l => l.map (markPkt g)) x.ingress, holdq := x.holdq.map (markPkt g),
             fragWait := x.fragWait.map (markPkt g), hold := x.hold.map (markPkt g), ready := x.ready.map (markPkt g),
             xwait := x.xwait.map (markTx g), xfly := x.xfly.map fun c => { c with tx := markTx g c.tx } }) s
  { s with flights := s.flights.map fun f => { f with pkt := f.pkt.map (markPkt g) } }

/-- EPC_DRAIN_TMO in ticks; 0 acts as 1 µs. -/
def State.drainTicks (s : State) : Nat := max 1 (s.rf (aEpc 0x144) 15 0) * usTicks

/-- GEN_RETIRE: at the first round boundary at which nothing is in flight, or the drain timeout has passed, and never earlier than 4
rounds after the clearing. -/
def State.genRetire (s : State) : State :=
  if !s.oldLive then s
  else
    let c0 := roundCeil (max s.cycCeil (s.epc.clearCyc + 16384))
    let empty := decide (s.inflight s.oldGen = 0)
    let c := if empty then c0 else max c0 (roundCeil (s.upTo (s.clearAt + s.drainTicks)).cycCeil)
    let s := s.upToCyc c
    let s := if empty then s else s.bump (aEpc 0x13C)
    let s := s.markStale s.oldGen
    { s.gsaTwo with oldLive := false, old := [] }
def execGenRetire (s : State) : Host.Outcome State Fault Refusal := .next s.genRetire

end Sys2Proof.Machine
end

