-- ==== Sys2Proof/Machine/Reset.lean ====
section
/-! DEFINITION. Block resets: page reset, the reset of the data path, and power-on reset (R423, R446, R497, R533). -/

namespace Sys2Proof.Machine

/-- The registers of a page that a soft reset keeps: EVT_EN and EVT_ROUTE, the Tally, and what the page's identity says (R533); DMC_REMAP (R451);
and what only PORST_N or a LOCK ends in the SEC page: TAMPER, RNG_FAIL, DEBUG_UNLOCKED, the failed unlocks, OWNED, the count of zeroizations and the
permissions granted (R455, R464, R465, R473, R474, R476). -/
def keptOnReset (a : Nat) : Bool :=
  [0x014, 0x01C].contains (a % 4096)
    || ((pageKind (a / 4096)).any (fun k => decide (k.1 = .dmc)) && decide (0x300 ≤ a % 4096 ∧ a % 4096 < 0x400))
    || (decide (a / 4096 = mPage 4) && [0x100, 0x108, 0x10C].contains (a % 4096))

/-- The registers that `p` selects return to their reset values, shadows and active values with them; and those of the pages that `p` selects,
but for what a soft reset keeps. -/
def State.clearRegs (s : State) (p : Nat → Bool) : State :=
  { s with regs := s.regs.filter fun e => !p e.1, act := s.act.filter fun e => !p e.1, old := s.old.filter fun e => !p e.1 }
def State.resetRegs (s : State) (p : Nat → Bool) : State := s.clearRegs fun a => p (a / 4096) && !keptOnReset a

/-- The entries of a table whose key does not lie in block `n` of `k` keys. -/
def tDrop (t : Tbl α) (k n : Nat) : Tbl α := t.filter fun e => !decide (e.1 / k = n)

/-- The locks of an Escrow page are gone. -/
def State.clearLocks (s : State) (pg : Nat) : State := { s with locks := s.locks.filter fun e => !decide (e.1 / 1024 = pg) }

/-- The contexts of a device core, as after power-on; their locks are released as abandoned. -/
def State.clearCore (s : State) (k : Nat) : State :=
  (List.range 8).foldl (fun s i => (s.resetThread (8 * k + i) 1 0).putTh (8 * k + i) Thread.fresh) s

/-- The internal state of a P-die's block (die page `p` of R524) returns to its reset values; array contents stay. -/
def State.clearPdie (s : State) (d p : Nat) : State :=
  match p with
  | 0 =>
    { s.modPd d fun x => { x with hold := [], holdq := [], ready := [], reloc := none,
                                  rings := x.rings.filter fun e => decide (4 ≤ e.1), seamEnd := none } with
      punters := tDrop s.punters 32 d, wlocks := s.wlocks.filter fun e => !decide (e.1 / 4096 = pdPage d 0) }
  | 1 => s.modPd d fun x => { x with frags := [], fragWait := [] }
  | 2 => s.modPd d fun x => { x with learnq := [], learning := none }
  | 3 =>
    { s.modPd d fun x => { x with life := [] } with wlocks := s.wlocks.filter fun e => !decide (e.1 / 4096 = pdPage d 3) }
  | 4 => { s with vault := tDrop s.vault (2 ^ 19) d, vltBad := tDrop s.vltBad (2 ^ 19) d }
  | 5 =>
    { s.modPd d fun x => { x with rings := x.rings.filter fun e => decide (e.1 < 4), sweeps := [], sweep := none, badOld := [] } with
      bufs := tDrop s.bufs (2 ^ 18) d, bufBad := tDrop s.bufBad (2 ^ 18) d, pools := tDrop s.pools 64 d, used := tDrop s.used 256 d }
  | 6 =>
    { s.modPd d fun x => { x with fifo := [], tmBusy := 0 } with
      queues := tDrop s.queues 32768 d, shapers := tDrop s.shapers 8192 d, policers := tDrop s.policers 8192 d, tports := tDrop s.tports 64 d }
  | _ => s.modPd d fun x => { x with xwait := [], xfly := [], xfree := 0 }

/-- The internal state of a slice's block returns to its reset values. -/
def State.clearSlice (s : State) (d sl p : Nat) : State :=
  match p with
  | 0 =>
    { s.modPd d fun x => { x with tsFifo := tDel x.tsFifo sl } with
      pauses := s.pauses.filter fun e => !decide (e.1 / 64 = 8 * d + sl), links := s.links.filter fun e => !decide (e.1 / 8 = 8 * d + sl),
      portOff := s.portOff.filter fun e => !decide (e.1 / 16 = 8 * d + sl) }
  | 1 => s.modPd d fun x => { x with ingress := tDel x.ingress sl }
  | 2 => s.modPd d fun x => { x with egress := tDel x.egress sl }
  | _ => s

/-- The internal state of the block at a page returns to its reset values (R533). -/
def State.clearBlock (s : State) (pg : Nat) : State :=
  let die := pg / 4096
  let g := pg / 256 % 16
  let f := pg / 16 % 16
  let c := die * 16 + g * 4 + f
  match pageKind pg with
  | some (.core, _) => s.clearCore (die * 128 + g * 32 + (f - 4) * 8 + pg % 16)
  | some (.clu, _) => s.setClu c fun k => { k with traps := 0, trapRound := 0, stall := 0, lastAct := s.cyc }
  | some (.cmem, _) => s.setClu c fun k => { k with fill := none }
  | some (.cdc, _) => s.cdcInvalidate c
  | some (.esc, _) => { s.clearLocks pg with chans := if f = 15 then s.chans else tDrop s.chans 32 c }
  | some (.cpx, _) => [0, 1, 2, 3].foldl (fun s n => s.putCop c n Cop.idle) s
  | some (.tel, _) => { s with tellers := tDel s.tellers (4 * die + g), tcbs := tDrop s.tcbs 4096 (4 * die + g) }
  | some (.pol, _) => { s with wlocks := s.wlocks.filter fun e => !decide (e.1 / 4096 = pg) }
  | some (.mac, _) => s.clearSlice (die - 4) g 0
  | some (.prs, _) => s.clearSlice (die - 4) g 1
  | some (.cph, _) => s.clearSlice (die - 4) g 2
  | some (.cls, _) => s.clearPdie (die - 4) 0
  | some (.frg, _) => s.clearPdie (die - 4) 1
  | some (.lrn, _) => s.clearPdie (die - 4) 2
  | some (.sat, _) => s.clearPdie (die - 4) 3
  | some (.vlt, _) => s.clearPdie (die - 4) 4
  | some (.bpm, _) => s.clearPdie (die - 4) 5
  | some (.tm, _) => s.clearPdie (die - 4) 6
  | some (.dmc, _) => { s with fills := tDel s.fills ((die - 4) * 16 + pg % 16), pulled := tDel s.pulled ((die - 4) * 16 + pg % 16) }
  | some (.epc, _) => { s with epc := Epc.fresh }
  | some (.fmg, _) => { s with fmgq := [], fmg := FmgState.fresh }
  | some (.sec, _) =>
    let x := s.sec
    { s with sec := { Sec.fresh with owner := x.owner, ownerLock := x.ownerLock, svnBoot := x.svnBoot, svnProf := x.svnProf, pins := x.pins,
                                     zeroEnd := x.zeroEnd, meas := x.meas, cold := x.cold, puf := x.puf, burn := x.burn,
                                     task := x.task } }
  | some (.hst, _) => { s with hstFill := none }
  | some (.dbg, _) => { s with dbg := [], capWr := 0, ctxWr := [] }
  | some (.mbx, _) => { s with mbxJob := 0, sec := { s.sec with task := none } }
  | some (.dma, q) => { s with dpairs := tDel s.dpairs q, punts := tDel s.punts q }
  | _ => s

/-- SOFT_RST (R533): acted on while the page is OFF or STOPPED; the block then reads OFF. -/
def State.softReset (s : State) (pg : Nat) : State :=
  match pageKind pg with
  | none => s
  | some (k, _) =>
    if !k.hasCtrl then s
    else if !s.pgHalted pg then s.err pg 0 1 0x008 0
    else
      let u := (s.clearBlock pg).tbRebase.resetRegs fun x => decide (x = pg)
      if k = .dmc then u.setRf (ra pg 0x104) 6 0 (s.rf (ra pg 0x104) 6 0) else u
def execSoftRst (page : Nat) (s : State) : Host.Outcome State Fault Refusal := .next (s.softReset page)

/-- The pages of the data path: those of the C-dies and P-dies, without the DRAM controllers (R423). -/
def isDataPage (pg : Nat) : Bool :=
  decide (pg / 4096 < 6) && !((pageKind pg).any fun k => decide (k.1 = .dmc))

/-- The data path is stopped and reset (R423): frames in flight are dropped, tables hold nothing that was written, the arrays that
R446 lists are written invalid, the generation is 0. -/
def State.resetData (s : State) : State :=
  let s := s.resetRegs isDataPage
  { s with thr := [], clu := [], locks := [], chans := [], cops := [], lines := [], spm := [], spmBad := [], cmem := Arr.empty, flights := [], tcbs := [],
           tellers := [], events := [], pol := [], polBad := [], polWas := Was.empty, polCnt := [], cntAdds := [], gsa := [], vault := [], vltBad := [], pdies := [], ft := [], ftBad := [], ftWas := Was.empty, ftHit := Was.empty, sat := Arr.empty,
           satWas := Was.empty, vltWas := Was.empty, vltGone := Was.empty,
           pktMem := Arr.empty, bufs := [], bufBad := [], pools := [], lvlWas := Was.empty, used := [], queues := [], shapers := [], policers := [], punters := [],
           tports := [], tpl := [], punts := [], pauses := [], xoffAt := [], links := [], portOff := [], wlocks := [], gen := 0, oldLive := false, old := [],
           halted := [], fmg := FmgState.fresh, kek := [] }

/-- Power-on reset (R497): every volatile state is at its reset value; OTP, flash and the trip latch stay, and what lies outside the
part goes on: the feeds, the pins, host memory, what the part has put out, the commands waiting. -/
def State.powerOn (s : State) : State :=
  let z := State.reset
  let p := s.pwr
  let x := s.sec
  { z with now := s.now, clk := { point := 3, cycAt := s.now, cycNo := 0 }, tbAt := s.now, tallyAt := s.now, rngAt := s.now, draw := s.draw,
           pending := s.pending, out := s.out, flash := s.flash, host := s.host, perst := s.perst, tap := s.tap,
           sec := { Sec.fresh with owner := x.owner, ownerLock := x.ownerLock, svnBoot := x.svnBoot, svnProf := x.svnProf, pins := x.pins },
           pwr := { Pwr.fresh with
                    main := p.main, bkp := p.bkp, carrier := p.carrier, holdEnd := p.holdEnd, defEnd := p.defEnd, trip := p.trip, good := p.good } }

/-- The converter stage holds every rail off (R491): nothing in the part acts. -/
def State.railsOff (s : State) : Bool := s.pwr.trip && !s.pwr.good

/-- PORST_N is low: the part restarts; one whose converter stage had switched the rails off powers up, with MAIN as its carrier where that is OK
(R478, R491). -/
def State.restart (s : State) : State :=
  let off := s.railsOff
  let u := s.powerOn
  let p := u.pwr
  let k := if off then (if p.main then 1 else if p.bkp then 2 else 0) else p.carrier
  { u with pwr := { p with carrier := k, good := decide (k ≠ 0), faultN := false } }

end Sys2Proof.Machine
end

