-- ==== Sys2Proof/Machine/Security.lean ====
section
/-! DEFINITION. The SEC: OTP, image verification, zeroization, keys, attestation, debug unlock, the random source (R454 to R477). -/

namespace Sys2Proof.Machine

/-- SHAKE256 with 64 bytes of output. -/
def shake64 (b : List Byte) : List Byte := spHash 4 b 64

/-! ## OTP (R454 to R457) -/

def otpVendor : List Byte := (List.range 64).map (Config.otpByte 0)
def otpSerial : List Byte := (List.range 8).map (Config.otpByte 1)
def otpIdHash : List Byte := (List.range 64).map (Config.otpByte 2)

/-- The fields that the SEC alone reads: ID_WRAPPED and PUF_HELPER. -/
def otpIdWrapped : List Byte := (List.range 2320).map (Config.otpByte 3)
def otpPufHelper : List Byte := (List.range 1024).map (Config.otpByte 4)

/-- OWNER_HASH: zero when unowned. -/
def State.ownerHash (s : State) : List Byte := padTo 64 s.sec.owner

/-- The hash of the key that must sign schedule images, profile images and debug tokens (R455). -/
def State.userKey (s : State) : List Byte := if s.sec.ownerLock then s.ownerHash else otpVendor

/-- The hash that OTP_DATA0 to OTP_DATA15 hold. -/
def State.otpWords (s : State) : List Byte := ((List.range 16).map fun i => leBytes 4 (tGet (fun _ => 0) s.sec.otpData i).toNat).flatten

/-- BURN_OWNER (R456): the hash bits, then OWNER_LOCK; until its end a loss of power cuts it short. -/
def State.burnOwner (s : State) : State :=
  let h := s.otpWords
  if s.sec.ownerLock then s.modSec fun x => { x with otpResult := 2 }
  else if (List.range 64).any fun i => s.ownerHash.getD i 0 &&& ~~~ h.getD i 0 ≠ 0 then s.modSec fun x => { x with otpResult := 3 }
  else
    let e := s.now + Config.burnTicks s.draw % (50000 * usTicks + 1)
    (s.drawn.modSec fun x => { x with owner := h, ownerLock := true, otpResult := 1, burn := some (e, s.ownerHash) }).setRb (aSec 0x100) 27 true

/-- Power is lost: a burn that runs leaves OWNER_LOCK 0 and some of its bits set (R456). -/
def State.powerCut (s : State) : State :=
  match s.sec.burn with
  | none => s
  | some (e, old) =>
    if s.now < e then
      s.drawn.modSec fun x => { x with owner := (List.range 64).map fun i => old.getD i 0 ||| (x.owner.getD i 0 &&& Config.burnMask s.draw i),
                                       ownerLock := false, burn := none }
    else s.modSec fun x => { x with burn := none }
def execBurnOwner (s : State) : Host.Outcome State Fault Refusal := .next s.burnOwner

/-! ## Images (R458, R459, R461) -/

/-- Bytes of the flash; a byte that nothing has written is erased, 0xFF. -/
def flashByte (_ : Nat) : Byte := 0xFF
def State.flashRead (s : State) (a n : Nat) : List Byte := tRange flashByte s.flash a n

/-- Bytes of host memory. -/
def State.hostRead (s : State) (a n : Nat) : List Byte := tRange Config.hostByte s.host a n
def State.hostWrite (s : State) (a : Nat) (b : List Byte) : State := { s with host := tPutAll Config.hostByte s.host a b }

/-- The size limit of an image of a type, header included. -/
def imageLimit (type : Nat) : Nat :=
  match type with
  | 1 => 0x40000
  | 2 => 0x1000000
  | 3 => 0x3000000
  | _ => 0x100000

/-- LENGTH of a header, cut at the limit of the type. -/
def imageLen (type : Nat) (h : List Byte) : Nat := min (leAt h 0x10 4) (imageLimit type)

/-- The first step of R459 that fails, as its code; 0: the image passes. `sched`: the DIGEST of the verified schedule image. -/
def State.imageCode (s : State) (type : Nat) (h payload sched : List Byte) : Nat :=
  let key := if type ≤ 2 then otpVendor else s.userKey
  let pk := bytesAt h 0x100 1793
  let n := leAt h 0x904 4
  let bind := bytesAt h 0x18 8
  if leAt h 0 4 ≠ 0x4D495742 ∨ leAt h 4 4 ≠ 1 ∨ leAt h 8 4 ≠ type ∨ imageLimit type < 4096 + leAt h 0x10 4 then 1
  else if shake64 pk ≠ key then 2
  else if n = 0 ∨ 1280 < n ∨ !(Sys2Proof.Machine.falconVerify pk (bytesAt h 0 256) (bytesAt h 0x908 n)).1 then 3
  else if leAt h 0x14 4 ≠ 0xA1 ∨ (bind ≠ List.replicate 8 0 ∧ bind ≠ otpSerial) then 4
  else if leAt h 0xC 2 < (if type ≤ 2 then s.sec.svnBoot else s.sec.svnProf) then 5
  else if shake64 payload ≠ bytesAt h 0x40 64 then 6
  else if type = 4 ∧ bytesAt h 0x80 64 ≠ sched then 7
  else 0

/-- Header and payload of the image at a flash offset. -/
def State.flashImage (s : State) (type a : Nat) : List Byte × List Byte :=
  let h := s.flashRead a 4096
  (h, s.flashRead (a + 4096) (imageLen type h))

/-- Header and payload of the image that stands in host memory. -/
def State.hostImage (s : State) (type : Nat) : List Byte × List Byte :=
  let a := s.pair (ra (mPage 5) 0x120)
  let n := (s.reg (ra (mPage 5) 0x128)).toNat
  let h := padTo 4096 (s.hostRead a (min n 4096))
  (h, s.hostRead (a + 4096) (min (imageLen type h) (n - 4096)))

/-- A verified image: its MIN_SVN and its SVN count toward the burn of its class; its DIGEST is a measurement (R457, R465). -/
def State.accept (s : State) (type : Nat) (h : List Byte) : State :=
  let v := leAt h 0xE 2
  let n := leAt h 0xC 2
  s.modSec fun x =>
    { x with minBoot := if type ≤ 2 then max v x.minBoot else x.minBoot, minProf := if type ≤ 2 then x.minProf else max v x.minProf,
             capBoot := if type ≤ 2 then min n x.capBoot else x.capBoot, capProf := if type ≤ 2 then x.capProf else min n x.capProf,
             meas := tPut x.meas (match type with | 1 => 1 | 2 => 2 | 3 => 4 | _ => 3) (bytesAt h 0x40 64) }

/-- The SVN counters burned up to the highest MIN_SVN among the verified images of each class, above the SVN of none of them, and never down; a
counter has 64 fuses (R457). -/
def State.burnSvn (s : State) : State :=
  s.modSec fun x => { x with svnBoot := max x.svnBoot (min x.minBoot x.capBoot), svnProf := max x.svnProf (min x.minProf x.capProf) }

/-- A rejected image is written to SEC_BOOT_STAT. -/
def State.bootFail (s : State) (type code : Nat) : State := (s.setRf (aSec 0x104) 23 20 type).setRf (aSec 0x104) 19 16 code

/-! ## The random source (R464, R467) -/

/-- `n` bytes of the source, and the draws counted: the request waits at the source as a RAND does (R206). -/
def State.takeRandom (s : State) (n : Nat) : List Byte × State :=
  let k := (n + 31) / 32
  (s.randomBytes n, { (s.rngTake k).upTo (s.rngFrom + 6000 * (k - 1)) with draw := s.draw + n })

/-- A fresh transport key pair, or none while the source has failed. -/
def State.newTransport (s : State) : State :=
  if s.rngFailed then s.modSec fun x => { x with tkey := none }
  else
    let r := s.takeRandom 64
    r.2.modSec fun x => { x with tkey := some (kemKeygen (r.1.take 32) (r.1.drop 32)) }

/-- RNG_HEALTH_FAIL. -/
def State.rngFail (s : State) (test : Word) : State := (s.setRb (aSec 0x100) 28 true).err (mPage 4) 2 0x13 test.toNat 0
def execRngHealthFail (test : Word) (s : State) : Host.Outcome State Fault Refusal := .next (s.rngFail test)

/-- DRBG_RESEED, after 2^20 draws; a request that comes first has the DRBG reseeded before it is served. -/
def State.reseed (s : State) : State :=
  if 2 ^ 20 ≤ s.sec.draws then { s.modSec (fun x => { x with draws := 0 }) with draw := s.draw + 1 } else s
def execDrbgReseed (s : State) : Host.Outcome State Fault Refusal := .next s.reseed

/-! ## Zeroization (R470 to R473) -/

/-- Zeroization starts; a trigger during one joins it (R472). An ATTEST or a KEY_LOAD that runs ends with it (R466). What it clears is gone at
once. -/
def State.zeroStart (s : State) : State :=
  if s.sec.zeroEnd.isSome then s
  else
    let s := s.secStop.setRb (aSec 0x100) 31 true
    let s := s.copsZeroize
    let s := { s with vault := [], vltBad := [] }
    let s := [0, 1].foldl (fun s d => s.setRb (ra (pdPage d 4) 0x104) 31 true) s
    let s := (List.range 64).foldl (fun s c => s.cmemZeroize c) s
    (s.modSec fun x => { x with keks := [], kekFrom := [], tkey := none, draws := 0, zeroEnd := some (s.now + 10 * usTicks) }).kekOcc

/-- ZEROIZE (R470, R543): with a command BUSY it starts all the same, and returns nothing. -/
def State.zeroizeCmd (s : State) : State :=
  let s := s.secDue
  if s.mbxBusy then s.zeroStart
  else ((s.setReg (aMbx 0x100) (nw (2 ^ 31))).mbxRuns 5).zeroStart
def execZeroize (s : State) : Host.Outcome State Fault Refusal := .next s.zeroizeCmd

/-- A low pulse of `n` ns is taken: always from 100 ns on, never below 20 ns, between them as the filter has it. -/
def State.pinTaken (s : State) (n : Nat) : Bool := decide (100 ≤ n) || (decide (20 ≤ n) && Config.pulseTaken s.draw)

/-- A pin falls and stays low for `n` ns: one that is high again when the zeroization completes, which the pulse starts or joins, leaves no trace
there; a longer one holds it low until its release (R470, R472). -/
def State.zeroPin (s : State) (n bit : Nat) : State :=
  let ok := s.pinTaken n
  let s := s.drawn
  if !ok then s
  else
    let s := if bit = 1 then s.setRb (aSec 0x100) 29 true else s
    (s.zeroStart).modSec fun x => { x with pins := if x.zeroEnd.any fun e => decide (s.now + 24 * n ≤ e) then x.pins else x.pins ||| 2 ^ bit }
def execZeroizePin (lowNs : Nat) (s : State) : Host.Outcome State Fault Refusal := .next (s.zeroPin lowNs 0)
/-- TAMPER_PIN: as ZEROIZE_N, and TAMPER is latched (R473). -/
def execTamperPin (lowNs : Nat) (s : State) : Host.Outcome State Fault Refusal := .next (s.zeroPin lowNs 1)

/-- ZEROIZING clears once no zeroization runs and neither pin is low. -/
def State.zeroIdle (s : State) : State :=
  if s.sec.zeroEnd.isNone ∧ s.sec.pins = 0 then s.setRb (aSec 0x100) 31 false else s

/-- ZEROIZE_PIN_RELEASE: a pin is high again. -/
def State.pinHigh (s : State) (bit : Nat) : State :=
  (s.modSec fun x => { x with pins := if x.pins.testBit bit then x.pins - 2 ^ bit else x.pins }).zeroIdle
def execZeroizePinRelease (tamper : Bool) (s : State) : Host.Outcome State Fault Refusal := .next (s.pinHigh (b2n tamper))

/-- ZEROIZATION_DONE: counted, ZEROIZED set and raised; a fresh transport key pair (R467, R472). -/
def State.zeroDone (s : State) : State :=
  match s.sec.zeroEnd with
  | none => s
  | some e =>
    let s := (s.upTo e).modSec fun x => { x with zeroEnd := none }
    let s := [0, 1].foldl (fun s d => (s.setRb (ra (pdPage d 4) 0x104) 31 false).hwSet (ra (pdPage d 4) 0x104) 30) s
    let s := (s.setReg (aSec 0x108) (s.reg (aSec 0x108) + 1)).setRb (aSec 0x100) 30 true
    let s := s.zeroIdle.newTransport.raise (mPage 4) 8
    s.mbxEndOf 5 0
def execZeroizationDone (s : State) : Host.Outcome State Fault Refusal := .next s.zeroDone

/-! ## KEY_LOAD (R468, R469) -/

/-- What KEY_LOAD ends with before its operation is looked at: ZEROIZING, TAMPERED, or 0. -/
def State.keyGate (s : State) : Nat := if s.rb (aSec 0x100) 31 then 6 else if s.rb (aSec 0x100) 29 then 7 else 0

/-- KEY_LOAD LOAD: the KEK is stored and installed when it ends. -/
def State.keyLoadGo (s : State) (slot : Nat) (long : Bool) (kw mask : Nat) : State :=
  let n := if long then 40 else 24
  if s.keyGate ≠ 0 then s.mbxEnd s.keyGate
  else if !s.mbxFits 0 (0x620 + n) then s.mbxEnd 3
  else
    match s.sec.tkey with
    | none => s.mbxEnd 8
    | some (_, dk) => s.mbxUse 0 (0x620 + n) fun s b =>
      let k := kemDecaps dk (b.take 1568)
      let w := (shake64 (k ++ otpSerial ++ Config.slotBytes slot)).take 32
      match kwUnwrapOk w (b.drop 0x620) with
      | none => s.mbxEnd 9
      | some key => s.secStart 2000 { due := 0, parts := [], size := 0, kek := some (slot, kw, mask, key) }
def State.keyLoad (s : State) (slot : Nat) (long : Bool) (kw mask : Nat) : State := s.mbxStart fun s => s.keyLoadGo slot long kw mask
def execKeyLoad (slot : BitVec 6) (klen32 : Bool) (kwSlot : BitVec 4) (mask : BitVec 64) (s : State) : Host.Outcome State Fault Refusal :=
  .next (s.keyLoad slot.toNat klen32 kwSlot.toNat mask.toNat)

/-- KEY_LOAD PUSH. -/
def State.keyPushGo (s : State) (slot kw mask : Nat) : State :=
  if s.keyGate ≠ 0 then s.mbxEnd s.keyGate
  else
    match tFind s.sec.keks slot with
    | none => s.mbxEnd 0x14
    | some k => (s.installKek slot kw mask k).mbxEnd 0
def State.keyPush (s : State) (slot kw mask : Nat) : State := s.mbxStart fun s => s.keyPushGo slot kw mask
def execKeyPush (slot : BitVec 6) (kwSlot : BitVec 4) (mask : BitVec 64) (s : State) : Host.Outcome State Fault Refusal :=
  .next (s.keyPush slot.toNat kwSlot.toNat mask.toNat)

/-- KEY_LOAD CLEAR: the slot, and every KW slot that it filled. -/
def State.keyClearGo (s : State) (slot : Nat) : State :=
  if s.keyGate ≠ 0 then s.mbxEnd s.keyGate
  else
    let from_ := (s.sec.kekFrom.filter fun e => decide (e.2 = slot)).map (·.1)
    let s := { s with kek := s.kek.filter fun e => !from_.contains e.1 }
    ((s.modSec fun x => { x with keks := tDel x.keks slot, kekFrom := x.kekFrom.filter fun e => !decide (e.2 = slot) }).kekOcc).mbxEnd 0
def State.keyClear (s : State) (slot : Nat) : State := s.mbxStart fun s => s.keyClearGo slot
def execKeyClear (slot : BitVec 6) (s : State) : Host.Outcome State Fault Refusal := .next (s.keyClear slot.toNat)

/-! ## ATTEST (R465, R466) -/

/-- The readable OTP fields, in the order of R454: measurement M5 is their hash. -/
def State.otpReadable (s : State) : List Byte :=
  otpVendor ++ otpSerial ++ otpIdHash ++ s.ownerHash ++ [BitVec.ofNat 8 (b2n s.sec.ownerLock)] ++ leBytes 8 (2 ^ s.sec.svnBoot - 1)
    ++ leBytes 8 (2 ^ s.sec.svnProf - 1)

/-- The signed part of the report over a nonce. -/
def State.attReport (s : State) (nonce : List Byte) : List Byte :=
  let x := s.sec
  let st := s.reg (aSec 0x100)
  let bs := s.reg (aSec 0x104)
  let flags := b2n (bit st 26) + 2 * b2n (bit st 29) + 4 * b2n (bit st 30) + 8 * b2n (bit bs 29 || bit bs 28) + 16 * b2n (bit bs 30)
    + 32 * b2n (bit st 28)
  let m := fun (i : Nat) => padTo 64 (tGet (fun _ => []) x.meas i)
  leBytes 4 1 ++ leBytes 4 0x270 ++ otpSerial ++ leBytes 4 0xA1
    ++ leBytes 4 ((if x.ownerLock then 2 else 1) * 2 ^ 24 + nonce.length * 2 ^ 16 + x.svnBoot * 256 + x.svnProf)
    ++ leBytes 4 (s.prof.active + 4 * b2n x.cold) ++ leBytes 4 flags ++ leBytes 4 (s.reg (aSec 0x108)).toNat ++ leBytes 4 0 ++ leBytes 8 s.tb
    ++ padTo 64 nonce ++ (List.range 64).map Config.romMeasure ++ m 1 ++ m 2 ++ m 3 ++ m 4 ++ shake64 s.otpReadable ++ s.ownerHash
    ++ (match x.tkey with | none => List.replicate 64 0 | some k => shake64 k.1)

/-- The identity certificate in the flash's vendor area. -/
def State.certificate (s : State) : List Byte := s.flashRead (0x3000000 + Config.certOffset) Config.certLength

/-- The identity private key, unwrapped from ID_WRAPPED under the PUF-derived key; none where its public key does not match ID_HASH (R454,
R465). It is held for one report only, and no register or field of the state shows it. -/
def State.identity (s : State) : Option (List Byte) := (kwpUnwrap s.sec.puf otpIdWrapped).filter fun k => decide (shake64 (Config.idPublic k) = otpIdHash)

/-- ATTEST. Without its identity key the SEC signs nothing and the command ends REFUSED, which no rule names: DESIGN CHOICE (log entry 228). -/
def State.attestGo (s : State) (n : Nat) (cert ek : Bool) : State :=
  if n = 0 ∨ 64 < n ∨ ((cert || ek) ∧ !s.mbxDram) then s.mbxEnd 3
  else if ek ∧ s.sec.tkey.isNone then s.mbxEnd 8
  else s.mbxUse 0 n fun s nonce =>
   match s.identity with
   | none => s.mbxEnd 4
   | some id =>
    let body := s.attReport nonce
    let len := min 1280 (max 1 (Config.reportSigLen id body))
    let rep := body ++ leBytes 4 len ++ padTo 1280 ((List.range len).map (Config.reportSig id body))
    let all := padTo (if cert then 0x1000 else if ek then 0x800 else rep.length) rep
    let pk := match s.sec.tkey with | none => [] | some k => k.1
    let all := if ek then putBytes all 0x800 pk else all
    let all := if cert then all ++ s.certificate else all
    let parts := [(0, rep)] ++ (if ek then [(0x800, pk)] else []) ++ (if cert then [(0x1000, s.certificate)] else [])
    if !s.mbxFits 0 all.length then s.mbxEnd 3
    else s.secStart 20000 { due := 0, parts := parts, size := all.length, kek := none }
def State.attest (s : State) (n : Nat) (cert ek : Bool) : State := s.mbxStart fun s => s.attestGo n cert ek
def execAttest (nonceLen : BitVec 7) (cert ek : Bool) (s : State) : Host.Outcome State Fault Refusal := .next (s.attest nonceLen.toNat cert ek)

/-! ## DEBUG_UNLOCK (R475, R476) -/

/-- TAMPER is latched (R473). -/
def State.tampered (s : State) : Bool := s.rb (aSec 0x100) 29

/-- Another instruction of the TAP than EXTEST: the pins follow their functions again. -/
def State.noExtest (s : State) : State := { s with tap := { s.tap with extest := false } }

/-- The TAP's DBG_UNLOCK puts out the result code of its command (R562 names the command and not the register's layout: log entry 229). -/
def State.tapEnd (s : State) (r : Nat) : State := s.noExtest.emit (.data (nw r))

/-- A fresh challenge: its nonce, and the state that holds it. -/
def State.newChallenge (s : State) : List Byte × State :=
  let r := s.takeRandom 32
  (r.1, r.2.modSec fun x => { x with chal := some (r.1, (r.2.tb + 300000000000) % 2 ^ 64) })

/-- What a CHALLENGE ends with before it draws: REFUSED, RNG_FAIL, or 0. -/
def State.chalGate (s : State) : Nat := if s.tampered ∨ s.rb (aSec 0x100) 25 then 4 else if s.rngFailed then 8 else 0

/-- CHALLENGE, through the mailbox (DEBUG_CHALLENGE) or the TAP. -/
def State.challengeGo (s : State) : State :=
  if s.chalGate ≠ 0 then s.mbxEnd s.chalGate
  else
    let r := s.newChallenge
    ((List.range 8).foldl (fun s i => s.mbxRsp i (leWord (bytesAt r.1 (4 * i) 4))) r.2).mbxEnd 0
def State.challenge (s : State) : State := s.mbxStart fun s => s.challengeGo
def State.tapChallenge (s : State) : State :=
  if s.chalGate ≠ 0 then s.tapEnd s.chalGate else (s.newChallenge.2.tapEnd 0).emit (.bytes s.newChallenge.1 false)
def execDebugChallenge (s : State) : Host.Outcome State Fault Refusal := .next s.challenge

/-- A token holds under the current challenge. -/
def State.tokenOk (s : State) (t : List Byte) : Bool :=
  let pk := bytesAt t 0x40 1793
  let n := leAt t 0x744 4
  decide (leAt t 0 4 = 1 ∧ leAt t 4 4 < 64 ∧ bytesAt t 0x30 16 = List.replicate 16 0 ∧ bytesAt t 8 8 = otpSerial) &&
    (match s.sec.chal with
     | none => false
     | some (c, e) => decide (bytesAt t 0x10 32 = c) && decide (tbDiff s.tb e < 0)) &&
    decide (shake64 pk = s.userKey ∧ 1 ≤ n ∧ n ≤ 1280) && (Sys2Proof.Machine.falconVerify pk (bytesAt t 0 64) (bytesAt t 0x748 n)).1

/-- UNLOCK of a token: the attempt consumes the challenge. -/
def State.tokenTry (s : State) (t : List Byte) : State :=
  let u := s.modSec fun x => { x with chal := none }
  if s.tokenOk t then ((u.setReg (aSec 0x10C) (nw (leAt t 4 4))).setRb (aSec 0x100) 26 true).setRf (aSec 0x100) 3 0 0
  else
    let n := min 8 (u.rf (aSec 0x100) 3 0 + 1)
    let u := u.setRf (aSec 0x100) 3 0 n
    if n = 8 then u.setRb (aSec 0x100) 25 true else u

/-- UNLOCK, through the mailbox (DEBUG_UNLOCK) or the TAP. -/
def State.unlockGo (s : State) : State :=
  if !s.mbxDram ∨ !s.mbxFits 0 0xC48 then s.mbxEnd 3
  else if s.tampered then s.mbxEnd 4
  else s.mbxUse 0 0xC48 fun s t => (s.tokenTry t).mbxEnd (if s.tokenOk t then 0 else 4)
def State.unlock (s : State) : State := s.mbxStart fun s => s.unlockGo
def State.tapUnlock (s : State) (t : List Byte) : State :=
  if s.tampered then s.tapEnd 4 else (s.tokenTry (padTo 0xC48 t)).tapEnd (if s.tokenOk (padTo 0xC48 t) then 0 else 4)
def execDebugUnlock (s : State) : Host.Outcome State Fault Refusal := .next s.unlock

/-- LOCK: every permission is withdrawn, and capture ends (R565). -/
def State.withdraw (s : State) : State := (s.setReg (aSec 0x10C) 0).setDbg 2 (setBit (s.dbgReg 2) 31 false)

/-- LOCK, through the mailbox (DEBUG_LOCK) or the TAP. -/
def State.lockGo (s : State) : State := if s.tampered then s.mbxEnd 4 else s.withdraw.mbxEnd 0
def State.dbgLock (s : State) : State := s.mbxStart fun s => s.lockGo
def State.tapLock (s : State) : State := if s.tampered then s.tapEnd 4 else s.withdraw.tapEnd 0
def execDebugLock (s : State) : Host.Outcome State Fault Refusal := .next s.dbgLock

/-- CHALLENGE_EXPIRY, 300 s of timebase after the challenge. -/
def State.chalExpire (s : State) : State :=
  match s.sec.chal with
  | none => s
  | some (_, e) => (s.upTo (s.tbTick e)).modSec fun x => { x with chal := none }
def execChallengeExpiry (s : State) : Host.Outcome State Fault Refusal := .next s.chalExpire

end Sys2Proof.Machine
end

