-- ==== Sys2Proof/Machine/Boot.lean ====
section
/-! DEFINITION. Stored profiles and the boot chain: loading a profile, warm and cold switches, boot from flash and from the host (R420
to R423, R459 to R463, R496, R498, R556, R591). -/

namespace Sys2Proof.Machine

/-! ## Loading a profile -/

/-- The initial values that a profile names: L, G and S fields, G in the shadow and the active copy alike. -/
def State.initFields (s : State) (fs : List (Nat × Word)) : State :=
  let s := s.putFields fs fun d => d.rwL ||| d.rwG ||| d.rwS
  ({ s with act := fs.foldl (fun t (e : Nat × Word) => if gMask e.1 = 0 then t else tSet regReset t e.1 (s.reg e.1)) s.act }).putEpcCtrl fs false

/-- The pools that the profile enables start, in ascending order, each under the checks of an enable (R360, R363). -/
def State.startPools (s : State) : State :=
  [0, 1].foldl (fun s d =>
    let l := (List.range 64).filter fun p => s.poolEn d p
    l.foldl (fun s p => (s.setRb (aPool d p 0) 31 true).poolOpen d p) (l.foldl (fun s p => s.setRb (aPool d p 0) 31 false) s)) s

/-- A block that the profile uses runs; a MAC page only where its pair has a lane combination of R259. -/
def State.runPage (s : State) (pg : Nat) : State :=
  let s := (s.setRb (ra pg 0x008) 0 true).setRb (ra pg 0x008) 1 false
  let d := pg / 4096 % 2
  let lo := pg / 256 % 16 / 2 * 2
  if (pageKind pg).any (fun k => decide (k.1 = .mac)) && !quadsOk (s.quads d lo) (s.quads d (lo + 1)) then s.err pg 0 3 0x100 0 else s.setPg pg 2

/-- The profile is loaded over a data path that has been reset: clusters, calendars, programs, fields, domains, pages (R460, R496 steps
8 and 9, R498). -/
def State.loadProfile (s : State) (n : Nat) (p : Profile) : State :=
  let q : ProfState := { active := n, img := p, tier := 0, sets := [(0, 0), (0, 0), (0, 0), (0, 0)], start := roundCeil s.cycCeil / 4096, last := (0, 0) }
  let s := { s with prof := q,
                    doms := (List.range 110).foldl (fun t k => tSet (fun _ => 0) t k (if p.domains.contains k then 1 else 0)) s.doms }
  let s := (List.range 64).foldl (fun s c => (s.invalidated c).setClu c fun k => { k with packet := p.packet.contains c }) s
  let s := ((s.initFields p.fields).loadPrograms p (p.packet ++ p.spares)).startPools
  let q := s.prof
  let s := { s with prof := { q with tier := s.af aEpcCal 1 0 } }
  let s := p.running.foldl (fun s pg => s.runPage pg) s
  (List.range 64).foldl (fun s c => s.reinstall c) s

/-- The profile number shown in EPC_PROFILE, with LAST_RESULT and COLD. -/
def State.showProfile (s : State) (act cold last : Nat) : State :=
  s.setReg (aEpc 0x170) (nw (act * 2 ^ 30 + s.rf (aEpc 0x170) 29 28 * 2 ^ 28 + cold * 2 ^ 24 + last * 2 ^ 21))

/-! ## Verification -/

/-- The flash offsets of a profile's two images (R461). -/
def profAt (n : Nat) : Nat := 0x4000000 * (n + 1)

/-- The two images of profile `n` in the flash: what they hold, their headers, or the type and code of the failure. -/
def State.verifyProfile (s : State) (n : Nat) : Except (Nat × Nat) (Profile × List Byte × List Byte) :=
  let k := s.flashImage 3 (profAt n + 0x100000)
  let c := s.imageCode 3 k.1 k.2 []
  if c ≠ 0 then .error (3, c)
  else
    let i := s.flashImage 4 (profAt n)
    let c := s.imageCode 4 i.1 i.2 (bytesAt k.1 0x40 64)
    if c ≠ 0 then .error (4, c)
    else .ok ((Config.profileOf i.2 k.2).getD noProfile, i.1, k.1)

/-! ## PROFILE_SELECT (R421 to R423) -/

/-- The value that a profile gives a register, or its reset value. -/
def profField (p : Profile) (a : Nat) : Word := ((p.fields.find? fun e => decide (e.1 = a)).map (·.2)).getD (regReset a)

/-- The two profiles differ in what a warm switch cannot change (R421). -/
def needsCold (p q : Profile) : Bool :=
  decide (p.program ≠ q.program ∨ p.entry ≠ q.entry ∨ p.span ≠ q.span ∨ p.cycle ≠ q.cycle ∨ p.packet ≠ q.packet) ||
  (p.fields ++ q.fields).any fun e => match regDef? e.1 with
    | none => false
    | some d => decide ((profField p e.1 ^^^ profField q e.1) &&& d.rwS ≠ 0)

/-- A PROFILE_SELECT ends without a switch: RESULT, LAST_RESULT. -/
def State.selectEnd (s : State) (last code : Nat) : State := (s.setRf (aEpc 0x170) 23 21 last).mbxEnd code

/-- A calendar set fails the check: CAL_FAIL returns the first failing condition, the calendar and the entry, in words that have no layout
(R79). -/
def State.calFail (s : State) (p : Profile) : State :=
  let e := ((calFaults p).head?).getD (0, 0, 0)
  ((List.range 3).foldl (fun s i => s.mbxRsp i (Config.calReport i e.1 e.2.1 e.2.2)) s).selectEnd 2 0x10

/-- What PROFILE_SELECT asks of the profile in either mode: no commit and no switch open, a verified image, legal calendars. -/
def State.selectWith (s : State) (n : Nat) (f : State → Profile → List Byte → List Byte → State) : State :=
  if s.commitOpen ∨ s.fmg.reqs ≠ [] then s.selectEnd 4 1
  else
    match s.verifyProfile n with
    | .error (t, c) => (s.bootFail t c).selectEnd 3 0x11
    | .ok (p, hp, hs) => if calOk p then f s p hp hs else s.calFail p

/-- A warm switch: shadows written, one commit opened with NOT_BEFORE = 0, which waits for the calendar check (R422). -/
def State.selectWarm (s : State) (n : Nat) : State :=
  s.selectWith n fun s p hp hs =>
    if needsCold s.prof.img p then s.selectEnd 1 0x0F
    else
      let s := s.putFields p.fields (·.rwG)
      let due := s.now + Config.checkTicks s.draw % (40000 * usTicks + 1)
      let s := (s.drawn.setRb aCommit 31 true).modEpc fun e => { e with notBefore := 0, prof := some (n, p), checkEnd := due }
      let s := s.modSec fun x => { x with profWait := some ([], bytesAt hp 0x40 64, bytesAt hs 0x40 64, n) }
      let s := (((s.setRb (aEpc 0x170) 27 true).setRf (aEpc 0x170) 26 25 n).setRb (aEpc 0x170) 24 false)
      (s.wakeTier p s.shadowTier).mbxRuns 1
def execProfileSelectWarm (p : Fin 4) (s : State) : Host.Outcome State Fault Refusal := .next (s.mbxStart fun s => s.selectWarm p.val)

/-- FAULT_N is released when a cold switch completes, unless a class 5 error holds it; no cluster is retired any longer (R503, R516). -/
def State.coldClear (s : State) : State :=
  let s := ((s.setReg (ra (mPage 3) 0x118) 0).setReg (ra (mPage 3) 0x11C) 0)
  if s.rf (ra (mPage 3) 0x104) 30 28 = 5 then s
  else
    let p := s.pwr
    ({ s with pwr := { p with faultN := false } }).setRb (ra (mPage 3) 0x104) 31 false

/-- A cold switch (R423). -/
def State.selectCold (s : State) (n : Nat) : State :=
  s.selectWith n fun s p hp hs =>
    let s := (s.resetData.coldClear).loadProfile n p
    let s := s.modEpc fun e => { e with latch := none, prof := none }
    let s := s.modSec fun x => { x with cold := true, meas := tPut (tPut x.meas 3 (bytesAt hp 0x40 64)) 4 (bytesAt hs 0x40 64) }
    ((s.showProfile n 1 0).setRb (aSec 0x104) 31 true).mbxEnd 0
def execProfileSelectCold (p : Fin 4) (s : State) : Host.Outcome State Fault Refusal := .next (s.mbxStart fun s => s.selectCold p.val)

/-! ## Boot (R456, R457, R461, R462, R496, R556) -/

/-- HST_BOOT_CTRL. -/
def aBoot : Nat := ra (mPage 5) 0x12C

/-- The chain asks the host for an image of a type. -/
def State.askHost (s : State) (type : Nat) : State :=
  (s.modSec fun x => { x with hostWait := type }).setRf aBoot 19 16 type

/-- One entry of the remap list that software keeps in the flash is applied again, as a retirement that is complete (R451). -/
def State.remapAgain (s : State) (e : Nat × Nat) : State :=
  if 32 ≤ e.1 ∨ 1048512 ≤ e.2 ∨ (List.range 64).any fun n => s.rb (aRemap e.1 n) 31 && decide (s.rf (aRemap e.1 n) 19 0 = e.2) then s
  else
    match (List.range 64).find? fun n => !s.rb (aRemap e.1 n) 31 with
    | none => s
    | some n => (s.setReg (aRemap e.1 n) (nw (3 * 2 ^ 30 + e.2))).setRf (aDmcStat e.1) 6 0 (s.rf (aDmcStat e.1) 6 0 + 1)

/-- The firmware trains every channel, which passes, and applies the remap list again; the DMC pages run (R432, R433, R451). -/
def State.runDram (s : State) : State :=
  let s := (List.range 32).foldl (fun s ch => ((s.setRb (aDmcStat ch) 31 true).trainCounts ch).runPage (dmcPage ch)) s
  (Config.remapList (s.flashRead 0x3000000 0x1000000)).foldl State.remapAgain s

/-- The pages of the data path that PG_CTRL acts on. -/
def pathPages : List Nat := (List.range 24576).filter fun pg => isDataPage pg && (pageKind pg).any fun k => k.1.hasCtrl

/-- The data-path blocks stand STOPPED until the chain releases them (R460, R462). -/
def State.holdPath (s : State) : State := pathPages.foldl (fun s pg => (s.setReg (ra pg 0x008) 3).setPg pg 1) s

/-- The blocks that the profile leaves out are OFF again. -/
def State.dropPath (s : State) (p : Profile) : State :=
  pathPages.foldl (fun s pg => if p.running.contains pg then s else (s.setReg (ra pg 0x008) 0).setPg pg 0) s

/-- The firmware runs: the host is no longer asked, DRAM is trained, the data path waits for its release. -/
def State.firmware (s : State) : State :=
  (((s.modSec fun x => { x with hostWait := 0 }).setRf aBoot 19 16 0).runDram).holdPath

/-- The verified profile is loaded and checked, the SVN counters are burned, the data path is released (R457, R462). -/
def State.releasePath (s : State) (n : Nat) (p : Profile) : State :=
  if !calOk p then s.bootFail 3 0
  else
    let s := (((s.dropPath p).loadProfile n p).burnSvn).modSec fun x => { x with profWait := none }
    (s.showProfile n 0 0).setRb (aSec 0x104) 31 true

/-- The profile that the straps name, from the flash; one that fails stops the chain. -/
def State.bootProfile (s : State) : State :=
  let n := s.rf (aEpc 0x170) 29 28
  match s.verifyProfile n with
  | .error (t, c) => s.bootFail t c
  | .ok (p, hp, hs) => ((s.accept 4 hp).accept 3 hs).releasePath n p

/-- Copy A of an image, or copy B: passed, from copy B; a failure is written to SEC_BOOT_STAT. -/
def State.bootCopies (s : State) (type a b : Nat) : Option Bool × State :=
  let i := s.flashImage type a
  let c := s.imageCode type i.1 i.2 []
  if c = 0 then (some false, s.accept type i.1)
  else
    let s := s.bootFail type c
    let j := s.flashImage type b
    let c := s.imageCode type j.1 j.2 []
    if c = 0 then (some true, s.accept type j.1) else (none, s.bootFail type c)

/-- The firmware from flash, then the profile; with neither copy good the firmware comes from the host. -/
def State.bootFirmware (s : State) : State :=
  match s.bootCopies 2 0x80000 0x1080000 with
  | (none, s) => s.askHost 2
  | (some b, s) => ((s.setRb (aSec 0x104) 28 b).firmware).bootProfile

/-- A domain is in a state. -/
def State.setDom (s : State) (n st : Nat) : State := { s with doms := tSet (fun _ => 0) s.doms n st }

/-- What stands at the release of PORST_N: the straps sampled, the clocks locked, a transport key pair made, a pin held low acted on. -/
def State.porstUp (s : State) (sel : Nat) : State :=
  let s := s.setReg (aEpc 0x170) (nw (sel * 2 ^ 30 + sel * 2 ^ 28))
  let s := s.setReg (ra (mPage 2) 0x100) 0xFFC07FFF
  let s := s.setRb (aSec 0x100) 27 s.sec.ownerLock
  let s := (s.modSec fun x => { x with puf := Config.pufKey otpPufHelper }).newTransport.setReg (aSec 0x110) 0
  let s := if s.sec.pins.testBit 1 then s.setRb (aSec 0x100) 29 true else s
  let s := (s.setDom 110 (b2n !s.perst)).setDom 111 1
  if s.sec.pins = 0 then s else s.zeroStart

/-- BOOT (R461, R462): PORST_N has been low, so the chain starts from the state that power-on reset leaves. -/
def State.boot (s : State) (hostBoot : Bool) (sel : Nat) : State :=
  let s := (s.restart.porstUp sel).modSec fun x => { x with hostBoot := hostBoot }
  if hostBoot then s.askHost 1
  else
    match s.bootCopies 1 0 0x40000 with
    | (none, s) => s.askHost 1
    | (some b, s) => (s.setRb (aSec 0x104) 29 b).bootFirmware
def execBoot (hostBoot : Bool) (profileSel : Fin 4) (s : State) : Host.Outcome State Fault Refusal := .next (s.boot hostBoot profileSel.val)

/-- The chain after a host image of a type has passed. With BOOT_SRC = 1 the host gives every image; after a fallback of R462 the rest
comes from the flash. -/
def State.hostNext (s : State) (type : Nat) (h payload : List Byte) : State :=
  match type with
  | 1 => if s.sec.hostBoot then s.askHost 2 else s.bootFirmware
  | 2 => if s.sec.hostBoot then s.firmware.askHost 3 else s.firmware.bootProfile
  | 3 => (s.modSec fun x => { x with profWait := some (payload, [], bytesAt h 0x40 64, 0) }).askHost 4
  | _ =>
    let k := match s.sec.profWait with
      | none => []
      | some x => x.1
    ((s.modSec fun x => { x with hostWait := 0 }).setRf aBoot 19 16 0).releasePath (s.rf (aEpc 0x170) 29 28)
      ((Config.profileOf payload k).getD noProfile)

/-- HOST_BOOT_GO (R556): the image is read and verified; CODE and DONE. -/
def State.hostBootGo (s : State) : State :=
  let t := s.sec.hostWait
  if t = 0 then s
  else
    let i := s.hostImage t
    let sched := match s.sec.profWait with
      | none => []
      | some x => x.2.2.1
    let c := s.imageCode t i.1 i.2 sched
    let s := ((s.setRf aBoot 11 8 c).hwSet aBoot 1).setRb (aSec 0x104) 30 true
    if c = 0 then (s.accept t i.1).hostNext t i.1 i.2 else s.bootFail t c
def execHostBootGo (s : State) : Host.Outcome State Fault Refusal := .next s.hostBootGo

end Sys2Proof.Machine
end

