-- ==== Sys2Proof/Machine/Power.lean ====
section
/-! DEFINITION. Supplies, thermal protection, DVFS, power domains, the Tally, clocks and the resets of the part (R478 to R501, R515, R554). -/

namespace Sys2Proof.Machine

/-! ## The stop of the data path (R515) -/

/-- The SerDes transmitters of a P-die's quads go to electrical idle. -/
def State.squelch (s : State) (d : Nat) : State := (List.range 8).foldl (fun s q => s.emit (.txIdle (8 * d + q))) s

/-- The FMG stops the data path of the listed P-dies: no port transmits, and under SQUELCH the transmitters go to electrical idle. -/
def State.stopData (s : State) (dies : List Nat) : State :=
  let s := { s with halted := s.halted ++ dies.filter fun d => !s.halted.contains d }
  let s := if s.halted.contains 0 ∧ s.halted.contains 1 then s.setRb (ra (mPage 3) 0x104) 31 true else s
  if s.rb (ra (mPage 3) 0x100) 30 then dies.foldl (fun s d => s.squelch d) s else s

/-- FAULT_N is driven low. -/
def State.driveFault (s : State) : State :=
  let p := s.pwr
  { s with pwr := { p with faultN := true } }

/-! ## Feeds (R478 to R482, R496) -/

/-- A register of the PWR page. -/
def aPwr (off : Nat) : Nat := ra (mPage 1) off

/-- Change what the supplies hold. -/
def State.modPwr (s : State) (f : Pwr → Pwr) : State := { s with pwr := f s.pwr }

/-- The output pins FEED_STAT[0] and FEED_STAT[1]: BACKUP carries; the feed that does not carry has failed (R479). -/
def State.feedPins (s : State) : Bool × Bool := (decide (s.pwr.carrier = 2), if s.pwr.carrier = 2 then !s.pwr.main else !s.pwr.bkp)

/-- A feed becomes carrier in a part that runs: counted, with the FEED_SWITCH event; a return to MAIN is remembered for R404. -/
def State.carry (s : State) (k : Nat) : State :=
  let s := s.modPwr fun p => { p with carrier := k, holdEnd := none, defEnd := none, upEnd := none }
  let s := if k = 2 then s.bumpF (aPwr 0x10C) 31 16 1 else (s.bumpF (aPwr 0x10C) 15 0 1).modEpc fun e => { e with returnTb := some s.tb }
  s.raise (mPage 1) 8

/-- FEED_FAIL (R478, R480): below 10.6 V. -/
def State.feedFail (s : State) (bkp : Bool) : State :=
  let p := s.pwr
  let me := if bkp then p.bkp else p.main
  let other := if bkp then p.main else p.bkp
  let s := s.modPwr fun p => if bkp then { p with bkp := false } else { p with main := false }
  if !me then s
  else if !other then
    (s.modPwr fun p => { p with carrier := 0, holdEnd := none, defEnd := none, trip := false, upEnd := some (s.now + 12 * usTicks) }).zeroStart
  else if p.carrier = (if bkp then 2 else 1) then s.carry (if bkp then 1 else 2)
  else if bkp then s
  else s.modPwr fun p => { p with holdEnd := none, defEnd := none }
def execFeedFail (bkp : Bool) (s : State) : Host.Outcome State Fault Refusal := .next (s.feedFail bkp)

/-- PWR_RETURN_HOLD.HOLD in ticks; 0 acts as 1 ms. -/
def State.holdTicks (s : State) : Nat := max 1 (s.rf (aPwr 0x104) 15 0) * 1000 * usTicks

/-- FEED_OK (R478, R480, R496): 10.8 V or above. With no carrier the feed carries at once: within the hold-up the part runs on, otherwise it
powers up. A MAIN that becomes OK behind BACKUP starts the return hold, and one that rises to 10.8 V again during the hold starts it anew. -/
def State.feedOk (s : State) (bkp : Bool) : State :=
  let p := s.pwr
  let me := if bkp then p.bkp else p.main
  let s := s.modPwr fun p => if bkp then { p with bkp := true } else { p with main := true }
  if me then
    if !bkp ∧ p.carrier = 2 ∧ p.defEnd.isNone then s.modPwr fun p => { p with holdEnd := some (s.now + s.holdTicks) } else s
  else if p.carrier = 0 then
    if p.upEnd.isSome then s.carry (if bkp then 2 else 1)
    else s.modPwr fun p => { p with carrier := if bkp then 2 else 1, good := !p.trip }
  else if !bkp ∧ p.carrier = 2 then s.modPwr fun p => { p with holdEnd := some (s.now + s.holdTicks) }
  else s
def execFeedOk (bkp : Bool) (s : State) : Host.Outcome State Fault Refusal := .next (s.feedOk bkp)

/-- The boundary target within 12 µs of now, if any: the target that has passed, or EPC_NEXT (R481). -/
def State.nearTarget (s : State) : Option Nat :=
  if s.epcOn then [s.epc.target, s.epcNext].find? fun t => decide ((tbDiff t s.tb).natAbs ≤ 12000) else none

/-- RETURN_HOLD_END (R478, R481). -/
def State.holdEnds (s : State) : State :=
  match s.pwr.holdEnd with
  | none => s
  | some t =>
    let s := (s.upTo t).modPwr fun p => { p with holdEnd := none }
    match (if s.rb (aPwr 0x104) 31 then s.nearTarget else none) with
    | none => s.carry 1
    | some v => (s.bumpF (aPwr 0x110) 15 0 1).modPwr fun p => { p with defEnd := some (s.tbTick (tbMove v 12000)) }
def execReturnHoldEnd (s : State) : Host.Outcome State Fault Refusal := .next s.holdEnds

/-- RETURN_DEFER_END (R481). -/
def State.deferEnds (s : State) : State :=
  match s.pwr.defEnd with
  | none => s
  | some t => (s.upTo t).carry 1
def execReturnDeferEnd (s : State) : Host.Outcome State Fault Refusal := .next s.deferEnds

/-- HOLDUP_EXPIRY (R480): PWR_GOOD goes low, and every volatile state is lost. -/
def State.holdupEnds (s : State) : State :=
  match s.pwr.upEnd with
  | none => s
  | some t => ((s.upTo t).powerCut.powerOn).modPwr fun p => { p with good := false }
def execHoldupExpiry (s : State) : Host.Outcome State Fault Refusal := .next s.holdupEnds

/-- VIN_SAMPLE (R482, R500). A sample of MAIN below 10.8 V during a return hold stops the hold: it starts anew with the next FEED_OK (R478). -/
def State.vinSample (s : State) (main bkp : Nat) : State :=
  let s := s.setReg (aPwr 0x108) (nw (main * 65536 + bkp))
  if main < 10800 then s.modPwr fun p => { p with holdEnd := none } else s
def execVinSample (main bkp : BitVec 16) (s : State) : Host.Outcome State Fault Refusal := .next (s.vinSample main.toNat bkp.toNat)

/-! ## Temperature (R490, R491) -/

/-- The sensor with the highest reading, the first of them, and the reading, in units of 0.25 °C. -/
def State.hottest (s : State) : Nat × Int :=
  (List.range 46).foldl (fun (m : Nat × Int) i =>
    let v := toSigned 10 (s.rf (aPwr (0x200 + 4 * i)) 9 0)
    if m.2 < v ∨ i = 0 then (i, v) else m) (0, 0)

/-- THERM_N follows TMAX and WARN, with its hysteresis of 5 °C; the event comes when it is driven low (R490). -/
def State.thermAct (s : State) : State :=
  let t := toSigned 8 (s.rf (aPwr 0x160) 15 8)
  let warn := toSigned 8 (s.rf (aPwr 0x160) 7 0)
  if warn ≤ t then (let u := s.setRb (aPwr 0x160) 31 true; if s.rb (aPwr 0x160) 31 then u else u.raise (mPage 1) 9)
  else if t < warn - 5 then s.setRb (aPwr 0x160) 31 false
  else s

/-- TEMP_SAMPLE (R490): the readings, TMAX and its sensor, THERM_N. -/
def State.tempSample (s : State) (readings : List (BitVec 10)) : State :=
  let s := (List.range (min 46 readings.length)).foldl (fun s i => s.setReg (aPwr (0x200 + 4 * i)) (nw (readings.getD i 0).toNat)) s
  let m := s.hottest
  ((s.setRf (aPwr 0x160) 23 16 m.1).setRf (aPwr 0x160) 15 8 (iw (m.2 / 4)).toNat).thermAct
def execTempSample (readings : List (BitVec 10)) (s : State) : Host.Outcome State Fault Refusal := .next (s.tempSample readings)

/-- THERMAL_TRIP (R491): zeroization starts, FAULT_N goes low, and 12 µs later every rail is off; the converter stage latches the trip. -/
def State.thermalTrip (s : State) : State :=
  let s := (s.zeroStart).driveFault
  ((s.upTo (s.now + 12 * usTicks)).powerCut.powerOn).modPwr fun p => { p with trip := true, good := false, faultN := true }
def execThermalTrip (s : State) : Host.Outcome State Fault Refusal := .next s.thermalTrip

/-! ## DVFS (R41, R488, R489) -/

/-- A change to TARGET begins where it differs from CUR and none runs: rails first upwards, dividers first downwards. -/
def State.dvfsBegin (s : State) : State :=
  let t := s.rf (aPwr 0x120) 1 0
  let cur := s.rf (aPwr 0x120) 5 4
  if s.pwr.dvfs.isSome ∨ t = cur then s
  else (s.setRb (aPwr 0x120) 31 true).modPwr fun p => { p with dvfs := some (t, if cur < t then 0 else 2, s.now) }

/-- A change ends: BUSY clears, and a TARGET stored meanwhile is acted on. -/
def State.dvfsEnd (s : State) : State := ((s.setRb (aPwr 0x120) 31 false).modPwr fun p => { p with dvfs := none }).dvfsBegin

/-- PWR_DVFS_WRITE. -/
def State.dvfsWrite (s : State) (v : Word) : State := (s.writeReg (aPwr 0x120) v).dvfsBegin
def execPwrDvfsWrite (value : Word) (s : State) : Host.Outcome State Fault Refusal := .next (s.dvfsWrite value)

/-- DVFS_RAIL_SETTLED: upwards the dividers may switch now; downwards the change is complete. -/
def State.dvfsSettled (s : State) : State :=
  match s.pwr.dvfs with
  | some (t, 0, b) => s.modPwr fun p => { p with dvfs := some (t, 1, b) }
  | some (_, 3, _) => s.dvfsEnd
  | _ => s
def execDvfsRailSettled (s : State) : Host.Outcome State Fault Refusal := .next s.dvfsSettled

/-- The dividers of all four C-dies switch at the next round boundary. -/
def State.dvfsSwitch (s : State) (t : Nat) : State :=
  let c := roundCeil s.cycCeil
  let s := s.upToCyc c
  { s with clk := { point := t, cycAt := s.cycTick c, cycNo := c } }.setRf (aPwr 0x120) 5 4 t

/-- DVFS_APPLY. -/
def State.dvfsApply (s : State) : State :=
  match s.pwr.dvfs with
  | some (t, 1, _) => (s.dvfsSwitch t).dvfsEnd
  | some (t, 2, b) => (s.dvfsSwitch t).modPwr fun p => { p with dvfs := some (t, 3, b) }
  | _ => s
def execDvfsApply (s : State) : Host.Outcome State Fault Refusal := .next s.dvfsApply

/-! ## Power domains (R484 to R487) -/

/-- What a domain number names. -/
inductive Dom where
  | clu (c : Nat)
  | rgn (r : Nat)
  | quad (d q : Nat)
  | pair (d m : Nat)
  | stack (d k : Nat)
  | half (d : Nat)
  deriving DecidableEq, Repr

/-- The switched domain `n` below 110 (R484). -/
def domOf (n : Nat) : Dom :=
  let d := (n - 80) / 15
  let k := (n - 80) % 15
  if n < 80 then (if n % 20 < 16 then .clu (n / 20 * 16 + n % 20) else .rgn (n / 20 * 4 + (n % 20 - 16)))
  else if k < 8 then .quad d k
  else if k < 12 then .pair d (k - 8)
  else if k < 14 then .stack d (k - 12)
  else .half d

/-- A CAL_SWITCH or a wake of the FMG needs the cluster (R486). -/
def State.cluNeeded (s : State) (c : Nat) : Bool :=
  s.domChanging (domClu c) || (s.clu? c).claimed || (!s.fmg.reqs.isEmpty && (tierClusters s.prof.img 0).contains c)

/-- Pages that are OFF or STOPPED. -/
def State.allHalted (s : State) (l : List Nat) : Bool := l.all fun pg => s.pgHalted pg

/-- The channels of a stack. -/
def stackChans (d k : Nat) : List Nat := (List.range 8).map fun i => 16 * d + 8 * k + i

/-- The span of cells meets the upper half of the packet buffer. -/
def inHalf (x : Nat × Nat) : Bool := decide (0 < x.2) && decide (98304 < x.1 + x.2)

/-- The condition under which software may switch a domain OFF (R321, R485). -/
def State.offOk (s : State) : Dom → Bool
  | .clu c =>
    !decide (c = s.spareOf (c / 16)) && !s.cluNeeded c &&
      (s.pgHalted (cluPage c 0) || ((s.clu? c).packet && !(tierClusters s.prof.img s.prof.tier).contains c))
  | .rgn r =>
    (List.range 4).all (fun k => decide (s.dom (domClu (4 * r + k)) = 0)) &&
      (decide (r ≠ 0) || (s.gsa.isEmpty && !s.rb (aPol 0 0x140) 31))
  | .quad d q => (List.range 64).all fun i => !s.usesQuad d q i
  | .pair d m => s.allHalted ([0, 1, 2].flatMap fun p => [slicePage d (2 * m) p, slicePage d (2 * m + 1) p])
  | .stack d k => s.allHalted ((stackChans d k).map dmcPage) && [0, 1, 2, 3].all fun w => !s.rb (aMir d w) 31
  | .half d => (List.range 64).all fun p => !s.poolEn d p || (!inHalf (s.poolSpan d p) && (s.poolDram d p || !inHalf (s.ringSpan d p)))

/-- A command that breaks a condition is refused: to OFF as above, to IDLE for the kinds that have it and a domain that is not OFF. -/
def State.domRefused (s : State) (n st : Nat) : Bool :=
  match st with
  | 1 => false
  | 2 =>
    match domOf n with
    | .clu c => decide (s.dom n = 0) || s.cluNeeded c
    | .stack _ _ => decide (s.dom n = 0)
    | _ => true
  | _ => decide (s.dom n ≠ 0 ∨ s.domChanging n) && !s.offOk (domOf n)

/-- The wake and switch times of R485 in ticks. -/
def domTime (x : Dom) (from_ : Nat) : Nat :=
  match x with
  | .clu _ => (if from_ = 2 then 40 else 200) * usTicks
  | .rgn _ => 2000 * usTicks
  | .quad _ _ => 2000 * usTicks
  | .pair _ _ => 100 * usTicks
  | .stack _ _ => (if from_ = 2 then 20 else 180000) * usTicks
  | .half _ => 50 * usTicks

/-- RESULT and BUSY of PWR_DOM_CMD. -/
def State.domResult (s : State) (busy r : Nat) : State := s.setReg (aPwr 0x130) (nw (busy * 2 ^ 31 + r * 2 ^ 28))

/-- A write of PWR_DOM_CMD (R486, R500): state 0 OFF, 1 ON, 2 IDLE. -/
def State.domCommand (s : State) (n st : Nat) : State :=
  if s.pwr.domCmd.isSome ∨ s.railsOff then s
  else if 110 ≤ n then s.domResult 0 3
  else if s.domRefused n st then s.domResult 0 1
  else if s.dom n = st ∧ !s.domChanging n then s.domResult 0 0
  else if st = 1 ∧ s.pwr.domSw.any (fun e => decide (e.1 = n ∧ e.2.1 = 1)) then (s.domResult 1 0).modPwr fun p => { p with domCmd := some n, domWas := s.dom n }
  else ((s.domStart n st (if st = 1 then domTime (domOf n) (s.dom n) else 0)).domResult 1 0).modPwr fun p => { p with domCmd := some n, domWas := s.dom n }
def execDomainOn (dom : Fin 128) (s : State) : Host.Outcome State Fault Refusal := .next (s.domCommand dom.val 1)
def execDomainIdle (dom : Fin 128) (s : State) : Host.Outcome State Fault Refusal := .next (s.domCommand dom.val 2)
def execDomainOff (dom : Fin 128) (s : State) : Host.Outcome State Fault Refusal := .next (s.domCommand dom.val 0)

/-- What a domain that reaches OFF loses (R485). -/
def State.domLose (s : State) : Dom → State
  | .clu c =>
    let s := s.cluClear c
    { s with cmem := s.cmem.lose fun a => decide (a / 2 ^ 20 = c) }
  | .rgn r =>
    { s with pol := tDrop s.pol (65536 * 8) r, polBad := tDrop s.polBad (65536 * 8) r, polCnt := tDrop s.polCnt 65536 r,
             cntAdds := s.cntAdds.filter fun a => decide (a.2.1 / 65536 ≠ r) }
  | .quad _ _ => s
  | .pair d m =>
    let sl := [2 * m, 2 * m + 1]
    let s := sl.foldl (fun s x => ((s.clearSlice d x 0).clearSlice d x 1).clearSlice d x 2) s
    s.clearRegs fun a => sl.any fun x => [0, 1, 2].any fun p => decide (a / 4096 = slicePage d x p)
  | .stack d k =>
    let s := (stackChans d k).foldl (fun s ch => s.setRb (aDmcStat ch) 31 false) s
    { s with dram := s.dram.lose fun a => (stackChans d k).contains (dramChan a) }
  | .half d => { s with pktMem := s.pktMem.lose fun a => decide (a / 2 ^ 26 = d ∧ 98304 ≤ a / 256 % 2 ^ 18) }

/-- The replica of a region whose domain comes ON is copied from the write region's (R321, R485). -/
def State.copyReplica (s : State) (r : Nat) : State :=
  match s.writeRegion with
  | none => s
  | some w =>
    let cp := fun {α : Type} (t : Tbl α) => (t.filter fun e => decide (e.1 / 524288 = w)).foldl (fun t e => tPut t (r * 524288 + e.1 % 524288) e.2)
      (tDrop t 524288 r)
    { s with pol := cp s.pol, polBad := cp s.polBad, polCnt := tDrop s.polCnt 65536 r,
             cntAdds := s.cntAdds.filter fun a => decide (a.2.1 / 65536 ≠ r) }

/-- What a domain that reaches ON from OFF does (R432, R485). A cluster serves no task before its invalidation is complete (R247). -/
def State.domUp (s : State) : Dom → State
  | .clu c => ((s.cdcInvalidate c).reinstall c).setClu c fun k => { k with eligAt := max k.eligAt (s.cyc + 1056) }
  | .rgn r => s.copyReplica r
  | .stack d k => (stackChans d k).foldl (fun s ch => (s.setRb (aDmcStat ch) 31 true).setRb (aDmcStat ch) 30 false) s
  | _ => s

/-- The switch that completes next. -/
def nextSwitch (l : List (Nat × Nat × Nat)) : Option (Nat × Nat × Nat) :=
  l.foldl (fun m e => match m with
    | none => some e
    | some x => if e.2.2 < x.2.2 then some e else m) none

/-- DOMAIN_SWITCH_DONE: the change completes; a domain that faults ends OFF, reported as class 3 (R486). -/
def State.switchDone (s : State) (fault : Bool) : State :=
  match nextSwitch s.pwr.domSw with
  | none => s
  | some (n, st, t) =>
    let s := (s.upTo t).modPwr fun p => { p with domSw := p.domSw.filter fun e => !decide (e.1 = n) }
    let was := s.dom n
    let s : State :=
      if fault then (((s.setDom n 0).domLose (domOf n)).err (mPage 1) 3 (Config.faultCause s.draw % 65536) n 0).drawn
      else if st = 0 then (s.setDom n 0).domLose (domOf n)
      else if st = 1 ∧ was = 0 then (s.domUp (domOf n)).setDom n 1
      else s.setDom n st
    if s.pwr.domCmd = some n then (s.domResult 0 (if fault then 2 else 0)).modPwr fun p => { p with domCmd := none } else s
def execDomainSwitchDone (fault : Bool) (s : State) : Host.Outcome State Fault Refusal := .next (s.switchDone fault)

/-! ## The Tally (R492, R493) -/

/-- The power domain that a page of a block stands in, if it stands in one (R484). -/
def pageDom (k : Kind) (pg : Nat) : Option Nat :=
  match k with
  | .core | .clu | .cmem | .cdc | .cpx | .lx | .sp | .ec | .kw => some (domClu (cluOfPage pg))
  | .esc => some (if pg / 16 % 16 = 15 then domRgn (rgnOfPage pg) else domClu (cluOfPage pg))
  | .tel | .pol | .rsw => some (domRgn (rgnOfPage pg))
  | .mac | .prs | .cph => some (domPair (pdOfPage pg) (sliceOfPage pg / 2))
  | .sds => some (domQuad (pdOfPage pg) (sliceOfPage pg))
  | .dmc => some (domStack (pdOfPage pg) (pg % 16 / 8))
  | _ => none

/-- Every page of the part (R527). -/
def allPages : List Nat := (List.range 28672).filter fun pg => (pageKind pg).isSome

/-- A page adds energy: not one of a domain that is OFF (R492). -/
def State.pageEnergy (s : State) (pg : Nat) : Nat :=
  match pageKind pg with
  | some (k, _) => if (pageDom k pg).any fun n => decide (s.dom n = 0) then 0 else Config.energy pg s.draw
  | none => 0

/-- TALLY_UPDATE: 1 µs of timebase after the latest, each page adds the energy that it has consumed, a free value. -/
def State.tallyUpdate (s : State) : State :=
  let s := s.upTo (s.tallyAt + s.tbTicks 1000)
  { s with tally := allPages.foldl (fun t pg => tUpd (fun _ => 0) t pg fun v => (v + s.pageEnergy pg) % 2 ^ 64) s.tally,
           tallyAt := s.now, draw := s.draw + 1 }
def execTallyUpdate (s : State) : Host.Outcome State Fault Refusal := .next s.tallyUpdate

/-- TALLY_LO of a page, with TALLY_HI latched for the master that reads. -/
def State.tallyLo (s : State) (pg master : Nat) : Word × State :=
  let v := tGet (fun _ => 0) s.tally pg
  (nw v, { s with tallyHi := tSet (fun _ => 0) s.tallyHi (2 * pg + master) (nw (v / 2 ^ 32)) })
def execTallyRead (page : Nat) (master : Fin 2) (s : State) : Host.Outcome State Fault Refusal :=
  .next ((s.tallyLo page master.val).2.emit (.data (s.tallyLo page master.val).1))

/-! ## Resets and clocks (R495, R497, R554) -/

/-- POWER_ON_RESET: PORST_N low for `n` ns; between the filter's limits it is taken or ignored whole. A latched trip lets the part restart. -/
def State.porst (s : State) (n : Nat) : State :=
  let ok := decide (1000 ≤ n) || (decide (100 ≤ n) && Config.pulseTaken s.draw)
  let s := if 100 ≤ n ∧ n < 1000 then s.drawn else s
  if ok then s.restart else s
def execPowerOnReset (lowNs : Nat) (s : State) : Host.Outcome State Fault Refusal := .next (s.porst lowNs)

/-- Every queue pair with DEST = 0 stops, and both BPM pages sweep the buffers of the host DMA engines (R497, R554). -/
def State.dmaStop (s : State) : State :=
  let s := (List.range 16).foldl (fun s q =>
    if s.dmaDest q then s else (s.clearBlock (dmaPage q)).resetRegs fun pg => decide (pg = dmaPage q)) s
  [0, 1].foldl (fun s d => s.modPd d fun x => { x with sweeps := x.sweeps ++ [(0x3000, 0x3FC0)] }) s

/-- PCIE_RESET: PERST_N falls. -/
def State.pcieReset (s : State) : State := ({ s with perst := true }.setDom 110 0).dmaStop
def execPcieReset (s : State) : Host.Outcome State Fault Refusal := .next s.pcieReset

/-- FLR: as a PCIe reset, with PERST_N high. -/
def execFlr (s : State) : Host.Outcome State Fault Refusal := .next s.dmaStop

/-- PERST_RELEASE: domain 110 is ON while PERST_N is high (R485). -/
def execPerstRelease (s : State) : Host.Outcome State Fault Refusal := .next ({ s with perst := false }.setDom 110 1)

/-- REFCLK_LOSS (R494, R495, R515): a missing REFCLK_SYS is fatal to the device, with FAULT_N low. -/
def State.refclkLoss (s : State) : State :=
  ((((s.setRb (ra (mPage 2) 0x100) 31 false).err (mPage 2) 5 0x0F 31 0).driveFault)).stopData [0, 1]
def execRefclkLoss (s : State) : Host.Outcome State Fault Refusal := .next s.refclkLoss

end Sys2Proof.Machine
end

