-- ==== Sys2Proof/Machine/DramRows.lean ====
section
/-! DEFINITION. The DRAM channels, fills, scrubs and retirement (R433 to R453, R544, R557). -/

namespace Sys2Proof.Machine

/-! ## Channel faults (R435, R439, R440, R443) -/

/-- The enabled mirror windows of a P-die. -/
def State.mirOn (s : State) (d : Nat) : List Nat := [0, 1, 2, 3].filter fun w => s.rb (aMir d w) 31

/-- A channel becomes FAULTED: class 3 with its kind (1 training, 2 tracking, 3 command parity), and every window degrades. -/
def State.channelFault (s : State) (ch kind : Nat) : State :=
  let d := ch / 16
  let s := ((s.setRb (aDmcStat ch) 30 true).pgFault (dmcPage ch)).err (dmcPage ch) 3 0x0D kind 0
  let s := if kind = 1 then s.setRb (aDmcStat ch) 31 false else s
  (s.mirOn d).foldl (fun s w =>
    { s.setRb (aMir d w) 30 true with resync := tPut s.resync ((4 * d + w) * 16 + ch % 16) 0 }) s
def execChannelFatal (ch : ChannelId) (kind : BitVec 2) (s : State) : Host.Outcome State Fault Refusal := .next (s.channelFault ch.val kind.toNat)

/-- COMMAND_PARITY_ALERT: counted; the third failed replay of one command faults the channel. -/
def State.parityAlert (s : State) (ch failed : Nat) : State :=
  let s := s.bump (ra (dmcPage ch) 0x11C)
  if failed = 3 then s.channelFault ch 3 else s
def execCommandParityAlert (ch : ChannelId) (failedReplays : Fin 4) (s : State) : Host.Outcome State Fault Refusal :=
  .next (s.parityAlert ch.val failedReplays.val)

/-- CHANNEL_RESET: DMC_CTRL.RST; the FMG's recovery path of a FAULTED channel begins. -/
def State.channelReset (s : State) (ch : Nat) : State :=
  if s.rb (aDmcStat ch) 28 then s
  else ((s.setRb (aDmcStat ch) 28 true).setRb (aDmcStat ch) 31 false).pgRecover (dmcPage ch)
def execChannelReset (ch : ChannelId) (s : State) : Host.Outcome State Fault Refusal := 
  .next (s.domGate (domStack (ch.val / 16) (ch.val % 16 / 8)) fun s => s.channelReset ch.val)

/-- CHANNEL_RESET_DONE: the contents are undefined, as at power-up; a channel that fails step 6 of R432 is FAULTED. -/
def State.channelResetDone (s : State) (ch : Nat) (trained : Bool) : State :=
  if !s.rb (aDmcStat ch) 28 then s
  else
    let s := { (s.setRb (aDmcStat ch) 28 false).trainCounts ch with dram := s.dram.lose fun a => decide (dramChan a = ch) }
    if trained then ((s.setRb (aDmcStat ch) 31 true).setRb (aDmcStat ch) 30 false).pgRecovered (dmcPage ch)
    else s.channelFault ch 1
def execChannelResetDone (ch : ChannelId) (trained : Bool) (s : State) : Host.Outcome State Fault Refusal :=
  .next (s.channelResetDone ch.val trained)

/-! ## Mirror windows (R443) -/

/-- The channels of a window that await a resync, in state `v`: 0 none runs, 1 one runs. -/
def State.resyncing (s : State) (d w v : Nat) : List Nat :=
  (List.range 16).filter fun k => decide (tFind s.resync ((4 * d + w) * 16 + k) = some v)

/-- MIRROR_RESYNC: the copy to the restored channels starts. -/
def State.mirrorResync (s : State) (d w : Nat) : State :=
  let l := (s.resyncing d w 0).filter fun k => !s.faulted (16 * d + k)
  if !s.rb (aMir d w) 31 ∨ l = [] then s
  else { s.setRb (aMir d w) 29 true with resync := l.foldl (fun t k => tPut t ((4 * d + w) * 16 + k) 1) s.resync }
def execMirrorResync (d : PDie) (win : Fin 4) (s : State) : Host.Outcome State Fault Refusal := 
  .next (s.domGate (domStack d.val 0) fun s => s.mirrorResync d.val win.val)

/-- Copy one word of a channel to another address: a UE stays a UE. -/
def Arr.copyWord (a : Arr) (id from_ to_ : Nat) : Arr :=
  let b := a.read id from_ 8
  if a.code id (from_ / 8) = 2 then (a.write id to_ b).spoil to_ 8 else a.write id to_ b

/-- The words of a window that lie on channel `k` of P-die `d`, as device addresses. -/
def State.windowWords (s : State) (d w k : Nat) : List Nat :=
  let base := s.rf (aMir d w) 4 0 * 2 ^ 18
  (List.range (s.rf (aMir d w + 4) 4 0 * 2 ^ 18)).flatMap fun g => (List.range 32).map fun i =>
    d * 0x700000000 + (base + g) * 4096 + k * 256 + 8 * i

/-- RESYNC_DONE: each restored channel holds what its partner holds; RESYNC clears, and DEGRADED with the last channel. -/
def State.resyncDone (s : State) (d w : Nat) : State :=
  let l := s.resyncing d w 1
  if l = [] then s
  else
    let s := l.foldl (fun s k =>
      let put := fun (m : Arr) (a : Nat) => m.copyWord arrDram (if k < 8 then a + 2048 else a - 2048) a
      { s with dram := (s.windowWords d w k).foldl put s.dram, resync := tDel s.resync ((4 * d + w) * 16 + k) }) s
    let s := s.setRb (aMir d w) 29 false
    if s.resyncing d w 0 = [] then s.setRb (aMir d w) 30 false else s
def execResyncDone (d : PDie) (win : Fin 4) (s : State) : Host.Outcome State Fault Refusal := .next (s.resyncDone d.val win.val)

/-! ## Refresh (R436, R437) -/

/-- DMC_REF_STAT: the refreshes postponed. -/
def aRef (ch : Nat) : Nat := ra (dmcPage ch) 0x108

/-- REFRESH: a refresh is issued, one that stood postponed first; postponed, or covered by one pulled in; or pulled in ahead. Never more than
8 stand postponed or pulled in. -/
def State.refresh (s : State) (ch : Nat) (op : RefreshOp) : State :=
  let n := s.rf (aRef ch) 3 0
  let p := tGet (fun _ => 0) s.pulled ch
  let put := fun (n p : Nat) => { s.setRf (aRef ch) 3 0 n with pulled := tSet (fun _ => 0) s.pulled ch p }
  match op with
  | .issue => put (n - 1) p
  | .postpone => if 0 < p then put n (p - 1) else put (min 8 (n + 1)) p
  | .pullIn => if 0 < n then put (n - 1) p else put n (min 8 (p + 1))
def execRefresh (ch : ChannelId) (op : RefreshOp) (s : State) : Host.Outcome State Fault Refusal := .next (s.refresh ch.val op)

/-- MR4_POLL (R437). -/
def State.mr4 (s : State) (ch : Nat) (v : Byte) : State :=
  let rate := Config.mr4Rate v.toNat
  let n := s.rf (aRef ch) 3 0
  let was := s.rb (aRef ch) 4
  let s := s.setReg (ra (dmcPage ch) 0x10C) (nw v.toNat)
  let s := if 2 ≤ rate then s.err (dmcPage ch) 1 0x10 v.toNat 0 else s
  let s := s.setRb (aRef ch) 4 (decide (1 ≤ rate))
  if 1 ≤ rate ∧ !was then
    let s := s.setRf (aRef ch) 3 0 (min 8 (2 * n))
    if 8 < 2 * n then s.bump (ra (dmcPage ch) 0x120) else s
  else if rate = 0 ∧ was then s.setRf (aRef ch) 3 0 ((n + 1) / 2)
  else s
def execMr4Poll (ch : ChannelId) (mr4 : Byte) (s : State) : Host.Outcome State Fault Refusal := .next (s.mr4 ch.val mr4)

/-! ## Retirement of a channel page (R434, R451) -/

/-- A copy of words from `a` on in place: a CE is corrected and logged, a UE is recorded and written with the poison pattern. The
page's errors carry the address `a - base`. -/
def State.copyWords (s : State) (get : State → Arr) (put : State → Arr → State) (id pg base : Nat) (l : List Nat) : State :=
  l.foldl (fun s a =>
    match (get s).code id (a / 8) with
    | 0 => s
    | 1 =>
      let s := s.eccCe pg ((get s).flaw id (a / 8)) (a - base)
      put s ((get s).write id a ((get s).read id a 8))
    | _ =>
      let s := s.eccUe pg 2 ((get s).synd id (a / 8)) (a - base)
      put s (((get s).write id a ((get s).read id a 8)).spoil a 8)) s

/-- The words of channel page `p` of a channel. -/
def pageWords (ch p : Nat) : List Nat := (List.range 224).map fun i => dramOfL ch (1792 * p + 8 * i)

/-- RETIRE_DRAM (R451, R544). -/
def State.retireDram (s : State) (kind ch p : Nat) : State :=
  s.mbxStart fun s =>
    if 1 < kind ∨ ch / 16 ≠ kind ∨ 1048512 ≤ p then s.mbxEnd 3
    else if (List.range 64).any fun n => s.rb (aRemap ch n) 31 && decide (s.rf (aRemap ch n) 19 0 = p) then s.mbxEnd 0x12
    else
      match (List.range 64).find? fun n => !s.rb (aRemap ch n) 31 with
      | none => s.mbxEnd 0x13
      | some n =>
        let s := s.setReg (aRemap ch n) (nw (2 ^ 31 + p))
        ({ s.setRf (aDmcStat ch) 6 0 (s.rf (aDmcStat ch) 6 0 + 1) with retire := some (ch, p) }).mbxRuns 3
def execRetireDram (kind : BitVec 4) (ch : BitVec 5) (page : BitVec 20) (s : State) : Host.Outcome State Fault Refusal :=
  .next (s.retireDram kind.toNat ch.toNat page.toNat)

/-- The copy of a pending retirement within the blackout: from its end on accesses use the spare. -/
def State.retireCopy (s : State) (ch : Nat) : State :=
  match s.retire with
  | none => s
  | some (c, p) =>
    if c ≠ ch ∨ s.mbxJob = 4 then s
    else
      let s := s.copyWords (·.dram) (fun s m => { s with dram := m }) arrDram (dmcPage ch) 0 (pageWords ch p)
      let s := (List.range 64).foldl (fun s n =>
        if s.rb (aRemap ch n) 31 ∧ s.rf (aRemap ch n) 19 0 = p then s.setRb (aRemap ch n) 30 true else s) s
      ({ s with retire := none }).mbxEndOf 3 0

/-- DRAM_TRACKING (R434, R435): at the channel's turn in every 100 ms of timebase; the blackout begins, at most 1 µs long. -/
def State.tracking (s : State) (ch : Nat) (inRange : Bool) : State :=
  let s := s.upTo (s.tbTick (nextCongr (s.tb + 1) (ch * 3125000) 100000000))
  if s.faulted ch then s
  else
    let s := { s with trackEnd := tPut s.trackEnd ch (s.now + Config.blackout s.draw % (usTicks + 1)) }.drawn.retireCopy ch
    if inRange then s else s.channelFault ch 2
def execDramTracking (ch : ChannelId) (inRange : Bool) (s : State) : Host.Outcome State Fault Refusal := .next (s.tracking ch.val inRange)

/-! ## Fills (R447, R557) -/

/-- The granules of channel pages `p` to `p + n - 1` of a channel are usable DRAM. -/
def State.fillOk (s : State) (ch p n : Nat) : Bool :=
  decide (p + n ≤ 1048512) && (List.range (7 * n)).all fun g => s.dramUsable (dramOfL ch (256 * (7 * p + g)))

/-- DMC_FILL_CTRL of a channel, and its BUSY. -/
def aFill (ch : Nat) : Nat := ra (dmcPage ch) 0x140
def State.filling (s : State) (ch : Nat) : Bool := s.rb (aFill ch) 31

/-- A fill of a channel starts. -/
def State.fillStart (s : State) (ch p n pat : Nat) : State :=
  { s.setReg (aFill ch) (nw (2 ^ 31)) with fills := tPut s.fills ch (p, n, pat) }

/-- DMC_FILL: a GO while the channel fills is ignored. -/
def State.dmcFill (s : State) (ch : Nat) : State :=
  let g := dmcPage ch
  let p := s.rf (ra g 0x130) 19 0
  let n := s.rf (ra g 0x134) 20 0
  if s.filling ch then s
  else if s.fillOk ch p n then s.fillStart ch p n (s.pair (ra g 0x138))
  else (s.hwMark (aFill ch) (maskOf 30 30)).setReg (aFill ch) (nw (2 ^ 30 + 2 ^ 28))
def execDmcFill (ch : ChannelId) (s : State) : Host.Outcome State Fault Refusal := 
  .next (s.domGate (domStack (ch.val / 16) (ch.val % 16 / 8)) fun s => s.dmcFill ch.val)

/-- DMC_FILL_DONE: the pattern stands in every word of the range. -/
def State.dmcFillDone (s : State) (ch : Nat) : State :=
  match tFind s.fills ch with
  | none => s
  | some (p, n, pat) =>
    let b := (List.replicate 32 (leBytes 8 pat)).flatten
    let s := (List.range (7 * n)).foldl (fun s g => s.dramPut (dramOfL ch (256 * (7 * p + g))) b) s
    { (s.hwMark (aFill ch) (maskOf 30 30)).setReg (aFill ch) (nw (2 ^ 30)) with fills := tDel s.fills ch }
def execDmcFillDone (ch : ChannelId) (s : State) : Host.Outcome State Fault Refusal := .next (s.dmcFillDone ch.val)

/-- A register of the HST page. -/
def aHst (off : Nat) : Nat := ra (mPage 5) off

/-- HST_FILL: fills start on all 16 channels of the die, or the fill is refused. -/
def State.hostFill (s : State) : State :=
  let d := s.rf (aHst 0x140) 0 0
  let p := s.rf (aHst 0x144) 19 0
  let n := s.rf (aHst 0x148) 20 0
  let chs := (List.range 16).map (16 * d + ·)
  if s.hstFill.isSome then s
  else if chs.any (fun c => s.filling c || !s.fillOk c p n) then (s.hwMark (aHst 0x154) (maskOf 30 30)).setReg (aHst 0x154) (nw (2 ^ 30 + 2 ^ 28))
  else
    let s := chs.foldl (fun s c => s.fillStart c p n (s.pair (aHst 0x14C))) s
    { s.setReg (aHst 0x154) (nw (2 ^ 31)) with hstFill := some d }
def execHstFill (s : State) : Host.Outcome State Fault Refusal := .next s.hostFill

/-- HST_FILL_DONE: when all 16 fills are done. -/
def State.hostFillDone (s : State) : State :=
  match s.hstFill with
  | none => s
  | some d =>
    if (List.range 16).any fun k => s.filling (16 * d + k) then s
    else { (s.hwMark (aHst 0x154) (maskOf 30 30)).setReg (aHst 0x154) (nw (2 ^ 30)) with hstFill := none }
def execHstFillDone (s : State) : Host.Outcome State Fault Refusal := .next s.hostFillDone

/-! ## SCRUB (R450, R544) -/

/-- The bytes of one SRAM array instance of a kind of R544, and its instances. -/
def arrayBytes (kind : Nat) : Nat :=
  match kind with
  | 2 => 48 * 2 ^ 20
  | 3 => 32 * 2 ^ 20
  | 4 => 48 * 2 ^ 20
  | 5 => 16 * 2 ^ 20
  | 6 => 4 * 2 ^ 20
  | 7 => 4 * 2 ^ 20
  | _ => 2 ^ 20
def arrayInsts (kind : Nat) : Nat := if kind = 8 then 64 else 2

/-- The page that logs for an array instance. -/
def arrayPage (kind i : Nat) : Nat :=
  match kind with
  | 2 => pdPage i 5
  | 3 => pdPage i 0
  | 4 => pdPage i 3
  | 5 => pdPage i 4
  | 6 => pdPage i 1
  | 7 => pdPage i 6
  | _ => cluPage i 1

/-- The tally of a scrub: CEs, UEs, the first UE. -/
abbrev Tally := Nat × Nat × Option Nat

/-- Count the outcome of a word at address `a`. -/
def scrubCount (t : Tally) (ce : Nat) (ue : Bool) (a : Nat) : Tally :=
  (t.1 + ce, if ue then (t.2.1 + 1, match t.2.2 with | none => some a | some x => some x) else t.2)

/-- Scrub one word of one copy in DRAM: the outcome, with a CE logged and written back. -/
def State.scrubOne (s : State) (a : Nat) : Nat × State :=
  match s.dramWord1 a with
  | (1, s') => (1, { s' with dram := s'.dram.write arrDram a (s'.dram.read arrDram a 8) })
  | r => r

/-- Scrub one word of DRAM: the CEs counted, a repaired copy among them, and whether it is a UE (R450; log entry 225). -/
def State.scrubDram (s : State) (a : Nat) : Nat × Bool × State :=
  let plain := fun (x : Nat) => match s.scrubOne x with
    | (2, s') => (0, true, s'.dramUe 2 x)
    | (c, s') => (c, false, s')
  match s.mirOf a with
  | none => if s.faulted (dramChan a) then (0, true, s) else plain a
  | some w =>
    if s.mirOut w a then (if s.mirOut w (a + 2048) then (0, true, s.dramUe 2 a) else plain (a + 2048))
    else if s.mirOut w (a + 2048) then plain a
    else
      let x := s.scrubOne a
      let y := x.2.scrubOne (a + 2048)
      if x.1 = 2 ∧ y.1 = 2 then (0, true, (y.2.dramUe 2 a).dramUe 2 (a + 2048))
      else if x.1 = 2 then (y.1 + 1, false, (y.2.dramRepair a (a + 2048)).2)
      else if y.1 = 2 then (x.1 + 1, false, (y.2.dramRepair (a + 2048) a).2)
      else (x.1 + y.1, false, y.2)

/-- Scrub one word of an SRAM array that the model keeps with its codes, at array address `a`, logged at `a - base`. -/
def State.scrubSram (s : State) (get : State → Arr) (put : State → Arr → State) (id pg base a : Nat) : Nat × Bool × State :=
  match (get s).code id (a / 8) with
  | 0 => (0, false, s)
  | 1 =>
    let s := s.eccCe pg ((get s).flaw id (a / 8)) (a - base)
    (1, false, put s ((get s).write id a ((get s).read id a 8)))
  | _ => (0, true, s.eccUe pg 2 ((get s).synd id (a / 8)) (a - base))

/-- The queue of a P-die whose record holds a soft error in the word at array address `x`. -/
def State.tmFlawAt (s : State) (d x : Nat) : Option Nat :=
  ((s.queues.filter fun e => decide (e.1 / 32768 = d) && e.2.flaw.isSome).map (·.1 % 32768)).find? fun q => decide (Config.tmAddr q / 8 = x / 8)

/-- The soft error in the word at array byte address `x` of an array whose entries the model keeps as records: the Flow Table (kind 3), the
Vault (5), the fragment table (6), the TM's queues (7). -/
def State.recFlaw (s : State) (kind i x : Nat) : Option Flaw :=
  match kind with
  | 3 => (tFind s.ftBad (i * 2 ^ 21 + x / 64)).filter fun f => decide (f.word = x / 8 % 8)
  | 5 => (tFind s.vltBad (i * 2 ^ 19 + x / 32)).filter fun f => decide (f.word = x / 8 % 4)
  | 6 => ((tFind (s.pd i).frags (x / 64)).bind (·.flaw)).filter fun f => decide (f.word = x / 8 % 8)
  | _ => (s.tmFlawAt i x).bind fun q => (s.queue i q).flaw

/-- Put or remove the soft error of such a word. -/
def State.putFlaw (s : State) (kind i x : Nat) (f : Option Flaw) : State :=
  match kind with
  | 3 => { s with ftBad := tOpt s.ftBad (i * 2 ^ 21 + x / 64) f }
  | 5 => { s with vltBad := tOpt s.vltBad (i * 2 ^ 19 + x / 32) f }
  | 6 =>
    match tFind (s.pd i).frags (x / 64) with
    | some e => s.putFrag i (x / 64) { e with flaw := f }
    | none => s
  | _ =>
    match s.tmFlawAt i x with
    | some q => s.putQueue i q { s.queue i q with flaw := f }
    | none => s

/-- Scrub a word of an array kept as records: a CE is written back corrected. -/
def State.scrubRec (s : State) (kind i x : Nat) : Nat × Bool × State :=
  match s.recFlaw kind i x with
  | none => (0, false, s)
  | some f =>
    let u := s.flawRead (arrayPage kind i) f x
    if f.ue then (0, true, u) else (1, false, u.putFlaw kind i x none)

/-- Scrub the word at array byte address `x` of an instance. -/
def State.scrubWord (s : State) (kind i x : Nat) : Nat × Bool × State :=
  match kind with
  | 0 => s.scrubDram x
  | 1 => s.scrubDram x
  | 2 => s.scrubSram (·.pktMem) (fun s m => { s with pktMem := m }) (arrPkt i) (arrayPage 2 i) (i * 2 ^ 26) (i * 2 ^ 26 + x)
  | 4 => s.scrubSram (·.sat) (fun s m => { s with sat := m }) (arrSat i) (arrayPage 4 i) (i * 2 ^ 19 * 96) (i * 2 ^ 19 * 96 + x)
  | 8 => s.scrubSram (·.cmem) (fun s m => { s with cmem := m }) arrCmem (arrayPage 8 i) (i * 2 ^ 20) (i * 2 ^ 20 + x)
  | _ => s.scrubRec kind i x

/-- SCRUB. -/
def State.scrub (s : State) (kind i start len : Nat) : State :=
  s.mbxStart fun s =>
    if 8 < kind ∨ start % 8 ≠ 0 ∨ len % 8 ≠ 0 ∨ (2 ≤ kind ∧ arrayInsts kind ≤ i) then s.mbxEnd 3
    else if kind ≤ 1 ∧ (len ≠ 0 ∧ (dramDie start ≠ kind ∨ dramDie (start + len - 1) ≠ kind ∨ !s.dramRange start len)) then s.mbxEnd 4
    else if 2 ≤ kind ∧ arrayBytes kind < start + len then s.mbxEnd 4
    else
      let r := (List.range (len / 8)).foldl (fun (r : State × Tally) k =>
        let x := start + 8 * k
        let w := r.1.scrubWord kind i x
        (w.2.2, scrubCount r.2 w.1 w.2.1 x)) (s, (0, 0, none))
      let first := match r.2.2.2 with
        | none => 2 ^ 64 - 1
        | some a => a
      let s := (r.1.mbxRsp 0 (nw (len / 8))).mbxRsp 1 (nw (min 65535 r.2.1 * 65536 + min 65535 r.2.2.1))
      ((s.mbxRsp 2 (nw first)).mbxRsp 3 (nw (first / 2 ^ 32))).mbxEnd 0
def execScrub (kind : BitVec 4) (inst : BitVec 6) (start : BitVec 36) (length : Word) (s : State) : Host.Outcome State Fault Refusal :=
  .next (s.scrub kind.toNat inst.toNat start.toNat length.toNat)

/-! ## Retirement of an SRAM bank (R445, R452) -/

/-- The spares of an array instance, and the number in use. -/
def arraySpares (kind : Nat) : Nat := if kind = 2 then 4 else 2
def State.sparesUsed (s : State) (kind i : Nat) : Nat := (s.banks.filter fun e => decide (e.1 / 4 = kind * 64 + i)).length

/-- RETIRE_SRAM: two of the packet buffer's spares lie in the buffer half, and are refused while it is OFF (R485). -/
def State.retireSram (s : State) (kind i bank : Nat) : State :=
  s.mbxStart fun s =>
    let n := s.sparesUsed kind i
    if kind < 2 ∨ 8 < kind ∨ arrayInsts kind ≤ i ∨ arrayBytes kind ≤ bank * 32768 then s.mbxEnd 3
    else if arraySpares kind ≤ n then s.mbxEnd 0x13
    else if kind = 2 ∧ 2 ≤ n ∧ s.dom (domHalf i) = 0 then s.mbxEnd 4
    else ({ s with retire := some (kind * 64 + i, bank) }).mbxRuns 4
def execRetireSram (kind : BitVec 4) (inst : BitVec 6) (bank : Word) (s : State) : Host.Outcome State Fault Refusal :=
  .next (s.retireSram kind.toNat inst.toNat bank.toNat)

/-- The copy of a word of an array kept as records: a UE is written with the poison pattern. -/
def State.copyRec (s : State) (kind i x : Nat) : State :=
  match s.recFlaw kind i x with
  | none => s
  | some f => (s.flawRead (arrayPage kind i) f x).putFlaw kind i x (if f.ue then some { f with synd := 0xFF } else none)

/-- The copy of a bank, with the treatment of CEs and UEs as for DRAM. -/
def State.bankCopy (s : State) (kind i bank : Nat) : State :=
  let words := fun (base : Nat) => (List.range 4096).map fun k => base + 32768 * bank + 8 * k
  match kind with
  | 2 => s.copyWords (·.pktMem) (fun s m => { s with pktMem := m }) (arrPkt i) (arrayPage 2 i) (i * 2 ^ 26) (words (i * 2 ^ 26))
  | 4 => s.copyWords (·.sat) (fun s m => { s with sat := m }) (arrSat i) (arrayPage 4 i) (i * 2 ^ 19 * 96) (words (i * 2 ^ 19 * 96))
  | 8 => s.copyWords (·.cmem) (fun s m => { s with cmem := m }) arrCmem (arrayPage 8 i) (i * 2 ^ 20) (words (i * 2 ^ 20))
  | _ => (List.range 4096).foldl (fun s k => s.copyRec kind i (32768 * bank + 8 * k)) s

/-- SRAM_RETIRE_DONE: the bank is switched to the spare. -/
def State.sramRetired (s : State) (kind i : Nat) : State :=
  match s.retire with
  | none => s
  | some (k, bank) =>
    if k ≠ kind * 64 + i ∨ s.mbxJob ≠ 4 then s
    else
      let s := s.bankCopy kind i bank
      ({ s with retire := none, banks := tPut s.banks ((kind * 64 + i) * 4 + s.sparesUsed kind i) bank }).mbxEndOf 4 0
def execSramRetireDone (kind : BitVec 4) (inst : BitVec 6) (s : State) : Host.Outcome State Fault Refusal :=
  .next (s.sramRetired kind.toNat inst.toNat)

end Sys2Proof.Machine
end

