-- ==== Sys2Proof/Machine/Faults.lean ====
section
/-! DEFINITION. The FMG queue, lanes, slices and dies that fail (R502 to R517). -/

namespace Sys2Proof.Machine

/-- The level of EVENT_N: low while an entry of class 2 or 3 is unread (R503). FAULT_N is `Pwr.faultN`, PWR_GOOD is `Pwr.good` and THERM_N
is PWR_THERM.THERM_ACT, low where it is 1. -/
def State.eventN (s : State) : Bool := s.fmgq.all fun e => decide (e.cls ≠ 2 ∧ e.cls ≠ 3)

/-- FMG_Q_POP (R508). -/
def execFmgQPop (s : State) : Host.Outcome State Fault Refusal := .next { s with fmgq := fmgPop s.fmgq }

/-! ## Lanes (R512, R513) -/

/-- The pages on which the end of a link records its faults: DSV of a C-die, XLK of a P-die. -/
def linkPages : Link → List Nat
  | .cp c _ => [dsvPage c.val]
  | .cross => [pdPage 0 7, pdPage 1 7]
  | .mdie k => [if k.val < 4 then dsvPage k.val else pdPage (k.val - 4) 7]

/-- No redundant lane is left: the link stays degraded, reported as class 3. -/
def State.linkDegrade (s : State) (l : Link) : State :=
  let s := (linkPages l).foldl (fun s pg => s.err pg 3 0x0C (Config.faultDetail s.draw % 2 ^ 32) 0) s
  { s with repairs := tPut s.repairs (linkNo l) 2, draw := s.draw + 1 }

/-- LANE_FAILURE: the repair starts where a redundant lane is left. -/
def State.laneFail (s : State) (l : Link) (spare : Bool) : State :=
  if spare then { s with repairs := tPut s.repairs (linkNo l) 1 } else s.linkDegrade l
def execLaneFailure (l : Link) (spareLane : Bool) (s : State) : Host.Outcome State Fault Refusal := .next (s.laneFail l spareLane)

/-- LANE_REPAIR_DONE. -/
def State.laneDone (s : State) (l : Link) (ok : Bool) : State :=
  if tFind s.repairs (linkNo l) ≠ some 1 then s
  else if ok then { s with repairs := tDel s.repairs (linkNo l) }
  else s.linkDegrade l
def execLaneRepairDone (l : Link) (ok : Bool) (s : State) : Host.Outcome State Fault Refusal := .next (s.laneDone l ok)

/-! ## Slices (R514) -/

/-- The quads of a P-die that a slice serves (R259). -/
def State.sliceQuads (s : State) (d sl : Nat) : List Nat :=
  match s.quads d sl with
  | 0 => [sl]
  | 2 => []
  | _ => [sl / 2 * 2, sl / 2 * 2 + 1]

/-- A frame in the transmit path of a slice that stops: dropped as TX_DOWN_DROP. -/
def State.txDown (s : State) (d : Nat) (t : Tx) (held : Bool) : State :=
  (if t.filler || !held then s else s.freeFrame d t.handle).macCnt d t.ctx 4

/-- SLICE_FATAL: the slice stops at once; its frames in flight and in its transmit path are dropped, its transmitters go idle, and it is reset.
The FMG saves and restores the register contents of its pages, so they stand throughout. -/
def State.sliceFatal (s : State) (d sl : Nat) : State :=
  let s := s.err (macPage d sl) 3 0x0E sl 0
  let s := [0, 1, 2].foldl (fun s p => (s.pgFault (slicePage d sl p)).pgRecover (slicePage d sl p)) s
  let k := s.txKey d sl
  let x := s.pd d
  let s := (tGet (fun _ => []) x.ingress sl).foldl (fun s p => s.freeFrame d p.handle) s
  let s := (tGet (fun _ => []) x.egress k).foldl (fun s e => s.txDown d e.tx e.bytes.isSome) s
  let s := (tGet (fun _ => []) x.fifo k).foldl (fun s t => s.txDown d t true) s
  let s := s.modPd d fun x => { x with fifo := tDel x.fifo k, egress := tDel x.egress k }
  let q := s.sliceQuads d sl
  let s := (s.txSlices d sl).foldl (fun s x => ((s.clearSlice d x 0).clearSlice d x 2)) (s.clearSlice d sl 1)
  q.foldl (fun s q => s.emit (.txIdle (8 * d + q))) s
def execSliceFatal (d : PDie) (sl : Slice) (s : State) : Host.Outcome State Fault Refusal := .next (s.sliceFatal d.val sl.val)

/-- SLICE_RESTORED: the recovery path ends. -/
def State.sliceRestored (s : State) (d sl : Nat) : State :=
  [0, 1, 2].foldl (fun s p => if s.pgState (slicePage d sl p) = 5 then s.pgRecovered (slicePage d sl p) else s) s
def execSliceRestored (d : PDie) (sl : Slice) (s : State) : Host.Outcome State Fault Refusal := .next (s.sliceRestored d.val sl.val)

/-! ## Dies (R503, R515, R516) -/

/-- Every recovery stops: clusters stay in reset, slices stay FAULTED, switches that the FMG issued and claims of spares are off. -/
def State.stopRecoveries (s : State) : State :=
  let f := s.fmg
  let s := { s with fmg := { f with claims := [], reqs := f.reqs.filter (·.mbx) },
                    clu := tMap (fun _ (k : Cluster) => if k.st = .lost ∨ k.st = .resetting then { k with st := .resetting, resetEnd := none } else k) s.clu }
  (List.range 16).foldl (fun s i => [0, 1, 2].foldl (fun s p =>
    if s.pgState (slicePage (i / 8) (i % 8) p) = 5 then s.setPg (slicePage (i / 8) (i % 8) p) 4 else s) s) s

/-- DIE_FATAL: class 4 on a C-die or P-die, class 5 on the M-die. The DSV page of a C-die records it; a P-die has no such page, and its report
names the XLK page. -/
def State.dieFatal (s : State) (die : Nat) : State :=
  let s : State :=
    if die < 4 then (s.err (dsvPage die) 4 0x12 (Config.faultDetail s.draw % 2 ^ 32) 0).drawn
    else if die < 6 then s.report (pdPage (die - 4) 7) 4 0x12
    else s.report (mPage 3) 5 0x12
  let s := s.driveFault.stopRecoveries
  if 4 ≤ die ∧ die < 6 ∧ s.rb (ra (mPage 3) 0x100) 31 then s.stopData [die - 4] else s.stopData [0, 1]
def execDieFatal (die : Fin 7) (s : State) : Host.Outcome State Fault Refusal := .next (s.dieFatal die.val)

end Sys2Proof.Machine
end

