-- ==== Sys2Proof/Machine/Host.lean ====
section
/-! DEFINITION. The host interface: BAR2, the DMA queue pairs, the xSPI flash (R547 to R558). -/

namespace Sys2Proof.Machine

/-! ## BAR2 (R549) -/

/-- BAR2_READ: the bytes, with EP where a word is a UE, or Unsupported Request; nothing answers while PERST_N is low. -/
def State.bar2Read (s : State) (a n : Nat) : State :=
  if s.perst then s
  else if s.dramRange a n then
    let r := s.dramRead a n
    r.2.2.emit (.bytes r.1 r.2.1)
  else (s.bump (aHst 0x114)).emit .unsupported
def execBar2Read (addr : BitVec 36) (len : Nat) (s : State) : Host.Outcome State Fault Refusal := .next (s.bar2Read addr.toNat len)

/-- BAR2_WRITE: a refused write is discarded and counted. -/
def State.bar2Write (s : State) (a : Nat) (b : List Byte) : State :=
  if s.perst then s
  else if s.dramRange a b.length then (s.dramWrite a b).2
  else s.bump (aHst 0x114)
def execBar2Write (addr : BitVec 36) (bytes : List Byte) (s : State) : Host.Outcome State Fault Refusal := .next (s.bar2Write addr.toNat bytes)

/-! ## Queue pairs (R550 to R553, R555) -/

/-- The DMA page of a pair answers: domain 110 is ON, or the pair serves task mode and is not touched by a PCIe reset (R484, R487, R554). -/
def State.dmaOn (s : State) (q : Nat) : Bool := s.domIsOn 110 || s.dmaDest q

/-- A ring of a pair: the offset of its base; its address, its entries, and whether SIZE is one of 4 to 16. -/
def State.dmaBase (s : State) (q off : Nat) : Nat := s.pair (aDma q off)
def State.dmaSize (s : State) (q off : Nat) : Nat := 2 ^ s.rf (aDma q (off + 8)) 4 0
def State.dmaRing (s : State) (q off : Nat) : Bool := decide (4 ≤ s.rf (aDma q (off + 8)) 4 0 ∧ s.rf (aDma q (off + 8)) 4 0 ≤ 16)

/-- The entry at the head of a ring has been posted. -/
def State.dmaPosted (s : State) (q off : Nat) : Bool :=
  s.dmaRing q off && decide (s.rf (aDma q (off + 0x10)) 15 0 % s.dmaSize q off ≠ s.rf (aDma q (off + 0xC)) 15 0 % s.dmaSize q off)

/-- The address of the head entry, of `n` bytes each; the head moves on. -/
def State.dmaHead (s : State) (q off n : Nat) : Nat := s.dmaBase q off + n * (s.rf (aDma q (off + 0x10)) 15 0 % s.dmaSize q off)
def State.dmaNext (s : State) (q off : Nat) : State :=
  s.setRf (aDma q (off + 0x10)) 15 0 ((s.rf (aDma q (off + 0x10)) 15 0 + 1) % s.dmaSize q off)

/-- Bytes of the memory that a pair serves: the host's, or device DRAM; whether they are poisoned. -/
def State.dmaRead (s : State) (q a n : Nat) : List Byte × Bool × State :=
  if s.dmaDest q then (if s.dramRange a n then s.dramRead a n else ([], true, s)) else (s.hostRead a n, false, s)
def State.dmaWrite (s : State) (q a : Nat) (b : List Byte) : State :=
  if s.dmaDest q then (if s.dramRange a b.length then (s.dramWrite a b).2 else s) else s.hostWrite a b

/-- DMA_PUNT_TAIL and DMA_INJECT_TAIL. -/
def State.dmaTail (s : State) (q off idx : Nat) : State :=
  if s.dmaOn q then s.setRf (aDma q (off + 0xC)) 15 0 idx else s.domDeny
def execDmaPuntTail (q : Fin 16) (idx : BitVec 16) (s : State) : Host.Outcome State Fault Refusal := .next (s.dmaTail q.val 0x110 idx.toNat)
def execDmaInjectTail (q : Fin 16) (idx : BitVec 16) (s : State) : Host.Outcome State Fault Refusal := .next (s.dmaTail q.val 0x130 idx.toNat)

/-! ## Punts -/

/-- Words 2 to 15 of a filled punt entry (R551). -/
def Punt.words (p : Punt) (bufLen : Nat) (keep : Bool) : List Byte :=
  let k := p.pkt
  let ws := [2 ^ 31 + bufLen, p.cause * 2 ^ 27 + k.port % 128 * 2 ^ 16 + k.len % 2 ^ 14, k.rxts, k.rxts / 2 ^ 32,
             k.gen * 2 ^ 30 + b2n k.decrypted * 2 ^ 27 + b2n p.copy * 2 ^ 26 + k.sa % 2 ^ 20,
             k.policy % 65536 * 2 ^ 16 + k.queue % 2 ^ 15, (if keep then k.handle else 0), 0, 0, 0, 0, 0, 0, 0]
  (ws.map (leBytes 4)).flatten

/-- What follows each filled entry: the count, the interrupt that becomes due, and with BIND the wake of the TCB (R552). -/
def State.puntDone (s : State) (q : Nat) : State :=
  let s := s.bump (aDma q 0x150)
  let p := tGet (fun _ => Pair.idle) s.dpairs q
  let from_ := match p.last with
    | none => s.now
    | some t => max s.now (t + s.rf (aDma q 0x104) 15 0 * usTicks)
  let p := if p.due.isSome then p else { p with due := some from_ }
  let s := { s with dpairs := tSet (fun _ => Pair.idle) s.dpairs q p }
  let r := s.rf (aDma q 0x100) 28 23 / 4
  let tcb := s.rf (aDma q 0x100) 20 9
  if !s.rb (aDma q 0x100) 29 ∨ ((s.teller r).dues.any fun e => decide (e.tcb = tcb ∧ e.reason = 11)) then s
  else s.setTeller r fun k => { k with dues := k.dues ++ [{ op := 2, prio := 0, tcb := tcb, reason := 11, aux := 0, thread := none }] }

/-- A punt is dropped at its pair, counted at an offset of the DMA page. -/
def State.puntDrop (s : State) (q off d h : Nat) : State := (s.freeFrame d h).bump (aDma q off)

/-- PUNT_DELIVERY: the oldest punt of the pair fills the head entry, or is dropped. -/
def State.puntDeliver (s : State) (q : Nat) : State :=
  match tGet (fun _ => []) s.punts q with
  | [] => s
  | p :: r =>
    let s := { s with punts := tSet (fun _ => []) s.punts q r }
    let d := p.pkt.port / 64 % 2
    let h := p.pkt.handle
    if !s.dmaPosted q 0x110 then s.puntDrop q 0x154 d h
    else
      let e := s.dmaHead q 0x110 64
      let w := s.dmaRead q e 12
      let s := w.2.2
      let len := leAt w.1 8 2
      if s.dmaDest q then
        ((s.dmaWrite q (e + 8) (p.words len true)).dmaNext q 0x110).puntDone q
      else if len < p.pkt.len then s.puntDrop q 0x158 d h
      else
        let f := s.readFrame d h
        if f.2.1 then (f.2.2.freeFrame d h).bpmCnt d 0x134
        else
          let s := (f.2.2.dmaWrite q (leAt w.1 0 8) f.1).freeFrame d h
          ((s.dmaWrite q (e + 8) (p.words len false)).dmaNext q 0x110).puntDone q
def execPuntDelivery (q : Fin 16) (s : State) : Host.Outcome State Fault Refusal := .next (s.puntDeliver q.val)

/-- PUNT_INTERRUPT: the pair's vector, no earlier than HOLDOFF after the previous raise. -/
def State.puntRaise (s : State) (q : Nat) : State :=
  match (tGet (fun _ => Pair.idle) s.dpairs q).due with
  | none => s
  | some t =>
    let s := s.upTo t
    ({ s with dpairs := tSet (fun _ => Pair.idle) s.dpairs q { last := some s.now, due := none } }).emit (.msix (s.rf (aDma q 0x100) 8 0))
def execPuntInterrupt (q : Fin 16) (s : State) : Host.Outcome State Fault Refusal := .next (s.puntRaise q.val)

/-! ## Injection (R553) -/

/-- The frame of an inject entry as the TM takes it. -/
def injectTx (w : List Byte) (h len gen rxts role : Nat) : Tx :=
  { handle := h, len := len, charge := 0, cipher := bitsOf (leAt w 12 4) 27 26, sa := leAt w 16 4 % 2 ^ 20, gen := gen, tsReq := leAt w 16 4 / 2 ^ 30,
    tsTag := leAt w 20 4 / 2 ^ 16 % 256, tsOff := leAt w 20 4 / 256 % 256, ckOff := leAt w 20 4 % 256, rxts := rxts, ctx := 0,
    queue := leAt w 12 4 % 2 ^ 15, filler := false, tpl := 0, role := role, decrypted := false, inPort := 128 + leAt w 12 4 / 2 ^ 31, stale := false }

/-- The frame of an entry is read, stored and enqueued: STATUS. -/
def State.injectFrame (s : State) (q : Nat) (w : List Byte) : Nat × State :=
  let len := leAt w 8 4 % 2 ^ 14
  let d := leAt w 12 4 / 2 ^ 31
  let cipher := bitsOf (leAt w 12 4) 27 26
  if len < 60 ∨ 10236 < len ∨ 2 ≤ cipher then (2, s)
  else
    let f := s.dmaRead q (leAt w 0 8) len
    if f.2.1 then (3, f.2.2)
    else
      match f.2.2.storeFrame d 136 (engine 2 0 q) f.1 with
      | (none, s) => (4, s)
      | (some h, s) =>
        match s.tmStep2 d (injectTx w h len s.gen s.tb (if s.rb (aDma q 0x100) 30 then 3 else 2)) with
        | (true, s) => (0, s)
        | (false, s) => (1, s)

/-- INJECT: the head entry of a pair that is RUNNING, and reachable where it serves the host. -/
def State.inject (s : State) (q : Nat) : State :=
  if !s.pairOpen q ∨ !s.dmaPosted q 0x130 then s
  else
    let e := s.dmaHead q 0x130 32
    let w := s.dmaRead q e 24
    let r := if w.2.1 then (3, w.2.2) else w.2.2.injectFrame q w.1
    let s := r.2.dmaWrite q (e + 8) (leBytes 4 (2 ^ 31 + r.1 * 2 ^ 28 + leAt w.1 8 4 % 2 ^ 14))
    (s.dmaNext q 0x130).bump (aDma q (if r.1 = 0 then 0x160 else 0x164))
def execInject (q : Fin 16) (s : State) : Host.Outcome State Fault Refusal := .next (s.inject q.val)

/-! ## The flash (R461, R558) -/

/-- The two copies of the loader and of the firmware, as flash ranges. -/
def flashCopies : List ((Nat × Nat) × (Nat × Nat)) :=
  [((0, 0x40000), (0x40000, 0x80000)), ((0x80000, 0x1080000), (0x1080000, 0x2080000))]

/-- A command on [a, a + n) touches both copies of an image. -/
def touchesBoth (a n : Nat) : Bool :=
  flashCopies.any fun c => decide (a < c.1.2 ∧ c.1.1 < a + n) && decide (a < c.2.2 ∧ c.2.1 < a + n)

/-- FADDR, DADDR and LEN of a command. -/
def State.xspiArgs (s : State) : Nat × Nat × Nat := ((s.reg (aHst 0x164)).toNat, s.pair (aHst 0x168), (s.reg (aHst 0x170)).toNat)

/-- RESULT of a command: 0 OK, 1 REFUSED. -/
def State.xspiEnd (s : State) (r : Nat) : State := s.setReg (aHst 0x160) (nw (r * 2 ^ 28))

/-- Whole sectors, and a DRAM buffer where one is used. -/
def State.xspiOk (s : State) (dram : Bool) : Bool :=
  let x := s.xspiArgs
  decide (x.1 % 65536 = 0 ∧ x.2.2 % 65536 = 0) && (!dram || s.dramRange x.2.1 x.2.2)

/-- XSPI_READ. -/
def State.xspiRead (s : State) : State :=
  let x := s.xspiArgs
  if s.xspiOk true then ((s.dramWrite x.2.1 (s.flashRead x.1 x.2.2)).2).xspiEnd 0 else s.xspiEnd 1
def execXspiRead (s : State) : Host.Outcome State Fault Refusal := .next s.xspiRead

/-- XSPI_PROGRAM. -/
def State.xspiProgram (s : State) : State :=
  let x := s.xspiArgs
  if s.xspiOk true ∧ !touchesBoth x.1 x.2.2 then
    let r := s.dramRead x.2.1 x.2.2
    ({ r.2.2 with flash := tPutAll flashByte r.2.2.flash x.1 r.1 }).xspiEnd 0
  else s.xspiEnd 1
def execXspiProgram (s : State) : Host.Outcome State Fault Refusal := .next s.xspiProgram

/-- XSPI_ERASE. -/
def State.xspiErase (s : State) : State :=
  let x := s.xspiArgs
  if s.xspiOk false ∧ !touchesBoth x.1 x.2.2 then
    ({ s with flash := s.flash.filter fun e => !decide (x.1 ≤ e.1 ∧ e.1 < x.1 + x.2.2) }).xspiEnd 0
  else s.xspiEnd 1
def execXspiErase (s : State) : Host.Outcome State Fault Refusal := .next s.xspiErase

end Sys2Proof.Machine
end

