-- ==== Sys2Proof/Machine/Debug.lean ====
section
/-! DEFINITION. Thread debug: STOP, RESUME, STEP, KILL, RUN_RECORD, and the context window (R78, R181 to R183, R215, R563, R564). -/

namespace Sys2Proof.Machine

/-- The result of a thread command: DBG_THR_CMD. -/
def State.dbgResult (s : State) (r : Nat) : State := s.setDbg 1 (nw (r * 2 ^ 28))

/-- A context exists and is neither FREE nor RESETTING. -/
def State.dbgLive (s : State) (t : Nat) : Bool :=
  let x := s.th t
  decide (x.st ≠ .resetting) && (decide (x.st ≠ .idle) || (s.clu? (cluOf t)).packet || (s.restoring t).isSome)

/-- A thread command on the context that an owner ID names: REFUSED without THREAD, STATE where the context does not allow it. -/
def State.dbgCmd (s : State) (o : OwnerId) (ok : Nat → Bool) (f : Nat → State) : State :=
  if !s.perm 2 then s.dbgResult 1
  else
    match threadOf o.toNat with
    | none => s.dbgResult 2
    | some t => if s.dbgLive t && ok t then (f t).dbgResult 0 else s.dbgResult 2

/-- A stop of a thread of a packet-mode cluster detaches the cluster, as a loss (R78, R182). -/
def State.detach (s : State) (c : Nat) : State :=
  let k := s.clu? c
  if !k.packet ∨ k.detached ∨ k.st ≠ .live then s
  else
    let f := s.fmg
    let s := { s with fmg := { f with detached := tPut f.detached c (s.setOf (c / 16), false) } }
    let s := s.setClu c fun k => { k with detached := true }
    if c = s.spareOf (c / 16) then s.calIssue (setFor (c / 16) (s.crossSet (c / 16))) false
    else if s.replaced c then s
    else s.replaceClu (c / 16) c

/-- STOP: the stall counter of the cluster starts over, and stands while the context is stopped (R179). -/
def State.dbgStop (s : State) (o : OwnerId) : State :=
  s.dbgCmd o (fun t => !(s.th t).stopped) fun t =>
    ((s.modTh t fun x => { x with stopped := true, stepping := false }).active (cluOf t)).detach (cluOf t)
def execDbgStop (owner : OwnerId) (s : State) : Host.Outcome State Fault Refusal := .next (s.dbgStop owner)

/-! ## The context window DBG_CTX -/

/-- The TCB image of a context: words 0 to 7 from the Teller where it runs a TCB, then the context area. -/
def State.ctxWords (s : State) (t : Nat) : List Word :=
  let x := s.th t
  let head := match x.tcb with
    | none => List.replicate 8 0
    | some n =>
      let b := s.tcb (rgnOf t) n
      [b.ctrl, b.place, nw b.deadline, nw (b.deadline / 2 ^ 32), 0, 0, 0, 0]
  head ++ x.image

/-- The key of word `i` of context `t` among the writes that await a resume. -/
def ctxKey (t i : Nat) : Nat := t * 128 + i

/-- Writes to DBG_CTX take effect at resume. -/
def State.ctxApply (s : State) (t : Nat) : State :=
  let l := s.ctxWr.filter fun e => decide (e.1 / 128 = t)
  let s' := { s with ctxWr := s.ctxWr.filter fun e => !decide (e.1 / 128 = t) }
  if l = [] then s
  else
    let ws := l.foldl (fun ws e => ws.set (e.1 % 128) e.2) (s.ctxWords t)
    let y := Thread.ofImage (ws.drop 8)
    s'.modTh t fun x =>
      { x with w := y.w, p := y.p, carry := y.carry, ov := y.ov, dz := y.dz, inTrap := y.inTrap, lr := y.lr, rc := y.rc, vec := y.vec,
               ctl := y.ctl, ev := y.ev, sb := y.sb, op := y.op, res := y.res, pend := [],
               pc := if x.waitAt.isSome then x.pc else y.pc, rep := if x.waitAt.isSome then x.rep else y.rep,
               waitAt := x.waitAt.map fun _ => (y.pc, y.rep) }

/-! ## RESUME, STEP, KILL -/

/-- The cluster may be attached again at a clearing once none of its threads is stopped. -/
def State.mayReattach (s : State) (c : Nat) : State :=
  match tFind s.fmg.detached c with
  | none => s
  | some e =>
    if (List.range 64).any fun i => (s.th (64 * c + i)).stopped then s
    else
      let f := s.fmg
      { s with fmg := { f with detached := tPut f.detached c (e.1, true) } }

/-- RESUME. -/
def State.dbgResume (s : State) (o : OwnerId) : State :=
  s.dbgCmd o (fun t => (s.th t).stopped) fun t =>
    (((s.ctxApply t).modTh t fun x => { x with stopped := false, stepping := false }).active (cluOf t)).mayReattach (cluOf t)
def execDbgResume (owner : OwnerId) (s : State) : Host.Outcome State Fault Refusal := .next (s.dbgResume owner)

/-- The cluster is detached and receives no records any longer (R182). -/
def State.isDetached (s : State) (c : Nat) : Bool := (s.clu? c).detached && s.replaced c

/-- STEP: the context may issue one word. -/
def State.dbgStep (s : State) (o : OwnerId) : State :=
  s.dbgCmd o (fun t => (s.th t).stopped && decide ((s.th t).st = .running) && !(s.th t).ended && (!(s.clu? (cluOf t)).packet || s.isDetached (cluOf t))) fun t =>
    s.modTh t fun x => { x with stepping := true }
def execDbgStep (owner : OwnerId) (s : State) : Host.Outcome State Fault Refusal := .next (s.dbgStep owner)

/-- KILL: a reset under R153. -/
def State.dbgKill (s : State) (o : OwnerId) : State := s.dbgCmd o (fun _ => true) fun t => (s.killThread t).mayReattach (cluOf t)
def execDbgKill (owner : OwnerId) (s : State) : Host.Outcome State Fault Refusal := .next (s.dbgKill owner)

/-! ## RUN_RECORD (R564) -/

/-- RUN_RECORD: the image in DBG_REC is on its way to buffer 0 of the context, as if dispatched in this core cycle. -/
def State.runRecord (s : State) (o : OwnerId) : State :=
  s.dbgCmd o (fun t => s.isDetached (cluOf t) && (decide ((s.th t).st = .idle) || s.pktDone t) && !(s.th t).stopped
      && !s.flights.any fun f => decide (f.thread = t ∧ f.buf = 0)) fun t =>
    let c := s.cycCeil
    let b := ((List.range 64).map fun i => leBytes 4 (s.reg (aDbgRec + 4 * i)).toNat).flatten
    { s with flights := s.flights ++ [{ die := 0, thread := t, buf := 0, dcyc := c, slot := c % 4096 * 4 + cluOf t / 16, record := b, pkt := none,
                                        delivered := false, cause := 0, returned := none, late := false, pol := 0 }] }
def execRunRecord (owner : OwnerId) (s : State) : Host.Outcome State Fault Refusal := .next (s.runRecord owner)

end Sys2Proof.Machine
end

