-- ==== Sys2Proof/Machine/Pages.lean ====
section
/-! DEFINITION. Register pages (R522 to R541): page control, events and errors as commands, and what every register reads as. -/

namespace Sys2Proof.Machine

/-! ## Pages -/

/-- The block-specific offsets of a page answer: its domain is ON (R487, R554). -/
def State.pageOn (s : State) (k : Kind) (pg : Nat) : Bool :=
  match k with
  | .dma => s.dmaOn (pg % 16)
  | _ =>
    match pageDom k pg with
    | none => true
    | some n => s.domIsOn n

/-- While the ROM or the loader waits for an image from the host, only the HST page answers in BAR0 (R556); none with the rails off (R491). -/
def State.bar0Shut (s : State) (pg : Nat) : Bool := (decide (s.sec.hostWait = 1 ∨ s.sec.hostWait = 2) && decide (pg ≠ mPage 5)) || s.railsOff

/-! ## Page control (R531, R532, R259) -/

/-- EN and STOP_REQ are stored, and STATE follows; a MAC page whose pair has no lane combination of R259 does not start. -/
def State.pageCtrl (s : State) (pg : Nat) (k : Kind) (en stop : Bool) : State :=
  let s := (s.setRb (ra pg 0x008) 0 en).setRb (ra pg 0x008) 1 stop
  let d := pdOfPage pg
  let lo := sliceOfPage pg / 2 * 2
  if k = .mac ∧ en ∧ !stop ∧ s.pgState pg ≤ 1 ∧ !quadsOk (s.quads d lo) (s.quads d (lo + 1)) then s.err pg 0 3 0x100 0
  else s.pgAct pg

/-- PAGE_ENABLE: EN is written; HAS_CTRL = 0 ignores it. -/
def State.pageEnable (s : State) (pg : Nat) (en : Bool) : State :=
  match pageKind pg with
  | none => s
  | some (k, _) => if k.hasCtrl then s.pageCtrl pg k en (s.rb (ra pg 0x008) 1) else s
def execPageEnable (page : Nat) (en : Bool) (s : State) : Host.Outcome State Fault Refusal := .next (s.pageEnable page en)

/-- PAGE_STOP: STOP_REQ is written. -/
def State.pageStop (s : State) (pg : Nat) (req : Bool) : State :=
  match pageKind pg with
  | none => s
  | some (k, _) => if k.hasCtrl then s.pageCtrl pg k (s.rb (ra pg 0x008) 0) req else s
def execPageStop (page : Nat) (req : Bool) (s : State) : Host.Outcome State Fault Refusal := .next (s.pageStop page req)

/-- PAGE_DRAIN_DONE: a page that drains becomes STOPPED, or OFF where EN = 0; and runs again where STOP_REQ has been withdrawn, a MAC page
only while its pair's quads are legal (R259). -/
def State.drainDone (s : State) (pg : Nat) : State :=
  if s.pgState pg ≠ 3 then s
  else
    let s := s.setPg pg (if s.rb (ra pg 0x008) 0 then 1 else 0)
    match pageKind pg with
    | some (k, _) => s.pageCtrl pg k (s.rb (ra pg 0x008) 0) (s.rb (ra pg 0x008) 1)
    | none => s
def execPageDrainDone (page : Nat) (s : State) : Host.Outcome State Fault Refusal := .next (s.drainDone page)

/-! ## Events and errors (R504 to R506, R534) -/

/-- The event bits of a page: ERR, STATE, and those of its block (R535). -/
def Kind.evtBits : Kind → Word
  | .clu | .epc => 0x703
  | .esc | .mac | .sat | .bpm | .pwr => 0x303
  | .cls => 0x1F03
  | .pol | .sec | .fmg | .mbx => 0x103
  | _ => 3

/-- EVT_SET: the bits that the page has are set. -/
def State.evtSet (s : State) (pg : Nat) (bits : Word) : State :=
  match pageKind pg with
  | some (k, _) => s.putEvt pg (s.reg (ra pg 0x010) ||| bits &&& k.evtBits)
  | none => s
def execEvtSet (page : Nat) (bits : Word) (s : State) : Host.Outcome State Fault Refusal := .next (s.evtSet page bits)

/-- EVT_CLEAR: the bits are cleared but for those that the hardware set in the same fabric cycle; a condition that stays true sends a new
message. -/
def State.evtClear (s : State) (pg : Nat) (bits : Word) : State :=
  if (pageKind pg).isSome then
    let s := (s.secLook pg).hwClear (ra pg 0x010) bits
    if s.evtCond pg then s.route pg else s
  else s
def execEvtClear (page : Nat) (bits : Word) (s : State) : Host.Outcome State Fault Refusal := .next (s.evtClear page bits)

/-- A write of EVT_EN: the condition may rise. -/
def State.evtEnable (s : State) (k : Kind) (pg : Nat) (v : Word) : State :=
  let was := s.evtCond pg
  let s := s.setReg (ra pg 0x014) (v &&& k.evtBits)
  if s.evtCond pg && !was then s.route pg else s

/-- ERR_CLEAR: VALID and MULTI clear; an error that arrived in the same fabric cycle becomes the held one, and a second one of the cycle sets
MULTI (R506). -/
def State.errClear (s : State) (pg : Nat) : State :=
  if (pageKind pg).isSome then
    match s.errsNow pg with
    | none => (s.setRb (ra pg 0x020) 31 false).setRb (ra pg 0x030) 31 false
    | some (n, w) => (s.errPut pg w).setRb (ra pg 0x030) 31 (decide (1 < n))
  else s
def execErrClear (page : Nat) (s : State) : Host.Outcome State Fault Refusal := .next (s.errClear page)

/-! ## What registers read as -/

/-- Bits of a word, as a number, put at their places. -/
def at_ (lo n : Nat) : Nat := n * 2 ^ lo

/-- GEN_STAT (R537). -/
def State.genStat (s : State) (k : Kind) (pg : Nat) : Word :=
  if k.hasGen then
    nw (at_ 30 s.gen + at_ 29 (b2n s.oldLive) + at_ 27 (if s.oldLive then s.oldGen else 0) + at_ 26 (b2n (s.shadowPend pg))
      + at_ 25 (b2n (s.epc.notReady.contains pg)))
  else 0

/-- A register of the common header (R528 to R537); the Tally for a master, 0 the host and 1 the M-die (R493). -/
def State.viewHead (s : State) (k : Kind) (inst pg off master : Nat) : Word :=
  match off with
  | 0x000 => nw (k.code * 65536 + inst * 256 + 1)
  | 0x004 => nw (at_ 28 (pg / 4096) + at_ 23 (b2n k.hasGen) + at_ 22 (b2n k.hasEcc) + at_ 21 (b2n k.hasCtrl))
  | 0x00C => if s.pageOn k pg then nw (s.pgState pg) else 0
  | 0x034 => s.genStat k pg
  | 0x038 => nw (tGet (fun _ => 0) s.tally pg)
  | 0x03C => tGet (fun _ => 0) s.tallyHi (2 * pg + master)
  | _ => s.reg (ra pg off)

/-- The state code of a context (R146). -/
def State.thrCode (s : State) (t : Nat) : Nat :=
  let x := s.th t
  if x.stopped then 8
  else
    match x.st with
    | .idle => if s.pkt t then 9 else 0
    | .running => if s.pktDone t then 9 else if s.pkt t then 10 else 1
    | .waitEvent => 2
    | .waitLock => 3
    | .waitChan => 4
    | .waitJoin => 5
    | .waitSb => 6
    | .exited => 7
    | .resetting => 11

/-- CORE_THR_STAT of a context (R147). The command stands in the core cycle whose state it returns, and reaches the page one core cycle later
(log entry 196). -/
def State.thrStat (s : State) (t : Nat) : Word :=
  let x := s.th t
  let obj := match s.thrCode t with
    | 2 => x.mask.toNat
    | 3 => x.waitObj.toNat
    | 4 => x.waitObj.toNat
    | 5 => x.waitObj.toNat
    | 6 => x.mask.toNat
    | _ => 0
  nw (at_ 16 (obj % 65536) + at_ 6 (b2n x.detached) + at_ 5 (b2n x.forked) + at_ 4 (b2n x.inTrap) + s.thrCode t)

/-- ESC_LOCK_STAT of the selected lock (R171). -/
def State.lockStat (s : State) (pg : Nat) : Word :=
  let l := s.lock (lockKey pg (s.rf (ra pg 0x100) 9 0))
  nw (at_ 31 (b2n l.held) + at_ 30 (b2n l.abandoned) + at_ 16 l.owner.toNat + l.waiters.length % 512)

/-- CPX_CP_STATn (R211). -/
def State.cpStat (s : State) (c n : Nat) : Word :=
  let x := s.cop c n
  nw (at_ 31 (b2n x.run.isSome) + at_ 28 (x.queue.length % 8) + at_ 27 (b2n x.valid) + at_ 16 (x.lastOpc % 256) + x.owner.toNat)

/-- TEL_CTRL with TASK_CLU, and TEL_STAGE (R231). -/
def State.telCtrl (s : State) (r : Nat) : Word :=
  s.reg (aTel r 0x100) ||| nw ((List.range 4).foldl (fun a k => a + at_ (12 + k) (b2n (s.taskClu (4 * r + k)))) 0)
def State.telStage (s : State) (r : Nat) : Word :=
  let n := (s.teller r).stage.length
  nw (at_ 31 (b2n (decide (64 ≤ n))) + min 64 n)

/-- CLS_CAL_STAT (R80). -/
def State.calStat (s : State) (d : Nat) : Word :=
  nw (at_ 30 (s.prof.last.1 % 4) + at_ 24 (s.prof.last.2 % 64) + at_ 22 (s.calTable s.cyc % 4) + at_ 20 ((s.prof.img.cycle - 1) % 4)
    + at_ 16 (b2n ((s.pd d).seamEnd.any fun e => decide (s.cyc < e))) + s.prof.img.span % 2048)

/-- CLS_FT_OCC (R326). -/
def State.ftOcc (s : State) (d : Nat) : Word :=
  nw (s.ftCount (ftKey d false 0) (ftKey d false stashAt) + at_ 21 (s.ftCount (ftKey d false stashAt) (ftKey d false stashAt + 16)))

/-- CLS_FT_DOCC (R326): the DRAM-tier entries, and those of its stash. -/
def State.ftDoccWord (s : State) (d : Nat) : Word :=
  nw (s.rf (aCls d 0x128) 25 0 + at_ 26 (s.ftCount (ftKey d true stashAt) (ftKey d true stashAt + 16)))

/-- BPM_SWEEP (R378). -/
def State.sweepStat (s : State) (d : Nat) : Word :=
  s.reg (aSweep d) ||| nw (at_ 30 (b2n (s.pd d).sweep.isSome) + at_ 25 (min 8 (s.pd d).sweeps.length))

/-- A word of a pool's block, and of an account's (R378). -/
def State.poolWord (s : State) (d p w : Nat) : Word :=
  match w with
  | 0 => s.reg (aPool d p 0) ||| nw (at_ 30 (b2n (s.pool d p).ready))
  | 5 => s.reg (aPool d p 5) ||| nw (at_ 29 (s.level d p) + s.shared d p % 2 ^ 18)
  | 6 => nw ((s.pool d p).till.length + ringCount (s.pool d p).ring)
  | _ => s.reg (aPool d p w)

/-- ECC_SPARES of a page: in use and provided (R445, R449, R451). -/
def State.eccSpares (s : State) (k : Kind) (pg : Nat) : Word :=
  let sram := fun (kind i : Nat) => nw (s.sparesUsed kind i + at_ 8 (arraySpares kind))
  match k with
  | .dmc => nw (s.rf (aDmcStat (chanOfPage pg)) 6 0 + at_ 8 64)
  | .bpm => sram 2 (pdOfPage pg)
  | .cls => sram 3 (pdOfPage pg)
  | .sat => sram 4 (pdOfPage pg)
  | .vlt => sram 5 (pdOfPage pg)
  | .frg => sram 6 (pdOfPage pg)
  | .tm => sram 7 (pdOfPage pg)
  | .cmem => sram 8 (cluOfPage pg)
  | _ => 0

/-- EPC_GEN (R424). -/
def State.epcGen (s : State) : Word :=
  nw (at_ 30 s.gen + at_ 29 (b2n s.oldLive)
    + (if s.oldLive then at_ 27 s.oldGen + min (2 ^ 20 - 1) (s.inflight s.oldGen) else 0))

/-- PWR_FEED_STAT, and word `i` of PWR_DOM_STAT (R500). The SEC switches domain 111 as its work requires, which no rule fixes (R485; log entry 227). -/
def State.feedStat (s : State) : Word :=
  let p := s.pwr
  nw (at_ 31 (b2n p.main) + at_ 30 (b2n p.bkp) + at_ 29 (b2n (decide (p.carrier = 2))) + at_ 28 (b2n p.holdEnd.isSome) + at_ 27 (b2n p.defEnd.isSome))
def State.domCode (s : State) (n : Nat) : Nat :=
  if n = 111 then (if Config.secEngines s.draw then 2 else 0) else if s.domChanging n then 3 else match s.dom n with
    | 1 => 2
    | 2 => 1
    | _ => 0
def State.domStat (s : State) (i : Nat) : Word := nw ((List.range 16).foldl (fun a j => a + at_ (2 * j) (s.domCode (16 * i + j))) 0)

/-- FMG_CAL_MAP and the head entry of the FMG queue (R508, R521). -/
def State.calMap (s : State) : Word :=
  nw ((List.range 4).foldl (fun a c => a + at_ (8 * c) (at_ 6 ((s.setOf c).1 % 4) + (if (s.setOf c).1 = 1 then (s.setOf c).2 % 64 else 0))) 0)
def State.fmgWord (s : State) (i : Nat) : Word :=
  match fmgHead s.fmgq with
  | none => 0
  | some e =>
    match i with
    | 0 => nw (2 ^ 31 + at_ 28 e.cls + at_ 16 e.source + e.cause)
    | 1 => nw e.page
    | 2 => nw e.tb
    | _ => nw (e.tb / 2 ^ 32)

/-- The number under which a DBG register stands at an offset of its page, if one does (R563, R565). -/
def dbgIndex (off : Nat) : Option Nat := (List.range 8).find? fun i => decide (Config.dbgOffset i = off)

/-- The context that DBG_THR_SEL names, if it is stopped. -/
def State.dbgCtx (s : State) : Option Nat :=
  match threadOf (fld (s.dbgReg 0) 13 0) with
  | none => none
  | some t => if (s.th t).stopped then some t else none

/-- A word of the DBG page: its registers, DBG_CTX and DBG_REC (R563, R564). -/
def State.viewDbg (s : State) (off : Nat) : Word :=
  if 0xA00 ≤ off ∧ off < 0xB00 then (if s.perm 2 then s.reg (ra (mPage 6) off) else 0)
  else if 0x800 ≤ off ∧ off < 0xA00 then
    let i := (off - 0x800) / 4
    match (if s.perm 2 then s.dbgCtx else none) with
    | none => 0
    | some t => (tFind s.ctxWr (ctxKey t i)).getD ((s.ctxWords t).getD i 0)
  else
    match dbgIndex off with
    | none => 0
    | some i => s.dbgReg i

/-- A word of the OTP page: the data words, the command's result, and the fields that software may read (R454, R456). -/
def State.viewOtp (s : State) (off : Nat) : Word :=
  if off = Config.otpOffset 0 then Config.otpStatus s.sec.otpResult
  else if Config.otpOffset 1 ≤ off ∧ off < Config.otpOffset 1 + 64 then tGet (fun _ => 0) s.sec.otpData ((off - Config.otpOffset 1) / 4)
  else if Config.otpOffset 2 ≤ off then leWord (bytesAt s.otpReadable (off - Config.otpOffset 2) 4)
  else 0

/-- A block-specific register of a page that answers. -/
def State.viewBlock (s : State) (k : Kind) (pg off : Nat) : Word :=
  let a := ra pg off
  let d := pdOfPage pg
  if off = 0x70C ∧ k.hasEcc then s.eccSpares k pg
  else
    match k with
    | .core => if off < 0x120 then s.thrStat (coreOfPage pg * 8 + (off - 0x100) / 4) else s.reg a
    | .clu => if off = 0x184 then setFld (s.reg a) 14 0 (s.stallCount (cluOfPage pg)) else s.reg a
    | .cdc => if off = 0x104 then s.cdcStat (cluOfPage pg) else s.reg a
    | .esc => if off = 0x104 then s.lockStat pg else s.reg a
    | .cpx => if off < 0x110 then s.cpStat (cluOfPage pg) ((off - 0x100) / 4) else s.reg a
    | .tel => if off = 0x100 then s.telCtrl (rgnOfPage pg) else if off = 0x10C then s.telStage (rgnOfPage pg) else s.reg a
    | .pol => if off = 0x148 then nw s.gsa.length else s.reg a
    | .cls => if off = 0x100 then s.calStat d else if off = 0x124 then s.ftOcc d else if off = 0x128 then s.ftDoccWord d else s.reg a
    | .frg => if off = 0x118 then nw (s.pd d).fragWait.length else s.reg a
    | .vlt => if off = 0x104 then s.reg a ||| nw (s.vault.filter fun e => decide (e.1 / 2 ^ 19 = d)).length else s.reg a
    | .bpm =>
      if off = 0x114 then s.sweepStat d
      else if 0x800 ≤ off then s.poolWord d ((off - 0x800) / 32) (off / 4 % 8)
      else if 0x200 ≤ off ∧ off < 0x650 ∧ off % 8 = 4 then nw (s.acctUsed d ((off - 0x200) / 8))
      else s.reg a
    | .tm =>
      if 0x800 ≤ off ∧ off < 0x900 then
        leWord (tRange (fun _ => 0) s.tpl (d * 2 ^ 18 + s.rf (aTm d 0x140) 9 0 * 256 + (off - 0x800)) 4)
      else if off = 0x100 then s.reg a ||| nw (at_ 31 (b2n (s.tmRuns d)))
      else s.reg a
    | .dmc =>
      if off = 0x104 then setBit (s.reg a) 29 (s.inBlackout (chanOfPage pg))
      else if 0x400 ≤ off ∧ off < 0x420 ∧ pg % 16 ≠ 0 then 0
      else s.reg a
    | .epc =>
      match off with
      | 0x114 => nw s.epcNext
      | 0x118 => nw (s.epcNext / 2 ^ 32)
      | 0x11C => s.epcGen
      | 0x150 => nw s.tb
      | 0x15C => 0
      | 0x160 => 0
      | _ => s.reg a
    | .pwr =>
      if off = 0x100 then s.feedStat
      else if off = 0x114 then nw (b2n s.pwr.trip)
      else if 0x140 ≤ off ∧ off < 0x15C then s.domStat ((off - 0x140) / 4)
      else s.reg a
    | .fmg =>
      if off = 0x104 then s.reg a ||| nw (at_ 16 s.fmgq.length)
      else if off = 0x110 then s.calMap
      else if 0x120 ≤ off ∧ off < 0x130 then s.fmgWord ((off - 0x120) / 4)
      else s.reg a
    | .dbg => s.viewDbg off
    | .otp => s.viewOtp off
    | _ => s.reg a

/-- The RC bits of a register (R7). -/
def rcMask (a : Nat) : Word := ((regDef? a).map (·.rc)).getD 0

/-- A read of offset `off` of a page, with its side effects: RC fields clear, but for the counts of the same fabric cycle, a low half latches its high half, a FIFO gives its head. -/
def State.readPage (s : State) (k : Kind) (inst pg off master : Nat) : Word × State :=
  let s := s.secLook pg
  if off < 0x100 then
    if off = 0x038 then s.tallyLo pg master
    else (s.rcValue (ra pg off) (rcMask (ra pg off)) (s.viewHead k inst pg off master), s.rcClear (ra pg off) (rcMask (ra pg off)))
  else if !s.pageOn k pg then (0, s)
  else if k = .epc ∧ off = 0x150 then s.tbRead
  else if k = .mac ∧ off = 0x140 then s.tsRead (pdOfPage pg) (sliceOfPage pg)
  else if k = .sat ∧ off = 0x110 then s.lifeRead (pdOfPage pg)
  else if k = .cmem ∧ 0x800 ≤ off then s.cmemWinRead (cluOfPage pg) ((off - 0x800) / 4)
  else (s.rcValue (ra pg off) (rcMask (ra pg off)) (s.viewBlock k pg off), s.rcClear (ra pg off) (rcMask (ra pg off)))

/-- A 4-byte read of the register space (R522, R526): die code 7 reads 0 without effect, an unpopulated page reads 0 and is counted. -/
def State.busRead (s : State) (addr master : Nat) : Word × State :=
  let pg := addr / 4096
  if pg / 4096 = 7 then (0, s)
  else
    match pageKind pg with
    | none => (0, s.bumpF (aHst 0x110) 31 16 1)
    | some (k, i) => s.readPage k i pg (addr % 4096 / 4 * 4) master

/-- COUNTER_READ_CLEAR: a read from BAR0. -/
def State.bar0Read (s : State) (addr : Nat) : State :=
  if s.bar0Shut (addr / 4096) then s.emit (.data 0) else (s.busRead addr 0).2.emit (.data (s.busRead addr 0).1)
def execCounterReadClear (addr : BitVec 28) (s : State) : Host.Outcome State Fault Refusal := .next (s.bar0Read addr.toNat)

end Sys2Proof.Machine
end

