-- ==== Sys2Proof/Machine/Writes.lean ====
section
/-! DEFINITION. Register writes (R7 to R10, R522 to R526): what a write to each register does. A register that has a row of its own is
written by that row's operation. -/

namespace Sys2Proof.Machine

/-! ## The mailbox (R542 to R545) -/

/-- A command that ends at once with a result. -/
def State.mbxNo (s : State) (r : Nat) : State := s.mbxStart fun s => s.mbxEnd r

/-- The command that a CODE starts, with the arguments of R544. -/
def State.mbxCommand (s : State) (code : Nat) : State :=
  let a0 := s.mbxArg 0
  let a1 := s.mbxArg 1
  let a2 := s.mbxArg 2
  let mask := a1.toNat + 2 ^ 32 * a2.toNat
  match code with
  | 0x01 => if bit a0 8 then s.mbxStart fun s => s.selectCold (fld a0 1 0) else s.mbxStart fun s => s.selectWarm (fld a0 1 0)
  | 0x02 => if bit a0 31 then s.genDiscard else s.genCommit (fld a0 23 0)
  | 0x03 => s.scrub (fld a0 31 28) (fld a0 5 0) (a1.toNat + 2 ^ 32 * fld a2 3 0) (s.mbxArg 3).toNat
  | 0x04 => if fld a0 31 28 < 2 then s.retireDram (fld a0 31 28) (fld a1 4 0) (fld a2 19 0) else s.retireSram (fld a0 31 28) (fld a0 5 0) a2.toNat
  | 0x05 => s.attest (fld a0 6 0) (bit a0 8) (bit a0 9)
  | 0x06 =>
    match fld a0 1 0 with
    | 0 => s.keyLoad (fld a0 13 8) (bit a0 16) (fld a0 23 20) mask
    | 1 => s.keyPush (fld a0 13 8) (fld a0 23 20) mask
    | 2 => s.keyClear (fld a0 13 8)
    | _ => s.mbxNo 3
  | 0x07 => s.zeroizeCmd
  | 0x08 => s.calSwitch a0
  | 0x09 =>
    match fld a0 1 0 with
    | 0 => s.challenge
    | 1 => s.unlock
    | 2 => s.dbgLock
    | _ => s.mbxNo 3
  | _ => s.mbxNo 2

/-- A write to the MBX page: while a command runs, everything but ZEROIZE is refused and counted (R543). -/
def State.mbxWrite (s : State) (off : Nat) (v : Word) : State :=
  if off = 0x100 then
    let s := s.writeReg (aMbx 0x100) v
    if fld v 7 0 = 0 then s else s.mbxCommand (fld v 7 0)
  else if s.mbxBusy && (regDef? (aMbx off)).any (fun d => decide (d.rwL ≠ 0)) then s.bumpF (aMbx 0x114) 15 0 1
  else s.writeReg (aMbx off) v

/-! ## Registers whose write is checked -/

/-- MAC_SLICE_CFG: LANE_RATE 3 is refused with BAD_MODE (R290). -/
def State.sliceCfg (s : State) (pg : Nat) (v : Word) : State :=
  let a := ra pg 0x100
  if fld v 7 6 = 3 then (s.writeReg a (setFld v 7 6 (s.rf a 7 6))).err pg 0 3 0x100 0 else s.writeReg a v

/-- EPC_LEN, EPC_PHASE and EPC_CAL (R402, R418, R424). -/
def State.epcLenWrite (s : State) (v : Word) : State :=
  if 250 ≤ fld v 25 0 ∧ fld v 25 0 ≤ 64000000 then s.writeReg (aEpc 0x104) v else s.err (mPage 0) 0 2 0x104 0
def State.epcPhaseWrite (s : State) (v : Word) : State :=
  let s' := s.writeReg (aEpc 0x108) v
  if s.pgHalted (mPage 0) ∧ s.af (aEpc 0x104) 25 0 ≤ fld v 25 0 then s'.err (mPage 0) 0 2 0x108 0 else s'
def State.epcCalWrite (s : State) (v : Word) : State :=
  if fld v 1 0 < s.nextImg.tiers.length then s.writeReg aEpcCal v else s.err (mPage 0) 0 2 0x148 0

/-- The thresholds of a pool as stored: a write whose values break their order is stored and logged (R368). -/
def State.thrWrite (s : State) (d p w : Nat) (v : Word) : State :=
  let s := s.writeReg (aPool d p w) v
  let lo := s.reg (aPool d p 3)
  let hi := s.reg (aPool d p 4)
  if fld lo 15 0 ≤ fld lo 31 16 ∧ fld lo 31 16 ≤ fld hi 15 0 ∧ fld hi 15 0 ≤ fld hi 31 16 then s
  else s.err (bpmPage d) 0 2 (aPool d p w % 4096) 0

/-- A word of an account: a change of its pool moves its SHARED count from one pool to the other (R366, R368). -/
def State.acctWrite (s : State) (d a : Nat) (v : Word) : State :=
  let old := s.acctPool d a
  let s := s.writeReg (aAcct d a 0) v
  if s.acctPool d a = old then s else (s.relevel d old).relevel d (s.acctPool d a)

/-- The window `w` of P-die `d` may be enabled as it stands (R441). -/
def State.mirLayoutOk (s : State) (d w : Nat) : Bool :=
  let lo := fun n => s.rf (aMir d n) 4 0
  let hi := fun n => s.rf (aMir d n) 4 0 + s.rf (aMir d n + 4) 4 0
  decide (hi w ≤ 27) && [0, 1, 2, 3].all fun n => decide (n = w) || !s.rb (aMir d n) 31 || decide (hi w ≤ lo n ∨ hi n ≤ lo w)

/-- A window that has just been enabled is DEGRADED where a channel is FAULTED; one that is disabled forgets its copies (R443). -/
def State.mirChanged (s : State) (d w : Nat) (was : Bool) : State :=
  let on := s.rb (aMir d w) 31
  let lost := (List.range 16).filter fun k => s.faulted (16 * d + k)
  if on ∧ !was ∧ lost ≠ [] then
    { s.setRb (aMir d w) 30 true with resync := lost.foldl (fun t k => tPut t ((4 * d + w) * 16 + k) 0) s.resync }
  else if !on ∧ was then
    { (s.setRb (aMir d w) 30 false).setRb (aMir d w) 29 false with resync := tDrop s.resync 16 (4 * d + w) }
  else s

/-- A write of DMC_MIRn, word 0 or 1: a window that may not stand so keeps its stored word, and BAD_CFG is logged; RESYNC starts the
copy. -/
def State.mirWrite (s : State) (d w i : Nat) (v : Word) : State :=
  let a := aMir d w + 4 * i
  let was := s.rb (aMir d w) 31
  let old := s.reg a
  let s := s.writeReg a v
  let s := if s.rb (aMir d w) 31 ∧ !s.mirLayoutOk d w then (s.setReg a old).err (dmcPage (16 * d)) 0 2 (a % 4096) 0 else s.mirChanged d w was
  if i = 0 ∧ bit v 29 then s.mirrorResync d w else s

/-- A write of TEL_CTRL: the record number of the Ledger starts again when it is enabled (R229). -/
def State.telCtrlWrite (s : State) (r : Nat) (v : Word) : State :=
  let was := s.rb (aTel r 0x100) 0
  let s := s.writeReg (aTel r 0x100) v
  if s.rb (aTel r 0x100) 0 ∧ !was then s.setTeller r fun t => { t with seq := 0 } else s

/-- An operation of POL_WR_CMD (R320 to R323). -/
def State.polCmd (s : State) (r : Nat) (v : Word) : State :=
  match fld v 19 16 with
  | 1 => s.polWrite r (fld v 15 0)
  | 2 => s.polGsa r (fld v 15 0)
  | 3 => s.polRead r (fld v 15 0)
  | 4 => s.polCount r (fld v 15 0) false
  | 5 => s.polCount r (fld v 15 0) true
  | _ => s.polReadOp r fun s => s.polResult r 1

/-- A write of a byte-addressed word of the selected filler template (R398). -/
def State.tplWrite (s : State) (d o : Nat) (v : Word) : State :=
  { s with tpl := tPutAll (fun _ => 0) s.tpl (d * 2 ^ 18 + s.rf (aTm d 0x140) 9 0 * 256 + o) (leBytes 4 v.toNat) }

/-- A write of PWR_DOM_CMD: STATE 0 OFF, 1 IDLE, 2 ON; 3 ends REFUSED (R500). -/
def State.domCmdWrite (s : State) (v : Word) : State :=
  match fld v 9 8 with
  | 0 => s.domCommand (fld v 6 0) 0
  | 1 => s.domCommand (fld v 6 0) 2
  | 2 => s.domCommand (fld v 6 0) 1
  | _ => if s.pwr.domCmd.isSome then s else s.domResult 0 1

/-- A thread command of DBG_THR_CMD on the context of DBG_THR_SEL (R563). -/
def State.dbgThrCmd (s : State) (op : Nat) : State :=
  let o := BitVec.ofNat 14 (fld (s.dbgReg 0) 13 0)
  match op with
  | 1 => s.dbgStop o
  | 2 => s.dbgResume o
  | 3 => s.dbgStep o
  | 4 => s.dbgKill o
  | 5 => s.runRecord o
  | _ => s

/-- A write to the DBG page, each under its permission (R474, R475, R563 to R565). R565 names the counter DBG_CAP_LOST without an access type:
writes to it are ignored, and a read does not clear it. DESIGN CHOICE (log entry 198). -/
def State.dbgWrite (s : State) (off : Nat) (v : Word) : State :=
  if 0xA00 ≤ off ∧ off < 0xB00 then (if s.perm 2 then s.setReg (ra (mPage 6) off) v else s)
  else if 0x800 ≤ off ∧ off < 0xA00 then
    match (if s.perm 4 then s.dbgCtx else none) with
    | none => s
    | some t => { s with ctxWr := tPut s.ctxWr (ctxKey t ((off - 0x800) / 4)) v }
  else
    match dbgIndex off with
    | some 0 => s.setDbg 0 (v &&& 0x3FFF)
    | some 1 => s.dbgThrCmd (fld v 2 0)
    | some 2 => if s.perm 5 then s.setDbg 2 (v &&& 0xFC0000FF) else s
    | some 7 => s
    | some i => if s.perm 5 then s.setDbg i v else s
    | none => s

/-- A write to the OTP page: the data words, and BURN_OWNER, taken only from BAR0 (R456). -/
def State.otpWrite (s : State) (off : Nat) (v : Word) (bar0 : Bool) : State :=
  if off = Config.otpOffset 0 then (if bar0 ∧ v = Config.otpBurn then s.burnOwner else s)
  else if Config.otpOffset 1 ≤ off ∧ off < Config.otpOffset 1 + 64 then
    s.modSec fun x => { x with otpData := tSet (fun _ => 0) x.otpData ((off - Config.otpOffset 1) / 4) v }
  else s

/-! ## By block -/

/-- A write to the HST page (R556 to R558, R561). -/
def State.hstWrite (s : State) (off : Nat) (v : Word) : State :=
  let t := s.writeReg (aHst off) v
  if off = 0x12C then (if bit v 0 then t.hostBootGo else t)
  else if off = 0x154 then (if bit v 0 then t.hostFill else t)
  else if off = 0x160 then
    match fld v 1 0 with
    | 1 => s.xspiRead
    | 2 => s.xspiProgram
    | 3 => s.xspiErase
    | _ => s
  else t

/-- A write to a page of a cluster or a core. -/
def State.cluWrite (s : State) (k : Kind) (pg off : Nat) (v : Word) : State :=
  let c := cluOfPage pg
  let t := s.writeReg (ra pg off) v
  match k with
  | .core => if off = 0x164 then s.coreKill (coreOfPage pg) (fld v 7 0) else t
  | .cmem =>
    if off = 0x110 then (if bit v 0 then t.cmemFillGo c else t)
    else if 0x800 ≤ off then s.cmemWinWrite c ((off - 0x800) / 4) v
    else t
  | .cdc =>
    if off = 0x100 then s.cdcCtrlWrite c v
    else if off = 0x108 ∨ off = 0x10C then s.aperWrite c off v
    else if off = 0x110 then s.spmBaseWrite c v
    else if off = 0x118 then (if fld v 3 0 = 0 ∧ !t.rb (aCdc c 0x118) 31 then t else t.maintWrite c (fld v 3 0))
    else t
  | .esc => if off = 0x108 then (if pg / 16 % 16 ≠ 15 ∧ 256 ≤ fld v 9 0 then s else s.abandon pg (fld v 9 0) 3) else t
  | _ => t

/-- A write to a page of a region. -/
def State.rgnWrite (s : State) (k : Kind) (pg off : Nat) (v : Word) : State :=
  let r := rgnOfPage pg
  let t := s.writeReg (ra pg off) v
  match k with
  | .tel => if off = 0x100 then s.telCtrlWrite r v else t
  | .pol => if off = 0x100 then s.polCmd r v else if off = 0x140 then s.wlockWrite (aPol r 0x140) v else t
  | _ => t

/-- A write to a page of a P-die. -/
def State.pdieWrite (s : State) (k : Kind) (pg off : Nat) (v : Word) : State :=
  let d := pdOfPage pg
  let t := s.writeReg (ra pg off) v
  match k with
  | .mac =>
    if off = 0x100 then s.sliceCfg pg v
    else if 0x110 ≤ off ∧ off < 0x130 then s.portWrite d (8 * sliceOfPage pg + (off - 0x110) / 4) v
    else t
  | .prs => if off = 0x100 then s.prsWrite d (sliceOfPage pg) v else t
  | .cls => if off = 0x130 then s.wlockWrite (aCls d 0x130) v else if off = 0x140 then s.ftReg d v.toNat else t
  | .sat =>
    if off = 0x100 then s.satCmd d (fld v 3 0)
    else if off = 0x130 then s.wlockWrite (ra (satPage d) 0x130) v
    else t
  | .vlt => if off = 0x100 then s.vltWrite d v else t
  | .bpm =>
    if off = 0x100 then s.bpmReg d v.toNat
    else if off = 0x114 then (if bit v 31 then t.sweepRequest d (fld v 13 0) else t)
    else if 0x200 ≤ off ∧ off < 0x650 ∧ off % 8 = 0 then s.acctWrite d ((off - 0x200) / 8) v
    else if 0x800 ≤ off then
      let p := (off - 0x800) / 32
      match off / 4 % 8 with
      | 0 => s.poolCfg d p v
      | 3 => s.thrWrite d p 3 v
      | 4 => s.thrWrite d p 4 v
      | _ => t
    else t
  | .tm => if off = 0x100 then s.tmCmd d v else if 0x800 ≤ off ∧ off < 0x900 then s.tplWrite d (off - 0x800) v else t
  | .dmc =>
    let ch := chanOfPage pg
    if off = 0x100 then (if bit v 0 then s.channelReset ch else s)
    else if off = 0x140 then (if bit v 0 then t.dmcFill ch else t)
    else if 0x400 ≤ off ∧ off < 0x420 then (if pg % 16 = 0 then s.mirWrite d ((off - 0x400) / 8) (off / 4 % 2) v else s)
    else t
  | _ => t

/-- A write to a page of the M-die. -/
def State.mdieWrite (s : State) (k : Kind) (pg off : Nat) (v : Word) (bar0 : Bool) : State :=
  let t := s.writeReg (ra pg off) v
  match k with
  | .epc =>
    match off with
    | 0x100 => s.epcCtrl v
    | 0x104 => s.epcLenWrite v
    | 0x108 => s.epcPhaseWrite v
    | 0x148 => s.epcCalWrite v
    | 0x158 => s.tbRebase.writeReg (ra pg off) v
    | 0x15C => s.setReg (ra pg off) v
    | 0x160 => s.tbStep v
    | _ => t
  | .pwr =>
    match off with
    | 0x120 => s.dvfsWrite v
    | 0x160 => t.thermAct
    | 0x130 => s.domCmdWrite v
    | _ => t
  | .fmg => if off = 0x130 then (if bit v 0 then { s with fmgq := fmgPop s.fmgq } else s) else t
  | .hst => s.hstWrite off v
  | .dbg => s.dbgWrite off v
  | .otp => s.otpWrite off v bar0
  | .mbx => s.mbxWrite off v
  | .dma => if off = 0x11C then s.dmaTail (pg % 16) 0x110 (fld v 15 0) else if off = 0x13C then s.dmaTail (pg % 16) 0x130 (fld v 15 0) else t
  | _ => t

/-- A write to the common header (R528). -/
def State.headWrite (s : State) (k : Kind) (pg off : Nat) (v : Word) : State :=
  match off with
  | 0x008 =>
    if !k.hasCtrl then s
    else if bit v 2 ∧ s.pgHalted pg then s.softReset pg
    else
      let s := if bit v 2 then s.softReset pg else s
      s.pageCtrl pg k (bit v 0) (bit v 1)
  | 0x010 => s.evtClear pg v
  | 0x014 => s.evtEnable k pg v
  | 0x018 => s.evtSet pg v
  | 0x01C => s.writeReg (ra pg off) v
  | 0x020 => if bit v 31 then s.errClear pg else s
  | _ => s

/-- A write of a word to a page: an unpopulated page ignores and counts it (R526); a block-specific offset of a page whose domain is not
ON ignores it, and PWR_DOM_DENY counts it (R487). -/
def State.pageWrite (s : State) (pg off : Nat) (v : Word) (bar0 : Bool) : State :=
  match pageKind pg with
  | none => s.bumpF (aHst 0x110) 31 16 1
  | some (k, _) =>
    let s := s.secLook pg
    if off < 0x100 then s.headWrite k pg off v
    else if !s.pageOn k pg then s.domDeny
    else
      match k with
      | .core | .clu | .cmem | .cdc | .esc | .cpx | .lx | .sp | .ec | .kw => s.cluWrite k pg off v
      | .tel | .pol | .rsw | .dsv => s.rgnWrite k pg off v
      | .mac | .prs | .cph | .sds | .cls | .frg | .lrn | .sat | .vlt | .bpm | .tm | .xlk | .dmc => s.pdieWrite k pg off v
      | .epc | .pwr | .clk | .fmg | .sec | .hst | .dbg | .otp | .mbx | .dma => s.mdieWrite k pg off v bar0

/-- A write of a whole word at an address (R522, R526): die code 7 writes the same place of the four C-dies. -/
def State.busWrite (s : State) (addr : Nat) (v : Word) (bar0 : Bool) : State :=
  let pg := addr / 4096
  let off := addr % 4096 / 4 * 4
  if pg / 4096 = 7 then
    if (pageKind (pg % 4096)).isSome then [0, 1, 2, 3].foldl (fun s c => s.pageWrite (4096 * c + pg % 4096) off v bar0) s
    else s.bumpF (aHst 0x110) 31 16 1
  else s.pageWrite pg off v bar0

/-- REGISTER_WRITE: a write from BAR0; one whose byte enables are not all set is ignored and counted (R526). -/
def State.bar0Write (s : State) (addr : Nat) (v : Word) (be : Nat) : State :=
  if s.bar0Shut (addr / 4096) then s
  else if be ≠ 15 then s.bumpF (aHst 0x110) 15 0 1
  else s.busWrite addr v true
def execRegisterWrite (addr : BitVec 28) (value : Word) (be : BitVec 4) (s : State) : Host.Outcome State Fault Refusal :=
  .next (s.bar0Write addr.toNat value be.toNat)

end Sys2Proof.Machine
end

