-- ==== Sys2Proof/Machine/Access.lean ====
section
/-! DEFINITION. The management ports: I2C, the TAP, the GPIO pins (R474, R475, R536, R559, R561, R562). -/

namespace Sys2Proof.Machine

/-! ## I2C and DBG_ACCESS -/

/-- The pages that I2C reads without a permission: PWR, FMG and SEC (R559). -/
def isOpenPage (pg : Nat) : Bool := decide (pg = mPage 1 ∨ pg = mPage 3 ∨ pg = mPage 4)

/-- A read through a management port: the word, or 0xFFFF_FFFF where it is not permitted. -/
def State.portRead (s : State) (addr : Nat) (ok : Bool) : State :=
  if ok then (s.busRead addr 1).2.emit (.data (s.busRead addr 1).1) else s.emit (.data 0xFFFFFFFF)

/-- I2C_ACCESS: a read needs PAGE_READ but for the open pages, a write PAGE_WRITE. -/
def State.i2c (s : State) (addr : Nat) (w : Option Word) : State :=
  match w with
  | none => s.portRead addr (s.perm 0 || isOpenPage (addr / 4096))
  | some v => if s.perm 1 then s.busWrite addr v false else s
def execI2cAccess (addr : BitVec 28) (write : Option Word) (s : State) : Host.Outcome State Fault Refusal := .next (s.i2c addr.toNat write)

/-! ## The TAP -/

/-- DBG_ACCESS: a read needs PAGE_READ, a write PAGE_WRITE; DBG_UNLOCK, which has no row of its own, comes in the same way and has no address. -/
def State.tapAccess (s : State) (addr : Nat) (c : TapScan) : State :=
  match c with
  | .read => s.noExtest.portRead addr (s.perm 0)
  | .write v => if s.perm 1 then s.noExtest.busWrite addr v false else s.noExtest
  | .challenge => s.tapChallenge
  | .unlock t => s.tapUnlock t
  | .lock => s.tapLock
def execDbgAccess (addr : BitVec 28) (scan : TapScan) (s : State) : Host.Outcome State Fault Refusal := .next (s.tapAccess addr.toNat scan)

/-- JTAG_BYPASS: the one-bit register captures 0, and the bit shifted in follows it. -/
def execJtagBypass (b : Bool) (s : State) : Host.Outcome State Fault Refusal := .next (s.noExtest.emit (.tdo [false, b]))

/-- The IDCODE, least significant bit first. -/
def idcode : List Bool :=
  let v := 2 ^ 28 + 0x6400 * 2 ^ 12 + Config.jep106 % 2 ^ 11 * 2 + 1
  (List.range 32).map fun i => v.testBit i

/-- JTAG_IDCODE. -/
def execJtagIdcode (s : State) : Host.Outcome State Fault Refusal := .next (s.noExtest.emit (.tdo idcode))

/-- JTAG_SAMPLE_PRELOAD: the cells as captured from the balls are shifted out; what is shifted in stands in the register. -/
def State.samplePreload (s : State) (load : Option (List Bool)) : State :=
  let bits := (List.range Config.boundaryCells).map fun i => Config.boundaryBit s.draw i
  let s := (s.noExtest.drawn).emit (.tdo bits)
  match load with
  | none => s
  | some l => { s with tap := { s.tap with bsr := (List.range Config.boundaryCells).map fun i => l.getD i false } }
def execJtagSamplePreload (load : Option (List Bool)) (s : State) : Host.Outcome State Fault Refusal := .next (s.samplePreload load)

/-- JTAG_EXTEST: the covered outputs follow the register. -/
def execJtagExtest (s : State) : Host.Outcome State Fault Refusal := .next { s with tap := { s.tap with extest := true } }

/-- TAP_RESET: the TAP drives no pin. -/
def execTapReset (s : State) : Host.Outcome State Fault Refusal := .next s.noExtest

/-! ## GPIO (R536, R561) -/

/-- GPIO `n` as an event output: a page routed to it has its condition true. The pages whose EVT_EN has been written are listed. -/
def State.gpioEvent (s : State) (n : Nat) : Bool :=
  s.regs.any fun e =>
    decide (e.1 % 4096 = 0x014) && s.evtCond (e.1 / 4096) && decide (s.rf (ra (e.1 / 4096) 0x01C) 31 30 = 3)
      && decide (s.rf (ra (e.1 / 4096) 0x01C) 3 0 = n)

/-- The level of pin `n` where `pins` are driven from outside. -/
def State.gpioLevel (s : State) (pins : Nat) (n : Nat) : Bool :=
  if s.rb (aHst 0x188) n then s.gpioEvent n
  else if s.rb (aHst 0x180) n then s.rb (aHst 0x184) n
  else pins.testBit n

/-- GPIO_SAMPLE: the levels of the pins stand in HST_GPIO_IN. -/
def State.gpioSample (s : State) (pins : Nat) : State :=
  s.setReg (aHst 0x18C) (nw ((List.range 16).foldl (fun a n => a + b2n (s.gpioLevel pins n) * 2 ^ n) 0))
def execGpioSample (pins : BitVec 16) (s : State) : Host.Outcome State Fault Refusal := .next (s.gpioSample pins.toNat)

end Sys2Proof.Machine
end

