-- ==== Sys2Proof/Machine/Dispatch.lean ====
section
/-! DEFINITION. Dispatch: one arm per command, each a direct call of its meaning. -/

namespace Sys2Proof.Machine

/-- The effect of a command on everything but the queue. -/
def exec (i : Instr) (s : State) : Host.Outcome State Fault Refusal :=
  match i with
  | .frameReceive port bytes fcsOk => Sys2Proof.Machine.execFrameReceive port bytes fcsOk s
  | .ingressRelease d sl => Sys2Proof.Machine.execIngressRelease d sl s
  | .fragmentWaitRelease d => Sys2Proof.Machine.execFragmentWaitRelease d s
  | .fragOrphan d => Sys2Proof.Machine.execFragOrphan d s
  | .fragEntryAge d => Sys2Proof.Machine.execFragEntryAge d s
  | .classifierHoldEnd d ftLate => Sys2Proof.Machine.execClassifierHoldEnd d ftLate s
  | .holdQueueRelease d => Sys2Proof.Machine.execHoldQueueRelease d s
  | .dispatch d slot => Sys2Proof.Machine.execDispatch d slot s
  | .recordDelivery t buf late => Sys2Proof.Machine.execRecordDelivery t buf late s
  | .returnSlot d slot late => Sys2Proof.Machine.execReturnSlot d slot late s
  | .resultTake d => Sys2Proof.Machine.execResultTake d s
  | .xlinkSend d => Sys2Proof.Machine.execXlinkSend d s
  | .xlinkArrival d => Sys2Proof.Machine.execXlinkArrival d s
  | .portSelect port => Sys2Proof.Machine.execPortSelect port s
  | .egressCipher d sl => Sys2Proof.Machine.execEgressCipher d sl s
  | .frameTransmit d sl => Sys2Proof.Machine.execFrameTransmit d sl s
  | .pfcFrameReceive port enable quanta => Sys2Proof.Machine.execPfcFrameReceive port enable quanta s
  | .pfcPauseExpiry port pri => Sys2Proof.Machine.execPfcPauseExpiry port pri s
  | .pfcXoffRepeat d pool => Sys2Proof.Machine.execPfcXoffRepeat d pool s
  | .linkLoss port => Sys2Proof.Machine.execLinkLoss port s
  | .portEnable port value => Sys2Proof.Machine.execPortEnable port value s
  | .macTsInfoRead d sl => Sys2Proof.Machine.execMacTsInfoRead d sl s
  | .prsRoleWrite d sl value => Sys2Proof.Machine.execPrsRoleWrite d sl value s
  | .move t w => Sys2Proof.Machine.execMove t w s
  | .repeat_ t g n => Sys2Proof.Machine.execRepeat t g n s
  | .repeatRc t g cap => Sys2Proof.Machine.execRepeatRc t g cap s
  | .repeatBodyIssue t => Sys2Proof.Machine.execRepeatBodyIssue t s
  | .spanMarker t => Sys2Proof.Machine.execSpanMarker t s
  | .spanOverrun t => Sys2Proof.Machine.execSpanOverrun t s
  | .aluOp t f ib x => Sys2Proof.Machine.execAluOp t f ib x s
  | .bfOp t f x => Sys2Proof.Machine.execBfOp t f x s
  | .muOp t f x => Sys2Proof.Machine.execMuOp t f x s
  | .dvOp t f x => Sys2Proof.Machine.execDvOp t f x s
  | .ckOp t f x => Sys2Proof.Machine.execCkOp t f x s
  | .guCompare t f p x => Sys2Proof.Machine.execGuCompare t f p x s
  | .pwLoad t f x => Sys2Proof.Machine.execPwLoad t f x s
  | .pwStore t f x => Sys2Proof.Machine.execPwStore t f x s
  | .lsLoad t f x => Sys2Proof.Machine.execLsLoad t f x s
  | .lsStore t f x => Sys2Proof.Machine.execLsStore t f x s
  | .tbGet t f => Sys2Proof.Machine.execTbGet t f s
  | .tbCnt t f => Sys2Proof.Machine.execTbCnt t f s
  | .tbTaskDone t => Sys2Proof.Machine.execTbTaskDone t s
  | .dmLd t f sb => Sys2Proof.Machine.execDmLd t f sb s
  | .dmSt t f sb => Sys2Proof.Machine.execDmSt t f sb s
  | .dmLoadDone t sb => Sys2Proof.Machine.execDmLoadDone t sb s
  | .dmStoreAck t sb => Sys2Proof.Machine.execDmStoreAck t sb s
  | .lkAcq t f => Sys2Proof.Machine.execLkAcq t f s
  | .lkTry t f => Sys2Proof.Machine.execLkTry t f s
  | .lkArm t f => Sys2Proof.Machine.execLkArm t f s
  | .lkRel t f => Sys2Proof.Machine.execLkRel t f s
  | .chSend t f n => Sys2Proof.Machine.execChSend t f n s
  | .chTrySend t f n => Sys2Proof.Machine.execChTrySend t f n s
  | .chTry t f => Sys2Proof.Machine.execChTry t f s
  | .chRecv t f => Sys2Proof.Machine.execChRecv t f s
  | .chArm t f => Sys2Proof.Machine.execChArm t f s
  | .cuJmp t f rel => Sys2Proof.Machine.execCuJmp t f rel s
  | .cuCall t f rel => Sys2Proof.Machine.execCuCall t f rel s
  | .cuRet t f => Sys2Proof.Machine.execCuRet t f s
  | .cuEnd t f => Sys2Proof.Machine.execCuEnd t f s
  | .cuTrap t f => Sys2Proof.Machine.execCuTrap t f s
  | .tuFork t f detached => Sys2Proof.Machine.execTuFork t f detached s
  | .tuJoin t f => Sys2Proof.Machine.execTuJoin t f s
  | .tuYield t f => Sys2Proof.Machine.execTuYield t f s
  | .tuWait t f => Sys2Proof.Machine.execTuWait t f s
  | .tuEvent t f => Sys2Proof.Machine.execTuEvent t f s
  | .eventLatch target e => Sys2Proof.Machine.execEventLatch target e s
  | .waitTimeout t => Sys2Proof.Machine.execWaitTimeout t s
  | .tuExit t f => Sys2Proof.Machine.execTuExit t f s
  | .sbWait t f => Sys2Proof.Machine.execSbWait t f s
  | .sbClr t f => Sys2Proof.Machine.execSbClr t f s
  | .thFclr t f => Sys2Proof.Machine.execThFclr t f s
  | .cpGo t f n sb => Sys2Proof.Machine.execCpGo t f n sb s
  | .cpCsave t f n sb => Sys2Proof.Machine.execCpCsave t f n sb s
  | .cpCrest t f n sb => Sys2Proof.Machine.execCpCrest t f n sb s
  | .csave c n => Sys2Proof.Machine.execCsave c n s
  | .crestore c n => Sys2Proof.Machine.execCrestore c n s
  | .ntt c => Sys2Proof.Machine.execNtt c s
  | .intt c => Sys2Proof.Machine.execIntt c s
  | .pmul c => Sys2Proof.Machine.execPmul c s
  | .padd c => Sys2Proof.Machine.execPadd c s
  | .psub c => Sys2Proof.Machine.execPsub c s
  | .mlkemKeygen c => Sys2Proof.Machine.execMlkemKeygen c s
  | .mlkemEncaps c => Sys2Proof.Machine.execMlkemEncaps c s
  | .mlkemDecaps c => Sys2Proof.Machine.execMlkemDecaps c s
  | .falconVerify c => Sys2Proof.Machine.execFalconVerify c s
  | .init c => Sys2Proof.Machine.execInit c s
  | .absorb c => Sys2Proof.Machine.execAbsorb c s
  | .squeeze c => Sys2Proof.Machine.execSqueeze c s
  | .hash c => Sys2Proof.Machine.execHash c s
  | .permute c => Sys2Proof.Machine.execPermute c s
  | .rand c => Sys2Proof.Machine.execRand c s
  | .x25519 c => Sys2Proof.Machine.execX25519 c s
  | .p384Mul c => Sys2Proof.Machine.execP384Mul c s
  | .fmul c => Sys2Proof.Machine.execFmul c s
  | .fadd c => Sys2Proof.Machine.execFadd c s
  | .fsub c => Sys2Proof.Machine.execFsub c s
  | .finv c => Sys2Proof.Machine.execFinv c s
  | .keyset c => Sys2Proof.Machine.execKeyset c s
  | .wrap c => Sys2Proof.Machine.execWrap c s
  | .unwrap c => Sys2Proof.Machine.execUnwrap c s
  | .vaultUnwrap c => Sys2Proof.Machine.execVaultUnwrap c s
  | .gmac c => Sys2Proof.Machine.execGmac c s
  | .aesBlock c => Sys2Proof.Machine.execAesBlock c s
  | .cpCommandDone c n => Sys2Proof.Machine.execCpCommandDone c n s
  | .coreThrKill core mask => Sys2Proof.Machine.execCoreThrKill core mask s
  | .threadResetDone t => Sys2Proof.Machine.execThreadResetDone t s
  | .escForceRel page lock => Sys2Proof.Machine.execEscForceRel page lock s
  | .stallAll c => Sys2Proof.Machine.execStallAll c s
  | .trapStorm c => Sys2Proof.Machine.execTrapStorm c s
  | .tellerStage r => Sys2Proof.Machine.execTellerStage r s
  | .telHcmdProd r idx => Sys2Proof.Machine.execTelHcmdProd r idx s
  | .activate r => Sys2Proof.Machine.execActivate r s
  | .wake r => Sys2Proof.Machine.execWake r s
  | .park r => Sys2Proof.Machine.execPark r s
  | .setprio r => Sys2Proof.Machine.execSetprio r s
  | .kill r => Sys2Proof.Machine.execKill r s
  | .bindingFire r source => Sys2Proof.Machine.execBindingFire r source s
  | .deadlineWake r => Sys2Proof.Machine.execDeadlineWake r s
  | .placement r => Sys2Proof.Machine.execPlacement r s
  | .quantumExpiry r => Sys2Proof.Machine.execQuantumExpiry r s
  | .save t => Sys2Proof.Machine.execSave t s
  | .restore t => Sys2Proof.Machine.execRestore t s
  | .cmemFill c => Sys2Proof.Machine.execCmemFill c s
  | .cmemFillDone c => Sys2Proof.Machine.execCmemFillDone c s
  | .cmemWinAccess c off write => Sys2Proof.Machine.execCmemWinAccess c off write s
  | .clean c src => Sys2Proof.Machine.execClean c src s
  | .inval c src => Sys2Proof.Machine.execInval c src s
  | .flush c src => Sys2Proof.Machine.execFlush c src s
  | .flushAll c src => Sys2Proof.Machine.execFlushAll c src s
  | .invalAll c src => Sys2Proof.Machine.execInvalAll c src s
  | .sync c src => Sys2Proof.Machine.execSync c src s
  | .maintDone c src => Sys2Proof.Machine.execMaintDone c src s
  | .spmWaysChange c value => Sys2Proof.Machine.execSpmWaysChange c value s
  | .cacheDisable c => Sys2Proof.Machine.execCacheDisable c s
  | .apertureChange c limit value => Sys2Proof.Machine.execApertureChange c limit value s
  | .requiredFlushDone c => Sys2Proof.Machine.execRequiredFlushDone c s
  | .invalidationDone c => Sys2Proof.Machine.execInvalidationDone c s
  | .ftRingPoll d => Sys2Proof.Machine.execFtRingPoll d s
  | .ftInsert d via dram => Sys2Proof.Machine.execFtInsert d via dram s
  | .relocationStep d => Sys2Proof.Machine.execRelocationStep d s
  | .ftDelete d via => Sys2Proof.Machine.execFtDelete d via s
  | .ftModify d via => Sys2Proof.Machine.execFtModify d via s
  | .ftRead d via clrHit => Sys2Proof.Machine.execFtRead d via clrHit s
  | .ftReadLoc d via dram clrHit => Sys2Proof.Machine.execFtReadLoc d via dram clrHit s
  | .wlockTake l owner => Sys2Proof.Machine.execWlockTake l owner s
  | .wlockFree l => Sys2Proof.Machine.execWlockFree l s
  | .wlockExpiry l => Sys2Proof.Machine.execWlockExpiry l s
  | .learnApply d => Sys2Proof.Machine.execLearnApply d s
  | .learnRemoteWrite d => Sys2Proof.Machine.execLearnRemoteWrite d s
  | .polWrite r index => Sys2Proof.Machine.execPolWrite r index s
  | .gsa r index => Sys2Proof.Machine.execGsa r index s
  | .polRead r index => Sys2Proof.Machine.execPolRead r index s
  | .cntRead r index => Sys2Proof.Machine.execCntRead r index s
  | .cntReadClr r index => Sys2Proof.Machine.execCntReadClr r index s
  | .satWrite d => Sys2Proof.Machine.execSatWrite d s
  | .satRead d => Sys2Proof.Machine.execSatRead d s
  | .satInvalidate d => Sys2Proof.Machine.execSatInvalidate d s
  | .modifyLife d => Sys2Proof.Machine.execModifyLife d s
  | .setPn d => Sys2Proof.Machine.execSetPn d s
  | .clrDrops d => Sys2Proof.Machine.execClrDrops d s
  | .satLifeFifoRead d => Sys2Proof.Machine.execSatLifeFifoRead d s
  | .vltClr d value => Sys2Proof.Machine.execVltClr d value s
  | .alloc d via acct => Sys2Proof.Machine.execAlloc d via acct s
  | .free d via => Sys2Proof.Machine.execFree d via s
  | .retag d via => Sys2Proof.Machine.execRetag d via s
  | .bpmRingPoll d => Sys2Proof.Machine.execBpmRingPoll d s
  | .poolEnable d pool cfg => Sys2Proof.Machine.execPoolEnable d pool cfg s
  | .poolReady d pool => Sys2Proof.Machine.execPoolReady d pool s
  | .tillRefill d pool => Sys2Proof.Machine.execTillRefill d pool s
  | .tillSpill d pool => Sys2Proof.Machine.execTillSpill d pool s
  | .sweepRequest d owner => Sys2Proof.Machine.execSweepRequest d owner s
  | .sweepStart d => Sys2Proof.Machine.execSweepStart d s
  | .sweepDone d => Sys2Proof.Machine.execSweepDone d s
  | .tmIndRead d table index => Sys2Proof.Machine.execTmIndRead d table index s
  | .tmIndWrite d table index => Sys2Proof.Machine.execTmIndWrite d table index s
  | .tmIndReadClr d table index => Sys2Proof.Machine.execTmIndReadClr d table index s
  | .tmIndFlush d table index => Sys2Proof.Machine.execTmIndFlush d table index s
  | .epcEnable ctrl => Sys2Proof.Machine.execEpcEnable ctrl s
  | .tbStep hi => Sys2Proof.Machine.execTbStep hi s
  | .tbRead => Sys2Proof.Machine.execTbRead s
  | .ppsInEdge => Sys2Proof.Machine.execPpsInEdge s
  | .ppsOutPulse => Sys2Proof.Machine.execPpsOutPulse s
  | .clearingNotice => Sys2Proof.Machine.execClearingNotice s
  | .clearing => Sys2Proof.Machine.execClearing s
  | .syncEdge => Sys2Proof.Machine.execSyncEdge s
  | .syncWindowClose => Sys2Proof.Machine.execSyncWindowClose s
  | .genRetire => Sys2Proof.Machine.execGenRetire s
  | .genCommit notBefore => Sys2Proof.Machine.execGenCommit notBefore s
  | .genDiscard => Sys2Proof.Machine.execGenDiscard s
  | .profileSelectWarm p => Sys2Proof.Machine.execProfileSelectWarm p s
  | .profileSelectCold p => Sys2Proof.Machine.execProfileSelectCold p s
  | .calSwitch arg => Sys2Proof.Machine.execCalSwitch arg s
  | .calSwitchApply => Sys2Proof.Machine.execCalSwitchApply s
  | .seamClose d => Sys2Proof.Machine.execSeamClose d s
  | .clusterFatal c cause => Sys2Proof.Machine.execClusterFatal c cause s
  | .spareReady cdie => Sys2Proof.Machine.execSpareReady cdie s
  | .clusterReset c => Sys2Proof.Machine.execClusterReset c s
  | .clusterResetDone c => Sys2Proof.Machine.execClusterResetDone c s
  | .dramTracking ch inRange => Sys2Proof.Machine.execDramTracking ch inRange s
  | .refresh ch op => Sys2Proof.Machine.execRefresh ch op s
  | .mr4Poll ch mr4 => Sys2Proof.Machine.execMr4Poll ch mr4 s
  | .commandParityAlert ch failedReplays => Sys2Proof.Machine.execCommandParityAlert ch failedReplays s
  | .channelFatal ch kind => Sys2Proof.Machine.execChannelFatal ch kind s
  | .channelReset ch => Sys2Proof.Machine.execChannelReset ch s
  | .channelResetDone ch trained => Sys2Proof.Machine.execChannelResetDone ch trained s
  | .mirrorResync d win => Sys2Proof.Machine.execMirrorResync d win s
  | .resyncDone d win => Sys2Proof.Machine.execResyncDone d win s
  | .dmcFill ch => Sys2Proof.Machine.execDmcFill ch s
  | .dmcFillDone ch => Sys2Proof.Machine.execDmcFillDone ch s
  | .hstFill => Sys2Proof.Machine.execHstFill s
  | .hstFillDone => Sys2Proof.Machine.execHstFillDone s
  | .scrub kind inst start length => Sys2Proof.Machine.execScrub kind inst start length s
  | .retireDram kind ch page => Sys2Proof.Machine.execRetireDram kind ch page s
  | .retireSram kind inst bank => Sys2Proof.Machine.execRetireSram kind inst bank s
  | .sramRetireDone kind inst => Sys2Proof.Machine.execSramRetireDone kind inst s
  | .boot hostBoot profileSel => Sys2Proof.Machine.execBoot hostBoot profileSel s
  | .hostBootGo => Sys2Proof.Machine.execHostBootGo s
  | .burnOwner => Sys2Proof.Machine.execBurnOwner s
  | .attest nonceLen cert ek => Sys2Proof.Machine.execAttest nonceLen cert ek s
  | .keyLoad slot klen32 kwSlot mask => Sys2Proof.Machine.execKeyLoad slot klen32 kwSlot mask s
  | .keyPush slot kwSlot mask => Sys2Proof.Machine.execKeyPush slot kwSlot mask s
  | .keyClear slot => Sys2Proof.Machine.execKeyClear slot s
  | .zeroize => Sys2Proof.Machine.execZeroize s
  | .zeroizePin lowNs => Sys2Proof.Machine.execZeroizePin lowNs s
  | .tamperPin lowNs => Sys2Proof.Machine.execTamperPin lowNs s
  | .zeroizationDone => Sys2Proof.Machine.execZeroizationDone s
  | .debugChallenge => Sys2Proof.Machine.execDebugChallenge s
  | .debugUnlock => Sys2Proof.Machine.execDebugUnlock s
  | .debugLock => Sys2Proof.Machine.execDebugLock s
  | .challengeExpiry => Sys2Proof.Machine.execChallengeExpiry s
  | .rngHealthFail test => Sys2Proof.Machine.execRngHealthFail test s
  | .drbgReseed => Sys2Proof.Machine.execDrbgReseed s
  | .feedFail bkp => Sys2Proof.Machine.execFeedFail bkp s
  | .feedOk bkp => Sys2Proof.Machine.execFeedOk bkp s
  | .returnHoldEnd => Sys2Proof.Machine.execReturnHoldEnd s
  | .returnDeferEnd => Sys2Proof.Machine.execReturnDeferEnd s
  | .holdupExpiry => Sys2Proof.Machine.execHoldupExpiry s
  | .vinSample main bkp => Sys2Proof.Machine.execVinSample main bkp s
  | .tempSample readings => Sys2Proof.Machine.execTempSample readings s
  | .thermalTrip => Sys2Proof.Machine.execThermalTrip s
  | .pwrDvfsWrite value => Sys2Proof.Machine.execPwrDvfsWrite value s
  | .dvfsRailSettled => Sys2Proof.Machine.execDvfsRailSettled s
  | .dvfsApply => Sys2Proof.Machine.execDvfsApply s
  | .domainOn dom => Sys2Proof.Machine.execDomainOn dom s
  | .domainIdle dom => Sys2Proof.Machine.execDomainIdle dom s
  | .domainOff dom => Sys2Proof.Machine.execDomainOff dom s
  | .domainSwitchDone fault => Sys2Proof.Machine.execDomainSwitchDone fault s
  | .tallyUpdate => Sys2Proof.Machine.execTallyUpdate s
  | .tallyRead page master => Sys2Proof.Machine.execTallyRead page master s
  | .powerOnReset lowNs => Sys2Proof.Machine.execPowerOnReset lowNs s
  | .pcieReset => Sys2Proof.Machine.execPcieReset s
  | .flr => Sys2Proof.Machine.execFlr s
  | .perstRelease => Sys2Proof.Machine.execPerstRelease s
  | .refclkLoss => Sys2Proof.Machine.execRefclkLoss s
  | .fmgQPop => Sys2Proof.Machine.execFmgQPop s
  | .laneFailure l spareLane => Sys2Proof.Machine.execLaneFailure l spareLane s
  | .laneRepairDone l ok => Sys2Proof.Machine.execLaneRepairDone l ok s
  | .sliceFatal d sl => Sys2Proof.Machine.execSliceFatal d sl s
  | .sliceRestored d sl => Sys2Proof.Machine.execSliceRestored d sl s
  | .dieFatal die => Sys2Proof.Machine.execDieFatal die s
  | .softRst page => Sys2Proof.Machine.execSoftRst page s
  | .pageEnable page en => Sys2Proof.Machine.execPageEnable page en s
  | .pageStop page req => Sys2Proof.Machine.execPageStop page req s
  | .pageDrainDone page => Sys2Proof.Machine.execPageDrainDone page s
  | .evtSet page bits => Sys2Proof.Machine.execEvtSet page bits s
  | .evtClear page bits => Sys2Proof.Machine.execEvtClear page bits s
  | .errClear page => Sys2Proof.Machine.execErrClear page s
  | .bar2Read addr len => Sys2Proof.Machine.execBar2Read addr len s
  | .bar2Write addr bytes => Sys2Proof.Machine.execBar2Write addr bytes s
  | .dmaPuntTail q idx => Sys2Proof.Machine.execDmaPuntTail q idx s
  | .puntDelivery q => Sys2Proof.Machine.execPuntDelivery q s
  | .puntInterrupt q => Sys2Proof.Machine.execPuntInterrupt q s
  | .dmaInjectTail q idx => Sys2Proof.Machine.execDmaInjectTail q idx s
  | .inject q => Sys2Proof.Machine.execInject q s
  | .xspiRead => Sys2Proof.Machine.execXspiRead s
  | .xspiProgram => Sys2Proof.Machine.execXspiProgram s
  | .xspiErase => Sys2Proof.Machine.execXspiErase s
  | .i2cAccess addr write => Sys2Proof.Machine.execI2cAccess addr write s
  | .jtagBypass bit => Sys2Proof.Machine.execJtagBypass bit s
  | .jtagIdcode => Sys2Proof.Machine.execJtagIdcode s
  | .jtagSamplePreload load => Sys2Proof.Machine.execJtagSamplePreload load s
  | .jtagExtest => Sys2Proof.Machine.execJtagExtest s
  | .dbgAccess addr scan => Sys2Proof.Machine.execDbgAccess addr scan s
  | .tapReset => Sys2Proof.Machine.execTapReset s
  | .dbgStop owner => Sys2Proof.Machine.execDbgStop owner s
  | .dbgResume owner => Sys2Proof.Machine.execDbgResume owner s
  | .dbgStep owner => Sys2Proof.Machine.execDbgStep owner s
  | .dbgKill owner => Sys2Proof.Machine.execDbgKill owner s
  | .runRecord owner => Sys2Proof.Machine.execRunRecord owner s
  | .counterReadClear addr => Sys2Proof.Machine.execCounterReadClear addr s
  | .registerWrite addr value be => Sys2Proof.Machine.execRegisterWrite addr value be s
  | .linkUp port => Sys2Proof.Machine.execLinkUp port s
  | .zeroizePinRelease tamper => Sys2Proof.Machine.execZeroizePinRelease tamper s
  | .writebackAck c => Sys2Proof.Machine.execWritebackAck c s
  | .gpioSample pins => Sys2Proof.Machine.execGpioSample pins s

end Sys2Proof.Machine
end

