-- ==== Sys2Proof/Machine/Upset.lean ====
section
/-! DEFINITION. The soft errors that strike the protected arrays and the lines while time passes (R241, R252, R320, R352, R361, R438, R444,
R445), and the losses of the reference clocks that have no command (R494). Which strike, and where, is a free value of each idle cycle
(DESIGN CHOICE, log entries 201 and 230). -/

namespace Sys2Proof.Machine

/-- The soft error that a number stands for. -/
def flawOf (k : Nat) : Flaw :=
  { ue := decide (k % 2 = 1), bit := k / 2 % 72, synd := if k % 2 = 1 then ueSynd (k / 144 % 256) else bitSynd (k / 2 % 72), word := k / 36864 % 8 }

/-- A stored word of an array is struck; one that holds the poison pattern stays so. -/
def Arr.strike (a : Arr) (w k : Nat) : Arr := if (tFind a.poison w).isSome then a else { a with hurt := tPut a.hurt w (flawOf k) }

/-- Parity bit `k` of a line no longer matches. -/
def Line.strike (l : Line) (k : Nat) : Line := { l with bad := l.bad ^^^ BitVec.ofNat 17 (2 ^ (k % 17)) }

/-- An entry of a table is changed where it is listed. -/
def tMod (t : Tbl α) (i : Nat) (f : α → α) : Tbl α :=
  match tFind t i with
  | some v => tPut t i (f v)
  | none => t

/-- One soft error: the array, the place in it, the bit or kind. 0 DRAM, 1 CMEM, 2 packet memory, 3 SA records (words); 4 Flow Table,
5 Vault, 6 link array (an uncorrectable error), 7 fragment table by P-die, 8 queue records; 9 a Policy Table word; 10 a line of the CDC,
11 a victim entry by cluster × 16 + age, 12 a word of an addressable way; 13 the clock of a quad pair and 14 that of PCIe are lost; otherwise
the next transfers of a DRAM channel. -/
def State.strike (s : State) (e : Nat × Nat × Nat) : State :=
  let i := e.2.1
  let k := e.2.2
  match e.1 with
  | 0 => { s with dram := s.dram.strike i k }
  | 1 => { s with cmem := s.cmem.strike i k }
  | 2 => { s with pktMem := s.pktMem.strike i k }
  | 3 => { s with sat := s.sat.strike i k }
  | 4 => { s with ftBad := tPut s.ftBad i (flawOf k) }
  | 5 => { s with vltBad := tPut s.vltBad i { flawOf k with word := (flawOf k).word % 4 } }
  | 6 => { s with bufBad := tPut s.bufBad i { flawOf k with ue := true } }
  | 7 => s.modPd (i / 65536 % 2) fun x => { x with frags := tMod x.frags (i % 65536) fun f => { f with flaw := some (flawOf k) } }
  | 8 => { s with queues := tMod s.queues (i % 65536) fun x => { x with flaw := some (flawOf k) } }
  | 9 => s.tbRedo (i / 8 % 65536) fun s => { s with polBad := tPut s.polBad (i % 2 ^ 23) () }
  | 10 => { s with lines := tMod s.lines i (·.strike k) }
  | 11 =>
    s.setClu (i / 16 % 64) fun c =>
      match c.victim[i % 16]? with
      | some l => { c with victim := c.victim.set (i % 16) (l.strike k) }
      | none => c
  | 12 => { s with spmBad := tPut s.spmBad i () }
  | 13 => s.sdsLoss (i % 8)
  | 14 => s.pcieClkLoss
  | _ => { s with linkErr := tPut s.linkErr (i % 32) (k % 5 + 1) }

/-- The soft errors of one idle cycle. -/
def State.upset (s : State) : State := (Config.upsets s.draw).foldl State.strike s.drawn

/-- A core cycle passes with no command waiting: soft errors may strike (log entry 201), and the SEC's command ends if its end has come. -/
def State.idle (s : State) : State := { s.upset with now := s.now + coreTicks s.clk.point }.secDue

end Sys2Proof.Machine
end

