-- ==== Sys2Proof/Safety.lean ====
section
/-! DEFINITION. Safe runs, in the terms that claims use: the state is sound, and what a step may never undo. -/

namespace Sys2Proof.Machine

/-- A protected memory array in its canonical form: the addresses rise strictly. A byte that nothing has written is not listed. -/
def Memory.wf (m : Arr) : Bool := tSorted m.cells && tSorted m.poison && tSorted m.hurt

/-- A sound state: the register file and the memories stand in their canonical form, and the FMG queue holds at most 64 entries (R507). -/
def State.sound (s : State) : Bool :=
  tWf regReset s.regs && Memory.wf s.dram && Memory.wf s.cmem && Memory.wf s.sat && Memory.wf s.pktMem && tSorted s.bufs && decide (s.fmgq.length ≤ 64)

/-! ## The issue of a word -/

/-- Context `t` issues word `w` in its next slot: it may issue, no repeat runs, no late trap waits, and the word fetched at its address is
`w`, read without error (R40, R45, R85). -/
def State.issues (s : State) (t : Nat) (w : IssueWord) : Prop :=
  s.canIssue t = true ∧ (s.th t).rep = none ∧ (s.pkt t = true → (s.th t).nextCyc ≠ (s.th t).t0) ∧ (s.th t).lateTrap = [] ∧
    (s.th t).pc < 16384 ∧ s.fetchWord (cluOf t) (s.th t).pc = (w, 0, s)

/-- The word passes the checks at issue (R94, R95). -/
def State.legal (s : State) (t : Nat) (w : IssueWord) : Prop := illegal w (s.pkt t) false false = none ∧ unpopulated w = false

/-- What the moves of `w` do in the slot: each destination written, with its modifier and value. -/
def State.wordEffects (s : State) (t : Nat) (w : IssueWord) : List Eff :=
  (s.atSlot t (s.slotOf t)).slotEffects t (s.slotOf t) (wordKind w).moves

/-- The context after the writes of `w`, as its triggers see the operands. -/
def State.wordRegs (s : State) (t : Nat) (w : IssueWord) : Thread :=
  (s.atSlot t (s.slotOf t)).slotWrites t (s.slotOf t) (wordKind w).moves

/-- The context at the start of the slot. -/
def State.wordStart (s : State) (t : Nat) : Thread := (s.atSlot t (s.slotOf t)).slotStart t (s.slotOf t)

/-- The state when the writes and the arithmetic of `w` are done. -/
def State.wordDone (s : State) (t : Nat) (w : IssueWord) : State :=
  (s.atSlot t (s.slotOf t)).slotDone t (s.slotOf t) ((s.th t).pc + 1) (wordKind w).moves

/-- No check of a trigger fails in the slot, and no trap follows the word (R94, R119, R148). -/
def State.trapFree (s : State) (t : Nat) (w : IssueWord) : Prop :=
  (s.atSlot t (s.slotOf t)).slotTrap t (s.slotOf t) (s.th t).pc (wordKind w).moves = none ∧
    postTrap (s.pkt t) ((s.th t).pc + 1) (s.wordRegs t w) (s.wordStart t) (s.wordEffects t w) = none

/-- Context `t` issues the word `w`, which is legal and traps nothing, and whose one move into a trigger socket has effect `e`. -/
def State.fires (s : State) (t : Nat) (w : IssueWord) (e : Eff) : Prop :=
  s.issues t w ∧ s.legal t w ∧ (wordKind w).moves ≠ [] ∧ s.trapFree t w ∧
    ∃ l r, s.wordEffects t w = l ++ e :: r ∧ ∀ y ∈ l ++ r, isTrigger y.dst = false

/-- What follows the trigger of a word that context `t` issues in state `s`, where `u` stands after it: a context that waits notes the word's
address, and one that waits or has ended takes the traps left for its later slots. -/
def State.settled (s : State) (t : Nat) (u : State) : State :=
  let y := u.th t
  let v := if y.waits then u.modTh t fun z => { z with waitAt := some ((s.th t).pc, (s.wordStart t).rep) } else u
  if y.waits || (s.pkt t && y.ended) then v.lateNow t (s.th t).pc else v

/-- State `u` follows from `s` by a word `w` of context `t` that touches nothing but the context: time has come to its slot, the moves into
registers and operands are written, the context goes on behind the word; no other context and nothing else has changed. -/
def State.wordOnly (s : State) (t : Nat) (w : IssueWord) (u : State) : Prop :=
  u = { s.atSlot t (s.slotOf t) with thr := u.thr, draw := u.draw } ∧ (∀ j, j ≠ t → u.th j = s.th j) ∧
    (u.th t).w = (s.wordRegs t w).w ∧ (u.th t).op = (s.wordRegs t w).op ∧ (u.th t).ctl = (s.wordRegs t w).ctl ∧
    (u.th t).vec = (s.wordRegs t w).vec ∧ (u.th t).rc = (s.wordRegs t w).rc ∧ (u.th t).st = .running ∧
    (u.th t).nextCyc = s.slotOf t + 8

/-- State `u` follows from `s` by a change of context `t` alone, which becomes `x`. -/
def State.thOnly (s : State) (t : Nat) (x : Thread) (u : State) : Prop :=
  u = { s with thr := u.thr } ∧ u.th t = x ∧ ∀ j, j ≠ t → u.th j = s.th j

/-- Context `t` issues word `w`, which is legal and fails no check of its triggers in the slot. -/
def State.runs (s : State) (t : Nat) (w : IssueWord) : Prop :=
  s.issues t w ∧ s.legal t w ∧ (wordKind w).moves ≠ [] ∧
    (s.atSlot t (s.slotOf t)).slotTrap t (s.slotOf t) (s.th t).pc (wordKind w).moves = none

/-- A short move as the machine reads it: an immediate is sign-extended (R83, R89). -/
def ShortMove.mv (m : ShortMove) : Mv :=
  { g := m.g.toNat, imm := if m.i = 1 then some (m.src.signExtend 32) else none, src := m.src.toNat, dst := m.dst.toNat, x := m.x.toNat }

/-! ## Coprocessor commands -/

/-- Coprocessor `n` of cluster `c` runs nothing, and its next command, fetched as `k` with block `b` in the core cycle of its fetch, which
leaves state `s1`, has opcode `opc` (R188, R192). -/
def State.copNext (s s1 : State) (c n opc : Nat) (k : CopCmd) (b : List Byte) : Prop :=
  (s.cop c n).run = none ∧ (s.cop c n).queue.head? = some k ∧ k.kind = 0 ∧
    (s.upToCyc (max k.at_ (s.cop c n).freeAt)).copBlock c n k = (b, s1) ∧ blkOpc b = opc

/-- Every operand of command `k` lies where the command may use it, and those that are read are read without error, as `v` (R189, R203). -/
def State.copMay (s : State) (c n : Nat) (k : CopCmd) (args dests : List CopArg) (v : List (List Byte)) : Prop :=
  (∀ a ∈ args ++ dests, a.ok = true ∧ a.keyOk = true) ∧ s.copReads c ((s.cop c n).fetchAt k) args = (v, none, s)

/-- In state `u` the command fetched in `s1` runs: its code and count, the bytes that it will store at its pointers, and the native state
that it will leave unless it is stateless; nothing else has changed (R188, R192, R197). -/
def State.copRuns (s1 u : State) (c n : Nat) (k : CopCmd) (b : List Byte) (code count : Nat) (writes : List (Nat × List Byte))
    (st : List Byte) (va : Bool) : Prop :=
  u = { s1 with cops := u.cops, draw := u.draw } ∧
    (∀ j, j ≠ c * 4 + n → tGet (fun _ => Cop.idle) u.cops j = tGet (fun _ => Cop.idle) s1.cops j) ∧
    u.cop c n = { s1.cop c n with
      queue := (s1.cop c n).queue.drop 1, owner := ownerOf k.thread, lastOpc := blkOpc b,
      run := some { cmd := k, opc := blkOpc b, code := code, count := count, writes := writes.filter fun e => decide (e.2 ≠ []),
                    vault := none, state := if s1.stateless c n b then [] else st, valid := !s1.stateless c n b && va,
                    due := max k.at_ (s1.cop c n).freeAt + count + 32 } }

/-! ## Resets -/

/-- State `u` follows from `s` by a power-on reset: every volatile state is at its reset value; OTP, flash, what lies outside the part and
the commands that wait are kept (R497). -/
def State.lostAll (s u : State) : Prop :=
  (∀ a, u.reg a = regReset a) ∧ u.tb = 0 ∧ u.thr = [] ∧ u.locks = [] ∧ u.cops = [] ∧ u.pdies = [] ∧ u.fmgq = [] ∧ u.vault = [] ∧ u.kek = [] ∧
    u.sec.keks = [] ∧ u.sec.tkey = none ∧ u.dram = Arr.empty ∧ u.cmem = Arr.empty ∧ u.pktMem = Arr.empty ∧ u.sat = Arr.empty ∧ u.tally = [] ∧
    u.doms = [] ∧ u.flash = s.flash ∧ u.host = s.host ∧ u.sec.owner = s.sec.owner ∧ u.sec.ownerLock = s.sec.ownerLock ∧ u.sec.svnBoot = s.sec.svnBoot ∧
    u.sec.svnProf = s.sec.svnProf ∧ u.pwr.trip = s.pwr.trip ∧ u.pending = s.pending

/-- State `u` follows from `s` by a reset of the host DMA: the queue pairs with DEST = 0 are at their reset state, the others untouched, and
both BPM pages sweep the buffers of the host DMA engines (R497, R554). -/
def State.dmaStopped (s u : State) : Prop :=
  (∀ q : Fin 16, s.dmaDest q.val = false →
    (∀ off, off < 4096 → keptOnReset (ra (dmaPage q.val) off) = false → u.reg (ra (dmaPage q.val) off) = regReset (ra (dmaPage q.val) off)) ∧
      tGet (fun _ => Pair.idle) u.dpairs q.val = Pair.idle ∧ tGet (fun _ => []) u.punts q.val = []) ∧
  (∀ q : Fin 16, s.dmaDest q.val = true → (∀ off, off < 4096 → u.reg (ra (dmaPage q.val) off) = s.reg (ra (dmaPage q.val) off)) ∧
    tGet (fun _ => Pair.idle) u.dpairs q.val = tGet (fun _ => Pair.idle) s.dpairs q.val ∧ tGet (fun _ => []) u.punts q.val = tGet (fun _ => []) s.punts q.val) ∧
  (∀ d : PDie, (u.pd d.val).sweeps = (s.pd d.val).sweeps ++ [(0x3000, 0x3FC0)]) ∧ u.thr = s.thr ∧ u.tb = s.tb ∧ u.vault = s.vault ∧ u.kek = s.kek

/-! ## Channels -/

/-- In state `u` channel `ch` has become FAULTED in state `s`, by a fault of kind `kind` (1 training, 2 tracking, 3 command parity): its page
is FAULTED and holds the class 3 error unless it held one, and every enabled mirror window of its die is DEGRADED and awaits a copy to it
(R440, R443). -/
def State.channelDown (s u : State) (ch kind : Nat) : Prop :=
  u = { s with regs := u.regs, hw := u.hw, arrived := u.arrived, fmgq := u.fmgq, out := u.out, resync := u.resync } ∧ u.faulted ch = true ∧
    (s.pgState (dmcPage ch) ≠ 0 → u.pgState (dmcPage ch) = 4) ∧
    (s.rb (ra (dmcPage ch) 0x020) 31 = false → u.reg (ra (dmcPage ch) 0x020) = 0xB000000D ∧ u.reg (ra (dmcPage ch) 0x024) = nw kind) ∧
    ∀ w : Fin 4, s.rb (aMir (ch / 16) w.val) 31 = true →
      u.rb (aMir (ch / 16) w.val) 30 = true ∧ tFind u.resync ((4 * (ch / 16) + w.val) * 16 + ch % 16) = some 0

end Sys2Proof.Machine
end

