-- ==== Sys2Proof/Certificates/Slice0/Obligations.lean ====
section
/-! DEFINITION. The statements for the provers: for every row of the opcode table what its command does, for every kind of state what may
change it, and the invariants that every step keeps. -/

open Sys2Proof Sys2Proof.Machine

/-- One step takes the command at the front of the queue and carries it out on the state with the queue's rest; with no command waiting one
core cycle passes, in which soft errors may strike (the model's choice, log entries 2 and 201). -/
def Obligations.StepRunsTheFrontCommand : Prop :=
  (∀ (c : Instr) (r : List Instr) (s : State), s.pending = c :: r → step s = exec c { s with pending := r }) ∧
  (∀ s v : State, s.pending = [] → v = { s.upset with now := s.now + coreTicks s.clk.point } → step s = .next v.secDue ∧ (v.secDone = none → step s = .next v))

/-- R402, R408, R484, R496 to R498, R500, R532: what reset leaves. -/
def Obligations.ResetLeavesTheSpecifiedState : Prop :=
  State.reset.sound = true ∧ State.reset.pending = [] ∧ State.reset.fmgq = [] ∧ State.reset.gen = 0 ∧ State.reset.oldLive = false ∧ State.reset.tb = 0 ∧
  (∀ a, State.reset.reg a = regReset a) ∧ (∀ t, State.reset.th t = Thread.fresh) ∧ (∀ k, (State.reset.lock k).held = false) ∧
  (∀ n, State.reset.dom n = 0) ∧ State.reset.epcOn = false ∧ (∀ (d : PDie) (sl : Slice) (i : Fin 8), State.reset.portEn d.val (8 * sl.val + i.val) = false) ∧
  (∀ (d : PDie) (sl : Slice) (p : Fin 3), State.reset.pgState (slicePage d.val sl.val p.val) = 0) ∧ (∀ c : ClusterId, State.reset.pgState (cluPage c.val 0) = 0) ∧
  State.reset.reg (aPwr 0x104) = 0x64 ∧ State.reset.reg (aPwr 0x120) = 0x33 ∧ State.reset.reg (aPwr 0x160) = 0x64 ∧ State.reset.reg (aSec 0x10C) = 0 ∧
  (∀ q : Fin 16, tGet (fun _ => []) State.reset.punts q.val = []) ∧ State.reset.sec.ownerLock = false

/-- R444 to R449, R507: the memories and the register file keep their canonical form and the FMG queue its bound, whatever step is taken. -/
def Obligations.EveryStepKeepsTheStateSound : Prop := ∀ s u : State, s.sound = true → step s = .next u → u.sound = true

/-- R456, R457: ownership cannot be undone and the security version counters never move down, whatever step is taken. -/
def Obligations.OwnershipCannotBeUndone : Prop :=
  ∀ s u : State, step s = .next u →
    (s.sec.ownerLock = true → u.sec.ownerLock = true ∧ u.sec.owner = s.sec.owner) ∧ s.sec.svnBoot ≤ u.sec.svnBoot ∧ s.sec.svnProf ≤ u.sec.svnProf

/-- R442, R452, R461, R492, R493, R512, R548, R549, R554, R558, R562: which commands may change the flash, the host's memory, PERST_N, the TAP,
the Tally and the link repairs; the queue of commands is no command's to change. -/
def Obligations.CommandsLeaveOtherStateAlone : Prop :=
  ∀ (c : Instr) (s u : State), exec c s = .next u →
    u.pending = s.pending ∧
    (match c with
      | .xspiProgram => True
      | .xspiErase => True
      | .registerWrite _ _ _ => True
      | .i2cAccess _ _ => True
      | .dbgAccess _ _ => True
      | _ => u.flash = s.flash) ∧
    (match c with
      | .puntDelivery _ => True
      | .inject _ => True
      | _ => u.host = s.host) ∧
    (match c with
      | .pcieReset => True
      | .perstRelease => True
      | _ => u.perst = s.perst) ∧
    (match c with
      | .jtagBypass _ => True
      | .jtagIdcode => True
      | .jtagSamplePreload _ => True
      | .jtagExtest => True
      | .tapReset => True
      | .dbgAccess _ _ => True
      | _ => u.tap = s.tap) ∧
    (match c with
      | .tallyUpdate => True
      | .boot _ _ => True
      | .holdupExpiry => True
      | .thermalTrip => True
      | .powerOnReset _ => True
      | _ => u.tally = s.tally) ∧
    (match c with
      | .laneFailure _ _ => True
      | .laneRepairDone _ _ => True
      | .boot _ _ => True
      | .holdupExpiry => True
      | .thermalTrip => True
      | .powerOnReset _ => True
      | _ => u.repairs = s.repairs)

/-- R81 to R84, R89, R96, R98: an issue word that is put together from its fields is read as the moves, prefixes and markers that they
spell, field by field, and every paired word whose bit [31] is 0 is put together so. -/
def Obligations.MoveWordsReadAsTheyAreWritten : Prop :=
  (∀ a b : ShortMove, wordKind (pairWord a b) = .pair (Sys2Proof.Machine.ShortMove.mv a) (Sys2Proof.Machine.ShortMove.mv b) ∧ (pairWord a b).toNat.testBit 31 = false) ∧
  (∀ (g x : BitVec 4) (dst : BitVec 10) (imm : Word),
    wordKind (longWord g.toNat dst.toNat x.toNat 0 imm.toNat) = .imm { g := g.toNat, imm := some imm, src := 0, dst := dst.toNat, x := x.toNat } ∧
      rsvdBit (longWord g.toNat dst.toNat x.toNat 0 imm.toNat) = false) ∧
  (∀ (g : BitVec 4) (n : BitVec 16), wordKind (longWord g.toNat 0 0 1 n.toNat) = .rep g.toNat n.toNat ∧ wordKind (longWord g.toNat 0 0 2 n.toNat) = .repRc g.toNat n.toNat ∧
    wordKind (longWord 0 0 0 3 n.toNat) = .span n.toNat ∧ rsvdBit (longWord g.toNat 0 0 1 n.toNat) = false ∧ rsvdBit (longWord g.toNat 0 0 2 n.toNat) = false ∧
    rsvdBit (longWord 0 0 0 3 n.toNat) = false) ∧
  (∀ w : IssueWord, w.toNat.testBit 63 = true → w.toNat.testBit 31 = false → ∃ a b : ShortMove, w = pairWord a b) ∧
  (∀ (f : MoveForm) (dst : BitVec 10) (x : BitVec 4), ∃ m, m ∈ (wordKind (formWord f dst.toNat x.toNat)).moves ∧ m.dst = dst.toNat ∧ m.x = x.toNat)

/-- R262, R265, R266, R275, R290: link changes, pauses, the enable of a port, the timestamp FIFO and the role of a slice take effect
as the rules say, and change nothing else. -/
def Obligations.PortCommandsComplete : Prop :=
  (∀ (port : PortId) (s : State), ∃ t, exec (.linkUp port) s = .next t ∧ t = { s with links := t.links } ∧
    ∀ j, tFind t.links j = if j = port.val then some () else tFind s.links j) ∧
  (∀ (port : PortId) (s : State), ∃ t, exec (.linkLoss port) s = .next t ∧ t = { s with links := t.links, portOff := t.portOff } ∧
    ∀ j, tFind t.links j = if j = port.val then none else tFind s.links j) ∧
  (∀ (port : PortId) (enable : BitVec 8) (quanta : BitVec 128) (s : State),
    s.portUp (port.val / 64) (port.val % 64) = true → s.sliceUp (port.val / 64) (port.val % 64 / 8) = true →
    ∃ t, exec (.pfcFrameReceive port enable quanta) s = .next t ∧ t = { s with pauses := t.pauses } ∧
      (∀ k : Fin 8, tFind t.pauses (port.val * 8 + k.val) =
        if enable.toNat.testBit k.val then
          if quanta.toNat / 2 ^ (16 * k.val) % 65536 = 0 then none
          else some (s.now + s.bitTicks (port.val / 64) (port.val % 64) (512 * (quanta.toNat / 2 ^ (16 * k.val) % 65536)))
        else tFind s.pauses (port.val * 8 + k.val)) ∧
      ∀ j, j / 8 ≠ port.val → tFind t.pauses j = tFind s.pauses j) ∧
  (∀ (port : PortId) (pri : Fin 8) (u : Nat) (s : State), tFind s.pauses (port.val * 8 + pri.val) = some u →
    ∃ t, exec (.pfcPauseExpiry port pri) s = .next t ∧ t = { s with pauses := t.pauses, now := max s.now u } ∧
      ∀ j, tFind t.pauses j = if j = port.val * 8 + pri.val then none else tFind s.pauses j) ∧
  (∀ (port : PortId) (v : Word) (s : State), s.domIsOn (domPair (port.val / 64) (port.val % 64 / 16)) = true →
    s.pgHalted (macPage (port.val / 64) (port.val % 64 / 8)) = true →
    (v.getLsbD 31 = true → (s.writeReg (aPort (port.val / 64) (port.val % 64)) v).portOk (port.val / 64) (port.val % 64) = true) →
    ∃ t, exec (.portEnable port v) s = .next t ∧ t = { s with regs := t.regs, portOff := t.portOff } ∧
      (∀ a, a ≠ aPort (port.val / 64) (port.val % 64) → t.reg a = s.reg a) ∧
      t.reg (aPort (port.val / 64) (port.val % 64)) &&& 0x8FC03FFF = v &&& 0x8FC03FFF) ∧
  (∀ (port : PortId) (v : Word) (s : State), s.domIsOn (domPair (port.val / 64) (port.val % 64 / 16)) = true →
    (s.writeReg (aPort (port.val / 64) (port.val % 64)) v).portOk (port.val / 64) (port.val % 64) = false →
    ∃ t, exec (.portEnable port v) s = .next t ∧ t.portEn (port.val / 64) (port.val % 64) = false) ∧
  (∀ (d : PDie) (sl : Slice) (tag ctx u : Nat) (r : List (Nat × Nat × Nat)) (s : State),
    s.domIsOn (domPair d.val (sl.val / 2)) = true → tGet (fun _ => []) (s.pd d.val).tsFifo sl.val = (tag, ctx, u) :: r →
    ∃ t, exec (.macTsInfoRead d sl) s = .next t ∧ t = { s with pdies := t.pdies, regs := t.regs, out := t.out } ∧
      t.out = .data (nw (2 ^ 31 + tag * 2 ^ 16 + ctx)) :: s.out ∧ tGet (fun _ => []) (t.pd d.val).tsFifo sl.val = r ∧
      t.pair (ra (macPage d.val sl.val) 0x144) = u % 2 ^ 64) ∧
  (∀ (d : PDie) (sl : Slice) (v : Word) (s : State), s.domIsOn (domPair d.val (sl.val / 2)) = true →
    s.pgHalted (prsPage d.val sl.val) = true → bit v 31 ≠ s.rb (ra (prsPage d.val sl.val) 0x100) 31 →
    ∃ t, exec (.prsRoleWrite d sl v) s = .next t ∧ t = { s with regs := t.regs, act := t.act } ∧
      (∀ a, a ≠ ra (prsPage d.val sl.val) 0x100 → t.reg a = s.reg a) ∧
      t.rb (ra (prsPage d.val sl.val) 0x100) 31 = bit v 31 ∧ t.rb (ra (prsPage d.val sl.val) 0x100) 27 = !bit v 31 ∧
      bit (t.actReg (ra (prsPage d.val sl.val) 0x100)) 27 = !bit v 31)

/-- R21, R264, R270, R279 to R281, R370: each ingress event moves the frame it names from where it waits to where the rules send it. -/
def Obligations.IngressCommandsComplete : Prop :=
  (∀ (port : PortId) (b : List Byte) (fcsOk : Bool) (s : State), s.portUp (port.val / 64) (port.val % 64) = true →
    s.sliceUp (port.val / 64) (port.val % 64 / 8) = true → s.macDrop (port.val / 64) (port.val % 64) b
      (fcsOk && !s.offSince (port.val / 64) (port.val % 64) 1 (s.frameStart (port.val / 64) (port.val % 64) b.length)) = none →
    isControl b 0x0101 = false →
    exec (.frameReceive port b fcsOk) s =
      .next ((s.capture 0 (port.val / 64) (port.val % 64) b).frameIn (port.val / 64) (port.val % 64) b)) ∧
  (∀ (port : PortId) (b : List Byte) (fcsOk : Bool) (k : Nat) (s : State), s.portUp (port.val / 64) (port.val % 64) = true →
    s.sliceUp (port.val / 64) (port.val % 64 / 8) = true → s.macDrop (port.val / 64) (port.val % 64) b
      (fcsOk && !s.offSince (port.val / 64) (port.val % 64) 1 (s.frameStart (port.val / 64) (port.val % 64) b.length)) = some k →
    ∃ t, exec (.frameReceive port b fcsOk) s = .next t ∧ t = { s with regs := t.regs, hw := t.hw } ∧
      (∀ a, a ≠ ra (macPage (port.val / 64) (port.val % 64 / 8)) (0x200 + 64 * (port.val % 64 % 8) + 4 * k) → t.reg a = s.reg a) ∧
      (t.reg (ra (macPage (port.val / 64) (port.val % 64 / 8)) (0x200 + 64 * (port.val % 64 % 8) + 4 * k))).toNat =
        min (2 ^ 32 - 1) ((s.reg (ra (macPage (port.val / 64) (port.val % 64 / 8)) (0x200 + 64 * (port.val % 64 % 8) + 4 * k))).toNat + 1)) ∧
  (∀ (d : PDie) (sl : Slice) (k : Pkt) (r : List Pkt) (s u : State), tGet (fun _ => []) (s.pd d.val).ingress sl.val = k :: r →
    u = (s.upTo k.due).modPd d.val (fun x => { x with ingress := tSet (fun _ => []) x.ingress sl.val r }) → k.stale = false →
    (∀ i, i < sl.val → s.releaseFab d.val i ≠ some (k.due / 16)) →
    (u.held d.val (k.port % 64) = true → (u.pd d.val).holdq.length < 16384 → ∃ t, exec (.ingressRelease d sl) s = .next t ∧
      t = { s with now := max s.now k.due, pdies := t.pdies } ∧ tGet (fun _ => []) (t.pd d.val).ingress sl.val = r ∧
      (t.pd d.val).holdq = (s.pd d.val).holdq ++ [k]) ∧
    (u.held d.val (k.port % 64) = false → (∀ h ∈ (s.pd d.val).holdq, h.port ≠ k.port) → k.later = false → k.first = false →
      exec (.ingressRelease d sl) s = .next (u.classify d.val k))) ∧
  (∀ (d : PDie) (k : Pkt) (r : List Pkt) (pol sa q : Nat) (s : State), (s.pd d.val).fragWait = k :: r → k.stale = false → k.later = true →
    (∀ e ∈ (s.pd d.val).frags, e.2.flaw = none) → s.fragHas d.val k.fkey = some (0, pol, sa, q) →
    ∃ t, exec (.fragmentWaitRelease d) s = .next t ∧ t = { s with pdies := t.pdies } ∧ (t.pd d.val).fragWait = r ∧
      (t.pd d.val).hold = (s.pd d.val).hold ++ [{ k.take pol sa q with tier := 0, due := s.now + 2304 * 16 }]) ∧
  (∀ (d : PDie) (k : Pkt) (r : List Pkt) (s : State), (s.pd d.val).fragWait = k :: r → k.stale = false →
    exec (.fragOrphan d) s =
      .next ((((s.upTo k.due).modPd d.val fun x => { x with fragWait := r }).bump (aFrg d.val 0x114)).punt d.val k 4 false)) ∧
  (∀ (d : PDie) (s : State), (s.pd d.val).frags ≠ [] →
    ∃ i f t, (i, f) ∈ (s.pd d.val).frags ∧ (∀ e ∈ (s.pd d.val).frags, f.used ≤ e.2.used) ∧ exec (.fragEntryAge d) s = .next t ∧
      t = { s with pdies := t.pdies, now := max s.now (f.used + s.tbTicks (1000 * max 1 (s.af (aFrg d.val 0x100) 15 0))) } ∧
      (t.pd d.val).frags = tDel (s.pd d.val).frags i) ∧
  (∀ (d : PDie) (ftLate : Bool) (k : Pkt) (r : List Pkt) (s : State), (s.pd d.val).hold = k :: r → (s.pd d.val).ready.length < 4096 →
    k.stale = false →
    (k.tier = 0 → ∃ t, exec (.classifierHoldEnd d ftLate) s = .next t ∧ t = { s with now := max s.now k.due, pdies := t.pdies } ∧
      (t.pd d.val).hold = r ∧ (t.pd d.val).ready = (s.pd d.val).ready ++ [k]) ∧
    (k.tier = 1 ∨ k.tier = 2 → ftLate = true → exec (.classifierHoldEnd d ftLate) s =
      .next (((s.upTo k.due).modPd d.val fun x => { x with hold := r }).classPunt d.val k 1)) ∧
    (k.tier = 3 ∨ (k.tier = 2 ∧ ftLate = false) → exec (.classifierHoldEnd d ftLate) s =
      .next (((s.upTo k.due).modPd d.val fun x => { x with hold := r }).classPunt d.val k 0))) ∧
  (∀ (d : PDie) (k : Pkt) (r : List Pkt) (s : State), (s.pd d.val).holdq = k :: r → s.held d.val (k.port % 64) = false →
    exec (.holdQueueRelease d) s = .next ((s.modPd d.val fun x => { x with holdq := r }).enterClass d.val k))

/-- R48 to R57, R286: a record goes to the thread that the calendar names, starts its program at its delivery, comes back in its return
slot, and its result is taken. -/
def Obligations.RecordCommandsComplete : Prop :=
  (∀ (d : PDie) (slot : Fin 16384) (t b c : Nat) (k : Pkt) (q : List Pkt) (s : State), c = nextCongr s.cycCeil (slot.val / 4) 4096 →
    s.calEntry d.val (s.calTable c) slot.val = some (t, b) → d.val ∉ s.halted → s.linkWeak (slot.val % 4 * 2 + d.val) = false →
    (s.upToCyc c).seamHolds d.val t b c = false → (s.pd d.val).ready = k :: q → k.stale = false →
    ∃ u f, exec (.dispatch d slot) s = .next u ∧ u.flights = s.flights ++ [f] ∧ (u.pd d.val).ready = q ∧
      f.die = d.val ∧ f.thread = t ∧ f.buf = b ∧ f.dcyc = c ∧ f.slot = slot.val ∧ f.pkt = some k ∧ f.delivered = false ∧ f.returned = none ∧
      u.now = max s.now (s.cycTick c)) ∧
  (∀ (t : ThreadId) (buf : Bool) (f : Flight) (r : List Flight) (s : State), s.flights = f :: r → f.thread = t.val → f.buf = b2n buf →
    f.delivered = false → f.cause = 0 → (∀ g ∈ r, g.thread ≠ t.val) → (s.clu? (cluOf t.val)).st = .live →
    (s.clu? (cluOf t.val)).packet = true → (s.th t.val).stopped = false →
    ∃ u, exec (.recordDelivery t buf false) s = .next u ∧
      u = { s with now := u.now, flights := u.flights, cmem := u.cmem, thr := u.thr } ∧
      u.flights = { f with delivered := true, cause := 0 } :: r ∧
      u.cmem = (s.cmemPut (cluOf t.val) (recBase t.val (b2n buf)) f.record).cmem ∧
      (u.th t.val).st = .running ∧ (u.th t.val).buf = b2n buf ∧ (u.th t.val).t0 = ownSlot t.val (f.dcyc + 160) ∧
      (u.th t.val).nextCyc = ownSlot t.val (f.dcyc + 160) ∧ (u.th t.val).ended = false ∧ ∀ j, j ≠ t.val → u.th j = s.th j) ∧
  (∀ (d : PDie) (slot : Fin 16384) (late : Bool) (f : Flight) (r : List Flight) (s : State), s.flights = f :: r → f.die = d.val →
    s.returnOf f.slot = slot.val → s.runsFlight f = true → f.cause = 0 → f.pkt.isSome = true → (∀ g ∈ r, g.thread ≠ f.thread) →
    (s.clu? (cluOf f.thread)).st = .live → (s.th f.thread).ended = true → (s.th f.thread).stopped = false →
    (s.th f.thread).recPois = false → (s.th f.thread).st = .running →
    ∃ u, exec (.returnSlot d slot late) s = .next u ∧ u = { s with now := u.now, flights := u.flights, thr := u.thr } ∧
      u.flights = { f with returned := some (s.cmem.read arrCmem (cmemAt (cluOf f.thread) (recBase f.thread f.buf)) 256, 0), late := late,
                           pol := (s.th f.thread).polFail } :: r ∧
      (u.th f.thread).st = .idle ∧ ∀ j, j ≠ f.thread → u.th j = s.th j) ∧
  (∀ (d : PDie) (f : Flight) (k : Pkt) (b : List Byte) (cause : Nat) (s u : State), s.nextResult d.val = some f → f.pkt = some k →
    f.returned = some (b, cause) → k.stale = false →
    u = { s.upToCyc (f.dcyc + s.tRet + 160) with
          flights := s.flights.filter fun g => !decide (g.thread = f.thread ∧ g.buf = f.buf ∧ g.dcyc = f.dcyc) } →
    (f.late = true → exec (.resultTake d) s = .next ((u.freeFrame d.val k.handle).bump (aCls d.val 0x508))) ∧
    (f.late = false → cause ≠ 0 → exec (.resultTake d) s = .next ((u.freeFrame d.val k.handle).bump (aCls d.val (dropCounter cause)))) ∧
    (f.late = false → cause = 0 → exec (.resultTake d) s = .next (u.resultApply d.val f.pol k b f.ue)))

/-- R33, R376, R385, R386, R330, R263, R268: frames cross the link, leave their queue for the transmit FIFO, pass the egress half, and
are sent at their port. -/
def Obligations.EgressCommandsComplete : Prop :=
  (∀ (d : PDie) (x : Tx) (r : List Tx) (s u : State), (s.pd d.val).xwait = x :: r → tFind s.repairs 8 ≠ some 1 → d.val ∉ s.halted →
    x.stale = false → u = (s.upTo (s.pd d.val).xfree).modPd d.val (fun y => { y with xwait := r }) →
    ∃ t, exec (.xlinkSend d) s = .next t ∧ t.now = max s.now (s.pd d.val).xfree ∧ (t.pd d.val).xwait = r ∧
      (t.pd d.val).xfly = (s.pd d.val).xfly ++
        [{ tx := x, bytes := (u.readFrame d.val x.handle).1, poison := (u.readFrame d.val x.handle).2.1, due := t.now + 480 * 16 }] ∧
      (t.pd d.val).xfree = t.now + crossTicks (u.readFrame d.val x.handle).1.length) ∧
  (∀ (d : PDie) (c : Cross) (r : List Cross) (s u v : State) (h : Nat), (s.pd (1 - d.val)).xfly = c :: r → c.tx.stale = false →
    d.val ∉ s.halted → u = (s.upTo c.due).modPd (1 - d.val) (fun y => { y with xfly := r }) → (s.queue d.val c.tx.queue).flaw = none →
    u.storeFrame d.val (64 + (u.queueNow d.val c.tx.queue).cls) (engine d.val 5 0) c.bytes = (some h, v) →
    exec (.xlinkArrival d) s = .next ((v.setPoison d.val h c.poison).tmStep2 d.val { c.tx with handle := h }).2) ∧
  (∀ (port : PortId) (q : Nat) (h : Tx) (r : List Tx) (s u : State),
    s.pgState (pdPage (port.val / 64) 6) = 2 → port.val / 64 ∉ s.halted →
    (tGet (fun _ => []) (s.pd (port.val / 64)).fifo (port.val % 64 / 8)).length < 2 →
    s.coverQueues (port.val / 64) (port.val % 64) = [] → s.flushedNow (port.val / 64) (port.val % 64) = [] →
    (∀ j ∈ (s.tport (port.val / 64) (port.val % 64)).active, (s.queue (port.val / 64) j).flaw = none) →
    (s.tport (port.val / 64) (port.val % 64)).active[(s.tport (port.val / 64) (port.val % 64)).pos]? = some q →
    (s.tport (port.val / 64) (port.val % 64)).visit = true → s.isCover (port.val / 64) (s.queue (port.val / 64) q) = false →
    s.queueElig (port.val / 64) (port.val % 64) (s.queue (port.val / 64) q) = (true, u) → (u.queue (port.val / 64) q).frames = h :: r →
    h.charge ≤ (u.queue (port.val / 64) q).defi →
    ∃ t, exec (.portSelect port) s = .next t ∧ (t.queue (port.val / 64) q).frames = r ∧
      (t.queue (port.val / 64) q).bytes = (u.queue (port.val / 64) q).bytes - h.charge ∧
      (t.queue (port.val / 64) q).defi = (if r = [] then 0 else (u.queue (port.val / 64) q).defi - h.charge) ∧
      tGet (fun _ => []) (t.pd (port.val / 64)).fifo (port.val % 64 / 8) =
        tGet (fun _ => []) (u.pd (port.val / 64)).fifo (port.val % 64 / 8) ++ [h]) ∧
  (∀ (d : PDie) (sl : Slice) (x : Tx) (r : List Tx) (s u : State), s.quads d.val sl.val ≠ 3 →
    tGet (fun _ => []) (s.pd d.val).fifo sl.val = x :: r → d.val ∉ s.halted → s.sliceUp d.val sl.val = true →
    x.filler = false → x.cipher ≠ 1 → u = s.modPd d.val (fun y => { y with fifo := tSet (fun _ => []) y.fifo sl.val r }) →
    (u.readFrame d.val x.handle).2.1 = false →
    ∃ t e, exec (.egressCipher d sl) s = .next t ∧ tGet (fun _ => []) (t.pd d.val).fifo sl.val = r ∧
      tGet (fun _ => []) (t.pd d.val).egress sl.val = tGet (fun _ => []) (s.pd d.val).egress sl.val ++ [e] ∧
      e.tx = x ∧ e.bytes = some (u.readFrame d.val x.handle).1 ∧
      s.now + ((s.frameBytes d.val x.handle).1.length + 63) / 64 * 16 + 64 * 16 ≤ e.due) ∧
  (∀ (d : PDie) (sl : Slice) (e : Egress) (b : List Byte) (r : List Egress) (s u v : State), s.quads d.val sl.val ≠ 3 →
    tGet (fun _ => []) (s.pd d.val).egress sl.val = e :: r → d.val ∉ s.halted → e.bytes = some b →
    u = (s.upTo e.due).modPd d.val (fun y => { y with egress := tSet (fun _ => []) y.egress sl.val r }) →
    v = (if e.tx.filler then u else u.freeFrame d.val e.tx.handle) → v.portUp d.val e.tx.ctx = true →
    ∃ t, exec (.frameTransmit d sl) s = .next t ∧ t.out.head? = some (.frame (64 * d.val + e.tx.ctx) (v.stampFrame d.val e.tx b).1) ∧
      tGet (fun _ => []) (t.pd d.val).egress sl.val = r ∧ t.now = max s.now e.due)

/-- R384, R389, R399: the indirect operations of the TM on its records. -/
def Obligations.TmIndirectCommandsComplete : Prop :=
  (∀ (d : PDie) (i : BitVec 15) (s : State), s.tmRuns d.val = false → (s.queue d.val i.toNat).flaw = none → ∃ t, exec (.tmIndRead d 0 i) s = .next t ∧ t = { s with regs := t.regs } ∧
    t.reg (aTm d.val 0x120) = (s.queue d.val i.toNat).w0 ∧ t.reg (aTm d.val 0x124) = (s.queue d.val i.toNat).w1 ∧
    t.reg (aTm d.val 0x128) = (s.queue d.val i.toNat).w2 ∧ t.reg (aTm d.val 0x12C) = nw (s.queue d.val i.toNat).bytes ∧
    t.reg (aTm d.val 0x100) = 0) ∧
  (∀ (d : PDie) (i : BitVec 15) (s : State) (x : TmQueue), s.tmRuns d.val = false → x = s.queue d.val i.toNat → x.flaw = none → x.en = false → x.frames = [] →
    (∀ y : TmQueue, y = { x with w0 := s.tmData d.val 0 &&& 0xFFE07FFF, w1 := s.tmData d.val 1 &&& 0x9FFF1FFF, w2 := s.tmData d.val 2 &&& 0x9FFFFFFF } →
      1 ≤ y.quantum → y.quantum ≤ 4096 → y.shpEn = false →
      ∃ t, exec (.tmIndWrite d 0 i) s = .next t ∧ t = { s with regs := t.regs, queues := t.queues } ∧
        t.queue d.val i.toNat = { y with was := (t.queue d.val i.toNat).was } ∧
        (∀ j, j ≠ i.toNat → j < 32768 → t.queue d.val j = s.queue d.val j) ∧ t.reg (aTm d.val 0x100) = 0)) ∧
  (∀ (d : PDie) (i : BitVec 15) (s : State), s.tmRuns d.val = false → i.toNat < 8192 → ∃ t, exec (.tmIndReadClr d 2 i) s = .next t ∧
    t = { s with regs := t.regs, policers := t.policers } ∧
    t.reg (aTm d.val 0x12C) = nw (s.policer d.val i.toNat).passed ∧ t.reg (aTm d.val 0x130) = nw (s.policer d.val i.toNat).dropped ∧
    (t.policer d.val i.toNat).passed = 0 ∧ (t.policer d.val i.toNat).dropped = 0 ∧ (t.policer d.val i.toNat).w0 = (s.policer d.val i.toNat).w0) ∧
  (∀ (d : PDie) (i : BitVec 15) (s : State), s.tmRuns d.val = false →
    ∃ t, exec (.tmIndFlush d 0 i) s = .next t ∧ (t.queue d.val i.toNat).frames = [] ∧
    (t.queue d.val i.toNat).bytes = 0 ∧ (t.queue d.val i.toNat).defi = 0 ∧ t.reg (aTm d.val 0x100) = 0 ∧
    (t.pd d.val).tmBusy = s.now + (64 + 2 * (s.queue d.val i.toNat).frames.length) * 16 ∧
    t = { s with regs := t.regs, hw := t.hw, arrived := t.arrived, out := t.out, fmgq := t.fmgq, pools := t.pools, lvlWas := t.lvlWas,
                 xoffAt := t.xoffAt, used := t.used, bufs := t.bufs, bufBad := t.bufBad, pktMem := t.pktMem, dram := t.dram,
                 linkErr := t.linkErr, draw := t.draw, queues := t.queues, tports := t.tports, pdies := t.pdies }) ∧
  (∀ (d : PDie) (tab : Fin 4) (i : BitVec 15) (s : State), s.tmRuns d.val = true →
    exec (.tmIndRead d tab i) s = .next s ∧ exec (.tmIndWrite d tab i) s = .next s ∧ exec (.tmIndReadClr d tab i) s = .next s ∧
      exec (.tmIndFlush d tab i) s = .next s)

/-- R304, R367, R371, R374, R377: ALLOC, FREE and RETAG through the registers and through a ring, and the poll of the rings. -/
def Obligations.BufferCommandsComplete : Prop :=
  (∀ (d : PDie) (a : BitVec 8) (c : Nat) (r : List Nat) (s : State), a.toNat < 138 → s.sweeping d.val (s.rf (aBpmOwner d.val) 13 0) = false →
    s.admission d.val a.toNat = 0 → (s.pool d.val (s.acctPool d.val a.toNat)).till = c :: r →
    ∃ t b, exec (.alloc d .reg a) s = .next t ∧ t.buf? d.val c = some b ∧ b.tag = BitVec.ofNat 14 (s.rf (aBpmOwner d.val) 13 0) ∧
      b.acct = a.toNat ∧ b.next = none ∧ b.poison = false ∧ t.acctUsed d.val a.toNat = s.acctUsed d.val a.toNat + 1 ∧
      t.reg (aBpmHandle d.val) = nw (mkHandle (s.acctPool d.val a.toNat) c) ∧ t.reg (aBpmCmd d.val) = 0x80000000) ∧
  (∀ (d : PDie) (c o : Nat) (b : Buf) (s : State), c = hCell (s.reg (aBpmHandle d.val)).toNat → o = s.rf (aBpmOwner d.val) 13 0 →
    s.freeCheck d.val (hPool (s.reg (aBpmHandle d.val)).toNat) c = 0 → s.buf? d.val c = some b → b.next = none →
    (∃ t, exec (.free d .reg) s = .next t ∧ t.buf? d.val c = none ∧ (∀ j, j ≠ c → t.buf? d.val j = s.buf? d.val j) ∧
      t.reg (aBpmCmd d.val) = 0x80000000) ∧
    (s.sweeping d.val o = false → ∃ t, exec (.retag d .reg) s = .next t ∧ t = { s with regs := t.regs, bufs := t.bufs, bufBad := t.bufBad } ∧
      t.buf? d.val c = some { b with tag := BitVec.ofNat 14 o } ∧ (∀ j, j ≠ c → t.buf? d.val j = s.buf? d.val j) ∧
      t.reg (aBpmCmd d.val) = 0x80000000)) ∧
  (∀ (d : PDie) (n : Fin 4) (a : BitVec 8) (e w h o : Nat) (s : State), s.ringHead d.val (4 + n.val) = some e → (∀ m, m < n.val → s.ringHead d.val (4 + m) = none) →
    (s.dramRead e 16).2.1 = false →
    w = leAt (s.dramRead e 16).1 0 4 → h = leAt (s.dramRead e 16).1 8 4 → o = leAt (s.dramRead e 16).1 12 4 % 2 ^ 14 →
    (w / 2 ^ 28 = 1 → exec (.alloc d (.ring n) a) s =
      .next (((s.dramRead e 16).2.2.bpmAlloc d.val (w / 2 ^ 20 % 256) o).2.2.ringDone d.val (4 + n.val) e
        (if ((s.dramRead e 16).2.2.bpmAlloc d.val (w / 2 ^ 20 % 256) o).1 = 0
          then [0x80000000, ((s.dramRead e 16).2.2.bpmAlloc d.val (w / 2 ^ 20 % 256) o).2.1]
          else [0x80000000 + ((s.dramRead e 16).2.2.bpmAlloc d.val (w / 2 ^ 20 % 256) o).1 * 2 ^ 28]))) ∧
    (w / 2 ^ 28 = 2 → exec (.free d (.ring n)) s =
      .next (((s.dramRead e 16).2.2.bpmFree d.val h o).2.ringDone d.val (4 + n.val) e
        [0x80000000 + ((s.dramRead e 16).2.2.bpmFree d.val h o).1 * 2 ^ 28])) ∧
    (w / 2 ^ 28 = 3 → exec (.retag d (.ring n)) s =
      .next (((s.dramRead e 16).2.2.bpmRetag d.val h o).2.ringDone d.val (4 + n.val) e
        [0x80000000 + ((s.dramRead e 16).2.2.bpmRetag d.val h o).1 * 2 ^ 28]))) ∧
  (∀ (d : PDie) (n : Fin 4) (b : List Byte) (s : State), s.ringOn d.val (4 + n.val) = true →
    s.dramRange (s.ringBase d.val (4 + n.val)) 8 = true → (∀ m : Fin 4, m ≠ n → s.ringOn d.val (4 + m.val) = false) →
    s.dramRead (s.ringBase d.val (4 + n.val)) 4 = (b, false, s) → leNat b % s.ringSize d.val (4 + n.val) = (s.ringAt d.val (4 + n.val)).1 →
    ∃ t, exec (.bpmRingPoll d) s = .next t ∧ t = { s with pdies := t.pdies } ∧
      t.ringAt d.val (4 + n.val) = ((s.ringAt d.val (4 + n.val)).1, leNat b % s.ringSize d.val (4 + n.val)))

/-- R153, R360, R363, R364, R369, R373: pools, the Till, sweeps and the repeat of XOFF. -/
def Obligations.PoolCommandsComplete : Prop :=
  (∀ (d : PDie) (p : Fin 64) (w : Word) (s : State), s.poolEn d.val p.val = false → (s.writeReg (aPool d.val p.val 0) w).poolEn d.val p.val = true →
    (s.writeReg (aPool d.val p.val 0) w).poolLayoutOk d.val p.val = true → s.lvlWas.before s.fab (d.val * 64 + p.val) = none →
    ∃ t u, u = s.writeReg (aPool d.val p.val 0) w ∧ exec (.poolEnable d p w) s = .next t ∧
      t = { u with regs := t.regs, hw := t.hw, arrived := t.arrived, out := t.out, fmgq := t.fmgq, pools := t.pools, lvlWas := t.lvlWas,
                   xoffAt := t.xoffAt, pktMem := t.pktMem, dram := t.dram, linkErr := t.linkErr, draw := t.draw } ∧
      t.pool d.val p.val = { Pool.empty with
        ring := [(u.poolBase d.val p.val, u.poolSize d.val p.val)], levels := (t.pool d.val p.val).levels,
        readyAt := some (u.now + 16 * (if u.poolDram d.val p.val then (u.poolSize d.val p.val + 7) / 8 + 2304
                                       else (u.poolSize d.val p.val + 15) / 16 + 64)) } ∧
      (∀ i, i < 4 → t.atLevel d.val p.val i = decide (u.poolThr d.val p.val i ≤ u.shared d.val p.val)) ∧
      (u.poolDram d.val p.val = false → ∀ i, i < u.poolSize d.val p.val →
        t.pktMem.read (arrPkt d.val) (u.ringSlot d.val p.val i) 4 = leBytes 4 (u.poolBase d.val p.val + u.poolCells d.val p.val * i)) ∧
      ∀ q, q ≠ p.val → q < 64 → t.pool d.val q = u.pool d.val q) ∧
  (∀ (d : PDie) (p : Fin 64) (k n : Nat) (s : State), (s.pool d.val p.val).readyAt = some k → s.poolDram d.val p.val = false →
    n = (ringTake (s.poolCells d.val p.val) 448 (s.pool d.val p.val).ring).1.length →
    (∀ i, i < n → s.pktMem.code (arrPkt d.val) (s.ringSlot d.val p.val ((s.pool d.val p.val).head + i) / 8) = 0) →
    ∃ t, exec (.poolReady d p) s = .next t ∧ t = { s with now := max s.now k, pools := t.pools } ∧
      (t.pool d.val p.val).ready = true ∧ (t.pool d.val p.val).readyAt = none ∧
      (t.pool d.val p.val).till = (s.pool d.val p.val).till ++ (List.range n).map (fun i =>
        leNat (s.pktMem.read (arrPkt d.val) (s.ringSlot d.val p.val ((s.pool d.val p.val).head + i)) 4)) ∧
      (t.pool d.val p.val).ring = (ringTake (s.poolCells d.val p.val) 448 (s.pool d.val p.val).ring).2) ∧
  (∀ (d : PDie) (p : Fin 64) (k n : Nat) (ks : List Nat) (s : State), (s.pool d.val p.val).refills = k :: ks → s.poolDram d.val p.val = false →
    (s.pool d.val p.val).till.length ≤ 448 → n = (ringTake (s.poolCells d.val p.val) 64 (s.pool d.val p.val).ring).1.length →
    (∀ i, i < n → s.pktMem.code (arrPkt d.val) (s.ringSlot d.val p.val ((s.pool d.val p.val).head + i) / 8) = 0) →
    ∃ t, exec (.tillRefill d p) s = .next t ∧ t = { s with now := max s.now k, pools := t.pools } ∧
      (t.pool d.val p.val).till = (s.pool d.val p.val).till ++ (List.range n).map (fun i =>
        leNat (s.pktMem.read (arrPkt d.val) (s.ringSlot d.val p.val ((s.pool d.val p.val).head + i)) 4)) ∧
      (t.pool d.val p.val).ring = (ringTake (s.poolCells d.val p.val) 64 (s.pool d.val p.val).ring).2) ∧
  (∀ (d : PDie) (p : Fin 64) (s : State), 448 < (s.pool d.val p.val).till.length →
    ∃ t, exec (.tillSpill d p) s = .next t ∧
      t = { s with regs := t.regs, hw := t.hw, arrived := t.arrived, out := t.out, fmgq := t.fmgq, pools := t.pools, pktMem := t.pktMem,
                   dram := t.dram, linkErr := t.linkErr, draw := t.draw } ∧
      (s.poolDram d.val p.val = false → t = { s with pools := t.pools, pktMem := t.pktMem }) ∧
      (t.pool d.val p.val).till = (s.pool d.val p.val).till.take ((s.pool d.val p.val).till.length - 64)) ∧
  (∀ (d : PDie) (o : OwnerId) (s : State), (s.pd d.val).sweeps.length < 8 →
    ∃ t, exec (.sweepRequest d o) s = .next t ∧ t = { s with regs := t.regs, pdies := t.pdies } ∧
      (t.pd d.val).sweeps = (s.pd d.val).sweeps ++ [(o.toNat, s.rf (ra (bpmPage d.val) 0x118) 13 0)] ∧
      t.rf (aSweep d.val) 13 0 = o.toNat) ∧
  (∀ (d : PDie) (o m : Nat) (r : List (Nat × Nat)) (s : State), (s.pd d.val).sweep = none → (s.pd d.val).sweeps = (o, m) :: r →
    ∃ t, exec (.sweepStart d) s = .next t ∧ t = { s with pdies := t.pdies } ∧ (t.pd d.val).sweeps = r ∧
      (t.pd d.val).sweep = some (o, m, s.now + 49152 * 16)) ∧
  (∀ (d : PDie) (o m k : Nat) (s : State), (s.pd d.val).sweep = some (o, m, k) →
    ∃ t, exec (.sweepDone d) s = .next t ∧ (t.pd d.val).sweep = none ∧ t.now = max s.now k ∧
      (∀ (c : Nat) (b : Buf), c < 2 ^ 18 → s.buf? d.val c = some b → s.linkBad d.val c = false → b.tag.toNat &&& m = o &&& m →
        t.buf? d.val c = none) ∧
      (tSorted s.bufs = true → ∀ (c : Nat) (b : Buf), c < 2 ^ 18 → s.buf? d.val c = some b → b.tag.toNat &&& m ≠ o &&& m → t.buf? d.val c = some b) ∧
      t.rb (aSweep d.val) 29 = true) ∧
  (∀ (d : PDie) (p : Fin 64) (k i : Nat) (s : State), s.pausePorts d.val p.val = [i] → tFind s.xoffAt (d.val * 64 + i) = some k →
    s.atLevel d.val p.val 1 = true →
    ∃ t, exec (.pfcXoffRepeat d p) s = .next t ∧ t = { s with now := max s.now k, out := t.out, xoffAt := t.xoffAt } ∧
      tFind t.xoffAt (d.val * 64 + i) = some (k + s.bitTicks d.val i (256 * s.af (aPool d.val p.val 0) 15 0)) ∧
      (s.af (aPool d.val p.val 0) 23 16 ≠ 0 → ∃ q, t.out = .pfc (d.val * 64 + i) (s.af (aPool d.val p.val 0) 23 16) q :: s.out)) ∧
  (∀ (t : ThreadId) (s : State), (s.th t.val).st = .resetting → s.pkt t.val = true →
    ∃ u, exec (.threadResetDone t) s = .next u ∧ u = { s with thr := u.thr } ∧ (u.th t.val).st = .idle ∧
      (u.th t.val).cause = (s.th t.val).cause ∧ (u.th t.val).w = [] ∧ ∀ j, j ≠ t.val → u.th j = s.th j) ∧
  (∀ (t : ThreadId) (s : State), (s.th t.val).st = .resetting → s.pkt t.val = false →
    ∃ u, exec (.threadResetDone t) s = .next u ∧ (u.th t.val).st = .idle ∧
      ∀ d : PDie, (u.pd d.val).sweeps = (s.pd d.val).sweeps ++ [((ownerOf t.val).toNat, 0x3FFF)])

/-- R88: a write to a guard stores whether its value is not zero; reading a guard gives 0 or 1. -/
def Obligations.GuardsHoldWhetherTheValueIsNotZero : Prop :=
  (∀ (t : ThreadId) (w : IssueWord) (n : Fin 8) (v : Word) (s : State), s.runs t.val w → s.trapFree t.val w →
    s.wordEffects t.val w = [{ dst := 0x020 + n.val, x := 0, v := v }] →
    ∃ u, exec (.move t w) s = .next u ∧
      ∀ i : Fin 8, (u.th t.val).p.toNat.testBit i.val = if i = n then decide (v ≠ 0) else (s.wordStart t.val).p.toNat.testBit i.val) ∧
  (∀ (t c : Nat) (n : Fin 8) (x : Thread) (s : State), s.source t c x (0x020 + n.val) = if x.p.toNat.testBit n.val then 1 else 0)

/-- R110, R115 to R128: an arithmetic, field, compare or checksum trigger writes its result and the flags that the rules name, and
nothing else but the moves of its word. -/
def Obligations.ArithmeticCommandsComplete : Prop :=
  (∀ (t : ThreadId) (f : MoveForm) (ib : Bool) (x : BitVec 4) (v : Word) (s : State) (w : IssueWord) (r : AluOut),
    w = formWord f (if ib then 0x051 else 0x041) x.toNat → s.fires t.val w { dst := if ib then 0x051 else 0x041, x := x.toNat, v := v } →
    r = aluOp x.toNat v ((s.wordRegs t.val w).opv (if ib then 0x050 else 0x040)) (s.wordStart t.val).carry →
    ∃ u, exec (.aluOp t f ib x) s = .next u ∧ s.wordOnly t.val w u ∧
      (u.th t.val).pend = (s.wordStart t.val).pend ++ [{ at_ := s.slotOf t.val + 8, sock := if ib then 0x050 else 0x040, value := r.r }] ∧
      (u.th t.val).carry = r.carry.getD (s.wordStart t.val).carry ∧ (u.th t.val).ov = ((s.wordStart t.val).ov || r.ov) ∧
      (u.th t.val).dz = (s.wordStart t.val).dz) ∧
  (∀ (t : ThreadId) (f : MoveForm) (x : BitVec 4) (v : Word) (s : State) (w : IssueWord), w = formWord f 0x061 x.toNat →
    s.fires t.val w { dst := 0x061, x := x.toNat, v := v } →
    ∃ u, exec (.bfOp t f x) s = .next u ∧ s.wordOnly t.val w u ∧
      (u.th t.val).pend = (s.wordStart t.val).pend ++ [{ at_ := s.slotOf t.val + 8, sock := 0x060, value := bfOp x.toNat v ((s.wordRegs t.val w).opv 0x060) ((s.wordRegs t.val w).opv 0x062) }] ∧
      (u.th t.val).carry = (s.wordStart t.val).carry ∧ (u.th t.val).ov = (s.wordStart t.val).ov ∧ (u.th t.val).dz = (s.wordStart t.val).dz) ∧
  (∀ (t : ThreadId) (f : MoveForm) (x : BitVec 4) (v : Word) (s : State) (w : IssueWord) (r : Word × Word × Bool),
    w = formWord f 0x071 x.toNat → s.fires t.val w { dst := 0x071, x := x.toNat, v := v } →
    r = mulOp x.toNat v ((s.wordRegs t.val w).opv 0x070) →
    ∃ u, exec (.muOp t f x) s = .next u ∧ s.wordOnly t.val w u ∧
      (u.th t.val).pend = (s.wordStart t.val).pend ++ [{ at_ := s.slotOf t.val + 8, sock := 0x070, value := r.1 },
        { at_ := s.slotOf t.val + 8, sock := 0x071, value := r.2.1 }] ∧
      (u.th t.val).carry = (s.wordStart t.val).carry ∧ (u.th t.val).ov = ((s.wordStart t.val).ov || r.2.2)) ∧
  (∀ (t : ThreadId) (f : MoveForm) (x : BitVec 4) (v : Word) (s : State) (w : IssueWord) (r : Word × Word × Bool × Bool),
    w = formWord f 0x081 x.toNat → s.fires t.val w { dst := 0x081, x := x.toNat, v := v } →
    r = divOp x.toNat v ((s.wordRegs t.val w).opv 0x080) →
    ∃ u, exec (.dvOp t f x) s = .next u ∧ s.wordOnly t.val w u ∧
      (u.th t.val).pend = (s.wordStart t.val).pend ++ [{ at_ := s.slotOf t.val + 24, sock := 0x080, value := r.1 },
        { at_ := s.slotOf t.val + 24, sock := 0x081, value := r.2.1 }] ∧
      (u.th t.val).ov = ((s.wordStart t.val).ov || r.2.2.1) ∧ (u.th t.val).dz = ((s.wordStart t.val).dz || r.2.2.2)) ∧
  (∀ (t : ThreadId) (f : MoveForm) (x : BitVec 4) (v : Word) (s : State) (w : IssueWord), w = formWord f 0x092 x.toNat →
    s.fires t.val w { dst := 0x092, x := x.toNat, v := v } →
    ∃ u, exec (.ckOp t f x) s = .next u ∧ s.wordOnly t.val w u ∧
      (u.th t.val).pend = (s.wordStart t.val).pend ++ [{ at_ := s.slotOf t.val + 8, sock := 0x090, value := ckOp x.toNat v ((s.wordRegs t.val w).opv 0x090) ((s.wordRegs t.val w).opv 0x091) }]) ∧
  (∀ (t : ThreadId) (f : MoveForm) (p : Fin 8) (x : BitVec 4) (v : Word) (s : State) (w : IssueWord),
    w = formWord f (0x0D8 + p.val) x.toNat → s.fires t.val w { dst := 0x0D8 + p.val, x := x.toNat, v := v } →
    ∃ u, exec (.guCompare t f p x) s = .next u ∧ s.wordOnly t.val w u ∧ (u.th t.val).pend = (s.wordStart t.val).pend ∧
      (u.th t.val).p.getLsbD p.val = guOp x.toNat v ((s.wordRegs t.val w).opv 0x0D0) ∧
      ∀ q : Fin 8, q ≠ p → (u.th t.val).p.getLsbD q.val = (s.wordRegs t.val w).p.getLsbD q.val) ∧
  (∀ (t : ThreadId) (f : MoveForm) (v : Word) (s : State) (w : IssueWord), w = formWord f 0x3B2 0 →
    s.fires t.val w { dst := 0x3B2, x := 0, v := v } →
    ∃ u, exec (.thFclr t f) s = .next u ∧ s.wordOnly t.val w u ∧ (u.th t.val).ov = ((s.wordStart t.val).ov && !bit v 1) ∧
      (u.th t.val).dz = ((s.wordStart t.val).dz && !bit v 2) ∧ (u.th t.val).carry = (s.wordStart t.val).carry) ∧
  (∀ (t : ThreadId) (f : MoveForm) (v : Word) (s : State) (w : IssueWord), w = formWord f 0x3A1 0 →
    s.fires t.val w { dst := 0x3A1, x := 0, v := v } →
    ∃ u, exec (.sbClr t f) s = .next u ∧ s.wordOnly t.val w u ∧
      (u.th t.val).sb = (s.wordStart t.val).sb &&& ~~~ (BitVec.setWidth 16 v &&& ~~~ (s.wordStart t.val).sbOwned))

/-- R129 to R141, R184, R185: the record window, cluster memory, DM, table lookups and coprocessor triggers.
When an access reaches the cache is the model's choice (log entries 9 and 186). -/
def Obligations.MemoryTriggersComplete : Prop :=
  (∀ (t : ThreadId) (f : MoveForm) (x : Fin 4) (v : Word) (b : List Byte) (s u0 : State) (w : IssueWord), w = formWord f 0x0B1 x.val →
    s.fires t.val w { dst := 0x0B1, x := x.val, v := v } → u0 = s.wordDone t.val w →
    u0.cmemRead (cluOf t.val) (recBase t.val (u0.th t.val).buf + v.toNat) (pwSize x.val) = (b, 0, u0) →
    ∃ u, exec (.pwLoad t f x) s = .next u ∧ u = { u0 with thr := u.thr } ∧ (∀ j, j ≠ t.val → u.th j = u0.th j) ∧
      u.th t.val = (u0.th t.val).result (s.slotOf t.val) 1 0x0B0 (nw (if x.val = 3 then leNat b else beNat b))) ∧
  (∀ (t : ThreadId) (f : MoveForm) (x : Fin 4) (v : Word) (s u0 : State) (w : IssueWord), w = formWord f 0x0B1 (4 + x.val) →
    s.fires t.val w { dst := 0x0B1, x := 4 + x.val, v := v } → u0 = s.wordDone t.val w →
    exec (.pwStore t f x) s = .next (u0.cmemPut (cluOf t.val) (recBase t.val (u0.th t.val).buf + v.toNat)
      (if x.val = 3 then leBytes 4 ((u0.th t.val).opv 0x0B0).toNat
       else beBytes (pwSize x.val) (((u0.th t.val).opv 0x0B0).toNat % 256 ^ pwSize x.val)))) ∧
  (∀ (t : ThreadId) (f : MoveForm) (x : Fin 5) (v : Word) (b : List Byte) (s u0 : State) (w : IssueWord), w = formWord f 0x0A1 x.val →
    s.fires t.val w { dst := 0x0A1, x := x.val, v := v } → u0 = s.wordDone t.val w → u0.zeroizing = false →
    (∀ a ∈ (u0.clu? (cluOf t.val)).acc, a.g ≤ u0.bankCycle t.val (bankPair v.toNat) (s.slotOf t.val)) →
    (∀ b ∈ (u0.clu? (cluOf t.val)).bacc, b.g < u0.bankCycle t.val (bankPair v.toNat) (s.slotOf t.val)) →
    (u0.clu? (cluOf t.val)).fill = none → u0.copsPull (cluOf t.val) = u0 →
    (∀ z : State, z.cmem = u0.cmem → z.cmemRead (cluOf t.val) v.toNat (lsSize x.val) = (b, 0, z)) →
    ∃ u, exec (.lsLoad t f x) s = .next u ∧ u = { u0 with thr := u.thr, clu := u.clu } ∧ (∀ j, j ≠ t.val → u.th j = u0.th j) ∧
      u.th t.val = (u0.th t.val).result (s.slotOf t.val) 2 0x0A0
        (match x.val with
          | 2 => iw (toSigned 8 (leNat b))
          | 4 => iw (toSigned 16 (leNat b))
          | _ => nw (leNat b))) ∧
  (∀ (t : ThreadId) (f : MoveForm) (x : Fin 3) (v : Word) (s u0 : State) (w : IssueWord), w = formWord f 0x0A1 (5 + x.val) →
    s.fires t.val w { dst := 0x0A1, x := 5 + x.val, v := v } → u0 = s.wordDone t.val w → u0.zeroizing = false →
    (∀ a ∈ (u0.clu? (cluOf t.val)).acc, a.g ≤ u0.bankCycle t.val (bankPair v.toNat) (s.slotOf t.val)) →
    (∀ b ∈ (u0.clu? (cluOf t.val)).bacc, b.g < u0.bankCycle t.val (bankPair v.toNat) (s.slotOf t.val)) →
    (u0.clu? (cluOf t.val)).fill = none → u0.copsPull (cluOf t.val) = u0 →
    u0.cmemMergeOk (cluOf t.val) v.toNat (lsSize (5 + x.val)) = true →
    ∃ u, exec (.lsStore t f x) s = .next u ∧ u = { u0 with cmem := u.cmem, clu := u.clu } ∧
      u.cmem = (u0.cmemPut (cluOf t.val) v.toNat (leBytes (lsSize (5 + x.val)) ((u0.th t.val).opv 0x0A0).toNat)).cmem) ∧
  (∀ (t : ThreadId) (f : MoveForm) (v : Word) (s u0 : State) (w : IssueWord), w = formWord f 0x0C0 0 →
    s.fires t.val w { dst := 0x0C0, x := 0, v := v } → u0 = s.wordDone t.val w → u0.pkt t.val = false →
    ∃ u, exec (.tbGet t f) s = .next u ∧ u = { u0 with thr := u.thr } ∧ (∀ j, j ≠ t.val → u.th j = u0.th j) ∧
      u.th t.val = { (u0.th t.val).sbStart 15 with tb := some { cnt := false, val := v } }) ∧
  (∀ (t : ThreadId) (f : MoveForm) (v : Word) (s u0 : State) (w : IssueWord), w = formWord f 0x0C0 1 →
    s.fires t.val w { dst := 0x0C0, x := 1, v := v } → u0 = s.wordDone t.val w → u0.pkt t.val = false →
    ∃ u, exec (.tbCnt t f) s = .next u ∧ u = { u0 with thr := u.thr } ∧ (∀ j, j ≠ t.val → u.th j = u0.th j) ∧
      u.th t.val = { (u0.th t.val).sbStart 15 with tb := some { cnt := true, val := v } }) ∧
  (∀ (t : ThreadId) (f : MoveForm) (v : Word) (g : Nat) (s u0 : State) (w : IssueWord), w = formWord f 0x0C0 0 →
    s.fires t.val w { dst := 0x0C0, x := 0, v := v } → u0 = s.wordDone t.val w → u0.pkt t.val = true →
    u0.tbGrant t.val (s.slotOf t.val) = some g → u0.polStatus (g / 4) (rgnOf t.val) (fld v 15 0) = 0 →
    ∃ u, exec (.tbGet t f) s = .next u ∧ u = { u0 with thr := u.thr, clu := u.clu } ∧ (∀ j, j ≠ t.val → u.th j = u0.th j) ∧
      u.th t.val = (u0.th t.val).tbTake (s.slotOf t.val) (u0.th t.val).polFail (u0.polWords (g / 4) (rgnOf t.val) (fld v 15 0), 0)) ∧
  (∀ (t : ThreadId) (f : MoveForm) (v : Word) (g : Nat) (s u0 : State) (w : IssueWord), w = formWord f 0x0C0 1 →
    s.fires t.val w { dst := 0x0C0, x := 1, v := v } → u0 = s.wordDone t.val w → u0.pkt t.val = true →
    u0.tbGrant t.val (s.slotOf t.val) = some g → u0.polStatus (g / 4) (rgnOf t.val) (fld v 15 0) = 0 →
    ∃ u, exec (.tbCnt t f) s = .next u ∧ u = { u0 with thr := u.thr, clu := u.clu, polCnt := u.polCnt, cntAdds := u.cntAdds } ∧ (∀ j, j ≠ t.val → u.th j = u0.th j) ∧
      u.th t.val = (u0.th t.val).tbTake (s.slotOf t.val) (u0.th t.val).polFail (u0.polWords (g / 4) (rgnOf t.val) (fld v 15 0), 0) ∧
      ∀ i, u.cntTotal i = if i = rgnOf t.val * 65536 + fld v 15 0 then cntPlus (u0.cntTotal i) (fld v 31 16) else u0.cntTotal i) ∧
  (∀ (t : ThreadId) (f : MoveForm) (sb : Fin 16) (v : Word) (k o : Nat) (l : List DmHit) (s u0 : State) (w : IssueWord), w = formWord f 0x0E1 sb.val →
    s.fires t.val w { dst := 0x0E1, x := sb.val, v := v } → u0 = s.wordDone t.val w → u0.dmDecode (cluOf t.val) v.toNat = .spm k o →
    u0.spmUe (cluOf t.val) k o = false → l = (u0.clu? (cluOf t.val)).dmSame (s.slotOf t.val) v.toNat →
    ∃ u, exec (.dmLd t f sb) s = .next u ∧ u = { u0 with thr := u.thr, clu := u.clu } ∧ (∀ j, j ≠ t.val → u.th j = u0.th j) ∧
      u.th t.val = { (u0.th t.val).sbStart sb.val with
        dm := (u0.th t.val).dm ++ [{ load := true, sb := sb.val, poison := false, due := s.slotOf t.val + 48, line := v.toNat / 64, around := false,
                                     value := dmSeen l (s.slotOf t.val) (rotRank 8 (t.val / 8) (s.slotOf t.val))
                                       ((l.head?.map (·.old)).getD (u0.spmLoad (cluOf t.val) k o)) }] }) ∧
  (∀ (t : ThreadId) (f : MoveForm) (sb : Fin 16) (v : Word) (a : Nat) (o : CdcOp) (s u0 : State) (w : IssueWord) (r : Word × Bool × Bool × State),
    w = formWord f 0x0E1 sb.val → s.fires t.val w { dst := 0x0E1, x := sb.val, v := v } → u0 = s.wordDone t.val w →
    u0.dmDecode (cluOf t.val) v.toNat = .mem a → r = u0.cdcLoad (cluOf t.val) v.toNat a →
    o = { thread := t.val, sb := sb.val, what := .load, addr := v.toNat, mem := a, was := (Arr.empty, Arr.empty), left := (Arr.empty, Arr.empty) } →
    (u0.turnOf (cluOf t.val) (s.slotOf t.val)).follows o = false →
    ∃ u d, exec (.dmLd t f sb) s = .next u ∧ (u.th t.val).dm = (r.2.2.2.th t.val).dm ++ [d] ∧ u.lines = r.2.2.2.lines ∧ u.dram = r.2.2.2.dram ∧
      d.load = true ∧ d.sb = sb.val ∧ d.value = r.1 ∧ d.poison = r.2.1 ∧ d.line = v.toNat / 64 ∧
      d.due = s.slotOf t.val + (if r.2.2.1 then 48 else 3200)) ∧
  (∀ (t : ThreadId) (f : MoveForm) (sb : Fin 16) (v last : Word) (k o : Nat) (l : List DmHit) (h : DmHit) (s u0 : State) (w : IssueWord),
    w = formWord f 0x0E2 sb.val → s.fires t.val w { dst := 0x0E2, x := sb.val, v := v } → u0 = s.wordDone t.val w →
    u0.dmDecode (cluOf t.val) v.toNat = .spm k o → l = (u0.clu? (cluOf t.val)).dmSame (s.slotOf t.val) v.toNat →
    h = { thread := t.val, sb := sb.val, addr := v.toNat, store := some ((u0.th t.val).opv 0x0E0),
          old := (l.head?.map (·.old)).getD (u0.dmPeek (cluOf t.val) v.toNat) } →
    last = dmSeen (l ++ [h]) (s.slotOf t.val) 8 h.old →
    ∃ u, exec (.dmSt t f sb) s = .next u ∧ u = { u0 with thr := u.thr, spm := u.spm, spmBad := u.spmBad, clu := u.clu } ∧
      u.spm = (u0.spmStore (cluOf t.val) k o last).spm ∧ u.spmUe (cluOf t.val) k o = false ∧
      (∀ j, j ≠ t.val → (∀ e ∈ l, e.thread ≠ j) → u.th j = u0.th j) ∧
      ((∀ e ∈ l, e.thread ≠ t.val) → u.th t.val = { (u0.th t.val).sbStart sb.val with
        dm := (u0.th t.val).dm ++ [{ load := false, sb := sb.val, value := 0, poison := false, due := s.slotOf t.val + 48, line := v.toNat / 64,
                                     around := false }] })) ∧
  (∀ (t : ThreadId) (f : MoveForm) (sb : Fin 16) (v : Word) (a : Nat) (o : CdcOp) (s u0 : State) (w : IssueWord) (r : Bool × Bool × State),
    w = formWord f 0x0E2 sb.val → s.fires t.val w { dst := 0x0E2, x := sb.val, v := v } → u0 = s.wordDone t.val w →
    u0.dmDecode (cluOf t.val) v.toNat = .mem a → r = u0.cdcStore (cluOf t.val) v.toNat a ((u0.th t.val).opv 0x0E0) →
    o = { thread := t.val, sb := sb.val, what := .store ((u0.th t.val).opv 0x0E0), addr := v.toNat, mem := a, was := (Arr.empty, Arr.empty), left := (Arr.empty, Arr.empty) } →
    (u0.turnOf (cluOf t.val) (s.slotOf t.val)).follows o = false →
    ∃ u d, exec (.dmSt t f sb) s = .next u ∧ (u.th t.val).dm = (r.2.2.th t.val).dm ++ [d] ∧ u.lines = r.2.2.lines ∧ u.dram = r.2.2.dram ∧
      d.load = false ∧ d.sb = sb.val ∧ d.line = v.toNat / 64 ∧ d.around = !r.1 ∧ d.poison = !r.2.1 ∧
      d.due = s.slotOf t.val + (if r.1 then 48 else 400)) ∧
  (∀ (t : ThreadId) (f : MoveForm) (st : Bool) (sb : Fin 16) (v : Word) (a : Nat) (o : CdcOp) (s u0 : State) (w : IssueWord)
    (q : (Word × Bool × Bool) × State),
    w = formWord f (if st then 0x0E2 else 0x0E1) sb.val → s.fires t.val w { dst := if st then 0x0E2 else 0x0E1, x := sb.val, v := v } →
    u0 = s.wordDone t.val w → u0.dmDecode (cluOf t.val) v.toNat = .mem a →
    o = { thread := t.val, sb := sb.val, what := if st then .store ((u0.th t.val).opv 0x0E0) else .load, addr := v.toNat, mem := a, was := (Arr.empty, Arr.empty), left := (Arr.empty, Arr.empty) } →
    (u0.turnOf (cluOf t.val) (s.slotOf t.val)).follows o = true →
    q = (u0.cdcDo (cluOf t.val) o).2.turnAgain (cluOf t.val) (u0.turnWith (u0.turnOf (cluOf t.val) (s.slotOf t.val)) o) t.val sb.val →
    ∃ u, exec (if st then .dmSt t f sb else .dmLd t f sb) s = .next u ∧ u.lines = q.2.lines ∧ u.dram = q.2.dram ∧
      (u.th t.val).dm = (q.2.th t.val).dm ++ [o.dmOp (s.slotOf t.val) q.1] ∧ ∀ j, j ≠ t.val → (u.th j).dm = (q.2.th j).dm) ∧
  (∀ (t : ThreadId) (f : MoveForm) (n : Fin 4) (sb : Fin 16) (v : Word) (s u0 : State) (w : IssueWord),
    w = formWord f (0x300 + 16 * n.val) sb.val → s.fires t.val w { dst := 0x300 + 16 * n.val, x := sb.val, v := v } → u0 = s.wordDone t.val w →
    ∃ u, exec (.cpGo t f n sb) s = .next u ∧
      u = { u0 with thr := u.thr, cops := u.cops } ∧ u.th t.val = (u0.th t.val).sbStart sb.val ∧ (∀ j, j ≠ t.val → u.th j = u0.th j) ∧
      u.cop (cluOf t.val) n.val = { u0.cop (cluOf t.val) n.val with
        queue := rotInsert (fun q => 8 * q.at_ + rotRank 8 (q.thread / 8) q.at_) (u0.cop (cluOf t.val) n.val).queue
          { thread := t.val, sb := sb.val, ptr := v.toNat, kind := 0, at_ := s.slotOf t.val + 32 } }) ∧
  (∀ (t : ThreadId) (f : MoveForm) (n : Fin 4) (sb : Fin 16) (v : Word) (s u0 : State) (w : IssueWord),
    w = formWord f (0x300 + 16 * n.val + 1) sb.val → s.fires t.val w { dst := 0x300 + 16 * n.val + 1, x := sb.val, v := v } → u0 = s.wordDone t.val w →
    ∃ u, exec (.cpCsave t f n sb) s = .next u ∧
      u = { u0 with thr := u.thr, cops := u.cops } ∧ u.th t.val = (u0.th t.val).sbStart sb.val ∧ (∀ j, j ≠ t.val → u.th j = u0.th j) ∧
      u.cop (cluOf t.val) n.val = { u0.cop (cluOf t.val) n.val with
        queue := rotInsert (fun q => 8 * q.at_ + rotRank 8 (q.thread / 8) q.at_) (u0.cop (cluOf t.val) n.val).queue
          { thread := t.val, sb := sb.val, ptr := v.toNat, kind := 1, at_ := s.slotOf t.val + 32 } }) ∧
  (∀ (t : ThreadId) (f : MoveForm) (n : Fin 4) (sb : Fin 16) (v : Word) (s u0 : State) (w : IssueWord),
    w = formWord f (0x300 + 16 * n.val + 2) sb.val → s.fires t.val w { dst := 0x300 + 16 * n.val + 2, x := sb.val, v := v } → u0 = s.wordDone t.val w →
    ∃ u, exec (.cpCrest t f n sb) s = .next u ∧
      u = { u0 with thr := u.thr, cops := u.cops } ∧ u.th t.val = (u0.th t.val).sbStart sb.val ∧ (∀ j, j ≠ t.val → u.th j = u0.th j) ∧
      u.cop (cluOf t.val) n.val = { u0.cop (cluOf t.val) n.val with
        queue := rotInsert (fun q => 8 * q.at_ + rotRank 8 (q.thread / 8) q.at_) (u0.cop (cluOf t.val) n.val).queue
          { thread := t.val, sb := sb.val, ptr := v.toNat, kind := 2, at_ := s.slotOf t.val + 32 } })

/-- R45, R96 to R101, R142, R148, R149: jumps, calls, returns and the end of a program act as the rules say; CU.trap takes the trap SWTRAP
after its word in task mode: the address behind the word is kept in CU.lr, the handler runs at TH.vec, and TH.cause tells the slot, the code
and the cause 0x14. -/
def Obligations.ControlMovesComplete : Prop :=
  (∀ (t : ThreadId) (f : MoveForm) (rel : Bool) (v : Word) (s : State) (w : IssueWord), w = formWord f 0x380 (b2n rel) →
    s.fires t.val w { dst := 0x380, x := b2n rel, v := v } →
    ∃ (u : State) (i : Nat), exec (.cuJmp t f rel) s = .next u ∧ (i : Int) = (if rel then ((s.th t.val).pc : Int) + v.toInt else v.toNat) ∧
      (s.wordDone t.val w).thOnly t.val { (s.wordDone t.val w).th t.val with pc := i } u) ∧
  (∀ (t : ThreadId) (f : MoveForm) (rel : Bool) (v : Word) (s : State) (w : IssueWord), w = formWord f 0x381 (b2n rel) →
    s.fires t.val w { dst := 0x381, x := b2n rel, v := v } →
    ∃ (u : State) (i : Nat), exec (.cuCall t f rel) s = .next u ∧ (i : Int) = (if rel then ((s.th t.val).pc : Int) + v.toInt else v.toNat) ∧
      (s.wordDone t.val w).thOnly t.val { (s.wordDone t.val w).th t.val with pc := i, lr := nw ((s.th t.val).pc + 1) } u) ∧
  (∀ (t : ThreadId) (f : MoveForm) (v : Word) (s : State) (w : IssueWord), w = formWord f 0x382 0 →
    s.fires t.val w { dst := 0x382, x := 0, v := v } →
    ∃ u, exec (.cuRet t f) s = .next u ∧
      (s.wordDone t.val w).thOnly t.val { (s.wordDone t.val w).th t.val with pc := (s.wordStart t.val).lr.toNat, inTrap := false } u) ∧
  (∀ (t : ThreadId) (f : MoveForm) (v : Word) (s : State) (w : IssueWord), w = formWord f 0x383 0 →
    s.fires t.val w { dst := 0x383, x := 0, v := v } →
    ∃ u, exec (.cuEnd t f) s = .next u ∧
      (s.wordDone t.val w).thOnly t.val { (s.wordDone t.val w).th t.val with ended := s.pkt t.val || ((s.wordDone t.val w).th t.val).ended } u) ∧
  (∀ (t : ThreadId) (f : MoveForm) (v : Word) (l r : List Eff) (s : State) (w : IssueWord), w = formWord f 0x385 0 → s.runs t.val w →
    s.wordEffects t.val w = l ++ { dst := 0x385, x := 0, v := v } :: r → (∀ y ∈ l ++ r, isTrigger y.dst = false) →
    s.pkt t.val = false → (s.th t.val).pc ≠ 16383 → (s.wordRegs t.val w).vec ≠ 0 → (s.th t.val).inTrap = false →
    ∃ u, exec (.cuTrap t f) s = .next u ∧ (u.th t.val).pc = (s.wordRegs t.val w).vec.toNat ∧ (u.th t.val).lr = nw ((s.th t.val).pc + 1) ∧
      (u.th t.val).inTrap = true ∧ (u.th t.val).st = .running ∧
      (u.th t.val).cause = nw (s.slotOf t.val % 4096 / 8 * 65536 + v.toNat % 256 * 256 + 0x14) ∧
      (u.th t.val).w = (s.wordRegs t.val w).w)

/-- R44, R45, R87, R94, R96 to R101, R111, R112, R591: words, prefixes, the slots of a repeat, the span marker and an overrun. -/
def Obligations.IssueCommandsComplete : Prop :=
  (∀ (t : ThreadId) (w : IssueWord) (s : State), s.runs t.val w → s.trapFree t.val w → (∀ e ∈ s.wordEffects t.val w, isTrigger e.dst = false) →
    ∃ u, exec (.move t w) s = .next u ∧ s.wordOnly t.val w u ∧ (u.th t.val).pend = (s.wordStart t.val).pend ∧
      (u.th t.val).carry = (s.wordStart t.val).carry ∧ (u.th t.val).ov = (s.wordStart t.val).ov ∧ (u.th t.val).dz = (s.wordStart t.val).dz ∧
      (u.th t.val).p = (s.wordRegs t.val w).p ∧ (u.th t.val).pc = (s.th t.val).pc + 1) ∧
  (∀ (t : ThreadId) (w : IssueWord) (d : Nat) (s : State), s.issues t.val w → illegal w (s.pkt t.val) false false = some d →
    exec (.move t w) s = .next ((s.atSlot t.val (s.slotOf t.val)).trap t.val (s.slotOf t.val) 0x01 d (s.th t.val).pc false)) ∧
  (∀ (t : ThreadId) (g : BitVec 4) (n : BitVec 16) (s : State) (w : IssueWord), w = longWord g.toNat 0 0 1 n.toNat →
    s.issues t.val w → s.legal t.val w → (s.th t.val).pc ≠ 16383 →
    ∃ u, exec (.repeat_ t g n) s = .next u ∧
      (s.atSlot t.val (s.slotOf t.val)).thOnly t.val { s.wordStart t.val with
        pc := (s.th t.val).pc + 1,
        rep := some { live := if guardTrue g.toNat (s.wordStart t.val).p then (if n = 0 then 65536 else n.toNat) else 0,
                      total := if n = 0 then 65536 else n.toNat, capped := false, body := (s.th t.val).pc + 1, index := 0, first := true } } u) ∧
  (∀ (t : ThreadId) (g : BitVec 4) (cap : BitVec 16) (k : Nat) (s : State) (w : IssueWord), w = longWord g.toNat 0 0 2 cap.toNat →
    s.issues t.val w → s.legal t.val w → (s.th t.val).pc ≠ 16383 → k = (if (s.wordStart t.val).rc = 0 then 65536 else (s.wordStart t.val).rc.toNat) →
    k ≤ 65536 → guardTrue g.toNat (s.wordStart t.val).p = true → (cap ≠ 0 → k ≤ cap.toNat) →
    ∃ u, exec (.repeatRc t g cap) s = .next u ∧
      (s.atSlot t.val (s.slotOf t.val)).thOnly t.val { s.wordStart t.val with
        pc := (s.th t.val).pc + 1,
        rep := some { live := k, total := if cap = 0 then k else cap.toNat, capped := decide (cap ≠ 0), body := (s.th t.val).pc + 1, index := 0, first := true } } u) ∧
  (∀ (t : ThreadId) (r : Rep) (w : IssueWord) (s : State), (s.th t.val).rep = some r → s.canIssue t.val = true →
    s.fetchWord (cluOf t.val) r.body = (w, 0, s) → (s.th t.val).lateTrap = [] → r.live ≤ r.index → r.body ≠ 16383 →
    illegal w (s.pkt t.val) r.first false = none → unpopulated w = false →
    ∃ u, exec (.repeatBodyIssue t) s = .next u ∧
      (s.atSlot t.val (s.slotOf t.val)).thOnly t.val { s.wordStart t.val with
        pc := if r.total ≤ r.index + 1 then r.body + 1 else r.body,
        rep := if r.total ≤ r.index + 1 then none else some { r with index := r.index + 1, first := false } } u) ∧
  (∀ (t : ThreadId) (r : Rep) (w : IssueWord) (s v : State), (s.th t.val).rep = some r → s.canIssue t.val = true →
    s.fetchWord (cluOf t.val) r.body = (w, 0, s) → (s.th t.val).lateTrap = [] → r.index < r.live →
    illegal w (s.pkt t.val) r.first false = none → unpopulated w = false → (wordKind w).moves ≠ [] →
    v = (s.atSlot t.val (s.slotOf t.val)).issueMoves t.val (s.slotOf t.val) r.body (if r.total ≤ r.index + 1 then r.body + 1 else r.body) (wordKind w).moves →
    (v.th t.val).rep = some r →
    ∃ u, exec (.repeatBodyIssue t) s = .next u ∧
      v.thOnly t.val { v.th t.val with rep := if r.total ≤ r.index + 1 then none else some { r with index := r.index + 1, first := false } } u) ∧
  (∀ (t : ThreadId) (w : IssueWord) (s : State), s.canIssue t.val = true → s.pkt t.val = true → (s.th t.val).nextCyc = (s.th t.val).t0 →
    s.fetchWord (cluOf t.val) (s.clu? (cluOf t.val)).entry = (w, 0, s) → illegal w true false true = none → wordKind w = .span s.span →
    (s.clu? (cluOf t.val)).entry ≠ 16383 →
    ∃ u, exec (.spanMarker t) s = .next u ∧
      (s.upToCyc (s.th t.val).t0).thOnly t.val { Thread.fresh with
        st := .running, stopped := (s.th t.val).stopped, buf := (s.th t.val).buf, t0 := (s.th t.val).t0, nextCyc := (s.th t.val).t0 + 8,
        pc := (s.clu? (cluOf t.val)).entry + 1, ev := (s.th t.val).ev,
        tbTick := (s.th t.val).tbTick } u) ∧
  (∀ (t : ThreadId) (s : State), s.pkt t.val = true → (s.th t.val).st = .running → (s.th t.val).ended = false → (s.th t.val).stopped = false →
    1 ≤ s.span → (s.th t.val).t0 + 8 * s.span ≤ (s.th t.val).nextCyc →
    ∃ u, exec (.spanOverrun t) s = .next u ∧ (u.th t.val).st = .resetting ∧ (u.th t.val).cause = nw ((s.span - 1) * 65536 + 0x04) ∧
      ∀ f ∈ s.flights, f.thread = t.val → f.buf = (s.th t.val).buf → f.delivered = true → f.returned = none → f.cause = 0 →
        { f with cause := 0x04 } ∈ u.flights)

/-- R163 to R165, R168: the moves into LK.t take, try, await, arm and release a lock as the rules say. -/
def Obligations.LockMovesComplete : Prop :=
  (∀ (t : ThreadId) (f : MoveForm) (v : Word) (k : Nat × Nat) (s : State) (w : IssueWord), w = formWord f 0x0F0 0 →
    s.fires t.val w { dst := 0x0F0, x := 0, v := v } → lockName t.val v.toNat = some k →
    (∀ e, (s.lock (lockKey k.1 k.2)).turn = some e → e.cyc ≠ s.slotOf t.val) → (s.lock (lockKey k.1 k.2)).held = false →
    ∃ u, exec (.lkAcq t f) s = .next u ∧ u = { s.wordDone t.val w with thr := u.thr, locks := u.locks } ∧
      (∀ j, u.lock j = if j = lockKey k.1 k.2 then { s.lock (lockKey k.1 k.2) with held := true, owner := ownerOf t.val, abandoned := false, turn := (u.lock (lockKey k.1 k.2)).turn } else s.lock j) ∧
      u.th t.val = ((s.wordDone t.val w).th t.val).result (s.slotOf t.val) (if v.toNat < 1024 then 2 else 4) 0x0F0
        (if (s.lock (lockKey k.1 k.2)).abandoned then 2 else 0)) ∧
  (∀ (t : ThreadId) (f : MoveForm) (v : Word) (k : Nat × Nat) (s : State) (w : IssueWord), w = formWord f 0x0F0 0 →
    s.fires t.val w { dst := 0x0F0, x := 0, v := v } → lockName t.val v.toNat = some k →
    (∀ e, (s.lock (lockKey k.1 k.2)).turn = some e → e.cyc ≠ s.slotOf t.val) → (s.lock (lockKey k.1 k.2)).held = true →
    ∃ u, exec (.lkAcq t f) s = .next u ∧ u = { s.wordDone t.val w with thr := u.thr, locks := u.locks } ∧
      (∀ j, u.lock j = if j = lockKey k.1 k.2 then { s.lock (lockKey k.1 k.2) with waiters := (s.lock (lockKey k.1 k.2)).waiters ++ [t.val], turn := (u.lock (lockKey k.1 k.2)).turn }
        else s.lock j) ∧
      u.th t.val = { (s.wordDone t.val w).th t.val with st := .waitLock, waitObj := nw v.toNat, waitAt := some ((s.th t.val).pc, none) }) ∧
  (∀ (t : ThreadId) (f : MoveForm) (v : Word) (k : Nat × Nat) (s : State) (w : IssueWord), w = formWord f 0x0F0 1 →
    s.fires t.val w { dst := 0x0F0, x := 1, v := v } → lockName t.val v.toNat = some k →
    (∀ e, (s.lock (lockKey k.1 k.2)).turn = some e → e.cyc ≠ s.slotOf t.val) → (s.lock (lockKey k.1 k.2)).held = false →
    ∃ u, exec (.lkTry t f) s = .next u ∧ u = { s.wordDone t.val w with thr := u.thr, locks := u.locks } ∧
      (∀ j, u.lock j = if j = lockKey k.1 k.2 then { s.lock (lockKey k.1 k.2) with held := true, owner := ownerOf t.val, abandoned := false, turn := (u.lock (lockKey k.1 k.2)).turn } else s.lock j) ∧
      u.th t.val = ((s.wordDone t.val w).th t.val).result (s.slotOf t.val) (if v.toNat < 1024 then 2 else 4) 0x0F0
        (if (s.lock (lockKey k.1 k.2)).abandoned then 2 else 0)) ∧
  (∀ (t : ThreadId) (f : MoveForm) (v : Word) (k : Nat × Nat) (s : State) (w : IssueWord), w = formWord f 0x0F0 1 →
    s.fires t.val w { dst := 0x0F0, x := 1, v := v } → lockName t.val v.toNat = some k →
    (∀ e, (s.lock (lockKey k.1 k.2)).turn = some e → e.cyc ≠ s.slotOf t.val) → (s.lock (lockKey k.1 k.2)).held = true →
    ∃ u, exec (.lkTry t f) s = .next u ∧ u = { s.wordDone t.val w with thr := u.thr, locks := u.locks } ∧
      (∀ j, u.lock j = if j = lockKey k.1 k.2 then { s.lock (lockKey k.1 k.2) with turn := (u.lock (lockKey k.1 k.2)).turn } else s.lock j) ∧
      (∀ j, j ≠ t.val → u.th j = (s.wordDone t.val w).th j) ∧
      u.th t.val = ((s.wordDone t.val w).th t.val).result (s.slotOf t.val) (if v.toNat < 1024 then 2 else 4) 0x0F0
        (nw ((s.lock (lockKey k.1 k.2)).owner.toNat * 65536 + 1))) ∧
  (∀ (t : ThreadId) (f : MoveForm) (v : Word) (k : Nat × Nat) (s : State) (w : IssueWord), w = formWord f 0x0F0 2 →
    s.fires t.val w { dst := 0x0F0, x := 2, v := v } → lockName t.val v.toNat = some k →
    (∀ e, (s.lock (lockKey k.1 k.2)).turn = some e → e.cyc ≠ s.slotOf t.val) → (s.lock (lockKey k.1 k.2)).held = true →
    ∃ u, exec (.lkArm t f) s = .next u ∧ u = { s.wordDone t.val w with locks := u.locks } ∧
      (∀ j, u.lock j = if j = lockKey k.1 k.2 then { s.lock (lockKey k.1 k.2) with armed := (s.lock (lockKey k.1 k.2)).armed ++ [t.val], turn := (u.lock (lockKey k.1 k.2)).turn }
        else s.lock j)) ∧
  (∀ (t : ThreadId) (f : MoveForm) (v : Word) (k : Nat × Nat) (s : State) (w : IssueWord), w = formWord f 0x0F0 2 →
    s.fires t.val w { dst := 0x0F0, x := 2, v := v } → lockName t.val v.toNat = some k →
    (∀ e, (s.lock (lockKey k.1 k.2)).turn = some e → e.cyc ≠ s.slotOf t.val) → (s.lock (lockKey k.1 k.2)).held = false →
    ∃ u, exec (.lkArm t f) s = .next u ∧ u = { s.wordDone t.val w with thr := u.thr, locks := u.locks } ∧
      (∀ j, u.lock j = if j = lockKey k.1 k.2 then { s.lock (lockKey k.1 k.2) with turn := (u.lock (lockKey k.1 k.2)).turn } else s.lock j) ∧
      (∀ j, j ≠ t.val → u.th j = (s.wordDone t.val w).th j) ∧
      u.th t.val = { (s.wordDone t.val w).th t.val with ev := ((s.wordDone t.val w).th t.val).ev ||| 0x4000 }) ∧
  (∀ (t : ThreadId) (f : MoveForm) (v : Word) (k : Nat × Nat) (r : Nat) (rs : List Nat) (s : State) (w : IssueWord), w = formWord f 0x0F0 3 →
    s.fires t.val w { dst := 0x0F0, x := 3, v := v } → lockName t.val v.toNat = some k →
    (∀ e, (s.lock (lockKey k.1 k.2)).turn = some e → e.cyc ≠ s.slotOf t.val) → (s.lock (lockKey k.1 k.2)).held = true →
    (s.lock (lockKey k.1 k.2)).waiters = r :: rs → r ≠ t.val →
    ∃ u, exec (.lkRel t f) s = .next u ∧ u = { s.wordDone t.val w with thr := u.thr, locks := u.locks, clu := u.clu } ∧
      (∀ j, u.lock j = if j = lockKey k.1 k.2 then { s.lock (lockKey k.1 k.2) with owner := ownerOf r, waiters := rs, abandoned := false, turn := (u.lock (lockKey k.1 k.2)).turn }
        else s.lock j) ∧
      (u.th r).st = .running ∧ u.th t.val = (s.wordDone t.val w).th t.val ∧ ∀ j, j ≠ r → u.th j = (s.wordDone t.val w).th j) ∧
  (∀ (t : ThreadId) (f : MoveForm) (v : Word) (k : Nat × Nat) (s : State) (w : IssueWord), w = formWord f 0x0F0 3 →
    s.fires t.val w { dst := 0x0F0, x := 3, v := v } → lockName t.val v.toNat = some k →
    (∀ e, (s.lock (lockKey k.1 k.2)).turn = some e → e.cyc ≠ s.slotOf t.val) → (s.lock (lockKey k.1 k.2)).held = true →
    (s.lock (lockKey k.1 k.2)).waiters = [] → (s.lock (lockKey k.1 k.2)).armed = [] →
    ∃ u, exec (.lkRel t f) s = .next u ∧ u = { s.wordDone t.val w with locks := u.locks } ∧
      ∀ j, u.lock j = if j = lockKey k.1 k.2 then { s.lock (lockKey k.1 k.2) with held := false, turn := (u.lock (lockKey k.1 k.2)).turn } else s.lock j) ∧
  (∀ (t : ThreadId) (f : MoveForm) (v : Word) (k : Nat × Nat) (s : State) (w : IssueWord), w = formWord f 0x0F0 3 →
    s.fires t.val w { dst := 0x0F0, x := 3, v := v } → lockName t.val v.toNat = some k →
    (∀ e, (s.lock (lockKey k.1 k.2)).turn = some e → e.cyc ≠ s.slotOf t.val) → (s.lock (lockKey k.1 k.2)).held = false →
    ∃ u, exec (.lkRel t f) s = .next u ∧ u = { s.wordDone t.val w with regs := u.regs, hw := u.hw, locks := u.locks } ∧
      (∀ j, u.lock j = if j = lockKey k.1 k.2 then { s.lock (lockKey k.1 k.2) with turn := (u.lock (lockKey k.1 k.2)).turn } else s.lock j) ∧
      (u.rf (ra k.1 0x110) 15 0) = min 65535 (s.rf (ra k.1 0x110) 15 0 + 1) ∧ ∀ a, a ≠ ra k.1 0x110 → u.reg a = s.reg a)

/-- R174 to R177: the moves into CH.seal and CH.rx send, take, await and arm as the rules say. -/
def Obligations.ChannelMovesComplete : Prop :=
  (∀ (t : ThreadId) (f : MoveForm) (n : Fin 8) (v : Word) (s u0 : State) (w : IssueWord) (i : Nat), w = formWord f 0x109 n.val →
    s.fires t.val w { dst := 0x109, x := n.val, v := v } → u0 = s.wordDone t.val w → i = ((u0.th t.val).opv 0x108).toNat % 32 →
    (∀ e, (s.chan (cluOf t.val) i).turn = some e → e.cyc ≠ s.slotOf t.val) →
    (s.chan (cluOf t.val) i).msgs.length < 4 → (s.chan (cluOf t.val) i).recvq = [] → (s.chan (cluOf t.val) i).armed = [] →
    ∃ u, exec (.chSend t f n) s = .next u ∧ u = { u0 with chans := u.chans } ∧
      ∀ j, tGet (fun _ => Chan.empty) u.chans j = if j = cluOf t.val * 32 + i then
        { s.chan (cluOf t.val) i with msgs := (s.chan (cluOf t.val) i).msgs ++
          [{ sender := ownerOf t.val, words := (List.range n.val).map (fun i => (u0.th t.val).opv (0x100 + i)) ++ [v], at_ := s.slotOf t.val + 8 }], turn := (u.chan (cluOf t.val) i).turn }
        else tGet (fun _ => Chan.empty) s.chans j) ∧
  (∀ (t : ThreadId) (f : MoveForm) (n : Fin 8) (v : Word) (s u0 : State) (w : IssueWord) (i : Nat), w = formWord f 0x109 n.val →
    s.fires t.val w { dst := 0x109, x := n.val, v := v } → u0 = s.wordDone t.val w → i = ((u0.th t.val).opv 0x108).toNat % 32 →
    (∀ e, (s.chan (cluOf t.val) i).turn = some e → e.cyc ≠ s.slotOf t.val) →
    4 ≤ (s.chan (cluOf t.val) i).msgs.length →
    ∃ u m, exec (.chSend t f n) s = .next u ∧ u = { u0 with chans := u.chans, thr := u.thr } ∧
      (u.chan (cluOf t.val) i) = { s.chan (cluOf t.val) i with sendq := (s.chan (cluOf t.val) i).sendq ++ [(t.val, m)], turn := (u.chan (cluOf t.val) i).turn } ∧
      m.sender = ownerOf t.val ∧ m.words = (List.range n.val).map (fun i => (u0.th t.val).opv (0x100 + i)) ++ [v] ∧
      u.th t.val = { u0.th t.val with st := .waitChan, waitObj := nw (i + 32), waitAt := some ((s.th t.val).pc, none) }) ∧
  (∀ (t : ThreadId) (f : MoveForm) (n : Fin 8) (v : Word) (s u0 : State) (w : IssueWord) (i : Nat), w = formWord f 0x109 (8 + n.val) →
    s.fires t.val w { dst := 0x109, x := 8 + n.val, v := v } → u0 = s.wordDone t.val w → i = ((u0.th t.val).opv 0x108).toNat % 32 →
    (∀ e, (s.chan (cluOf t.val) i).turn = some e → e.cyc ≠ s.slotOf t.val) →
    4 ≤ (s.chan (cluOf t.val) i).msgs.length →
    ∃ u, exec (.chTrySend t f n) s = .next u ∧ u = { u0 with chans := u.chans, thr := u.thr } ∧
      (∀ j, tGet (fun _ => Chan.empty) u.chans j = if j = cluOf t.val * 32 + i then { s.chan (cluOf t.val) i with turn := (u.chan (cluOf t.val) i).turn }
        else tGet (fun _ => Chan.empty) s.chans j) ∧
      (∀ j, j ≠ t.val → u.th j = u0.th j) ∧
      u.th t.val = (u0.th t.val).result (s.slotOf t.val) 2 0x108 (setBit ((u0.th t.val).latest 0x108) 31 true)) ∧
  (∀ (t : ThreadId) (f : MoveForm) (n : Fin 8) (v : Word) (s u0 : State) (w : IssueWord) (i : Nat), w = formWord f 0x109 (8 + n.val) →
    s.fires t.val w { dst := 0x109, x := 8 + n.val, v := v } → u0 = s.wordDone t.val w → i = ((u0.th t.val).opv 0x108).toNat % 32 →
    (∀ e, (s.chan (cluOf t.val) i).turn = some e → e.cyc ≠ s.slotOf t.val) →
    (s.chan (cluOf t.val) i).msgs.length < 4 → (s.chan (cluOf t.val) i).recvq = [] → (s.chan (cluOf t.val) i).armed = [] →
    ∃ u, exec (.chTrySend t f n) s = .next u ∧ u = { u0 with chans := u.chans, thr := u.thr } ∧
      (u.chan (cluOf t.val) i).msgs = (s.chan (cluOf t.val) i).msgs ++
          [{ sender := ownerOf t.val, words := (List.range n.val).map (fun i => (u0.th t.val).opv (0x100 + i)) ++ [v], at_ := s.slotOf t.val + 8 }] ∧
      u.th t.val = (u0.th t.val).result (s.slotOf t.val) 2 0x108 (setBit ((u0.th t.val).latest 0x108) 31 false)) ∧
  (∀ (t : ThreadId) (f : MoveForm) (v : Word) (m : Msg) (r : List Msg) (s u0 : State) (w : IssueWord), w = formWord f 0x10A 0 →
    s.fires t.val w { dst := 0x10A, x := 0, v := v } → u0 = s.wordDone t.val w → (s.chan (cluOf t.val) (v.toNat % 32)).msgs = m :: r →
    m.at_ ≤ s.slotOf t.val → (s.chan (cluOf t.val) (v.toNat % 32)).sendq = [] →
    ∃ u, exec (.chTry t f) s = .next u ∧ u = { u0 with chans := u.chans, thr := u.thr } ∧
      u.chan (cluOf t.val) (v.toNat % 32) = { s.chan (cluOf t.val) (v.toNat % 32) with msgs := r, turn := none } ∧
      u.th t.val = (u0.th t.val).recvMsg (s.slotOf t.val) (v.toNat % 32) m ∧ ∀ j, j ≠ t.val → u.th j = u0.th j) ∧
  (∀ (t : ThreadId) (f : MoveForm) (v : Word) (s u0 : State) (w : IssueWord), w = formWord f 0x10A 0 →
    s.fires t.val w { dst := 0x10A, x := 0, v := v } → u0 = s.wordDone t.val w → (s.chan (cluOf t.val) (v.toNat % 32)).msgs = [] →
    ∃ u, exec (.chTry t f) s = .next u ∧
      u0.thOnly t.val ((u0.th t.val).result (s.slotOf t.val) 2 0x108 (setFld ((u0.th t.val).latest 0x108) 3 0 0)) u) ∧
  (∀ (t : ThreadId) (f : MoveForm) (v : Word) (m : Msg) (r : List Msg) (s u0 : State) (w : IssueWord), w = formWord f 0x10A 1 →
    s.fires t.val w { dst := 0x10A, x := 1, v := v } → u0 = s.wordDone t.val w → (s.chan (cluOf t.val) (v.toNat % 32)).msgs = m :: r →
    (s.chan (cluOf t.val) (v.toNat % 32)).sendq = [] →
    ∃ u, exec (.chRecv t f) s = .next u ∧ u = { u0 with chans := u.chans, thr := u.thr } ∧
      u.chan (cluOf t.val) (v.toNat % 32) = { s.chan (cluOf t.val) (v.toNat % 32) with msgs := r, turn := none } ∧
      u.th t.val = (u0.th t.val).recvMsg (s.slotOf t.val) (v.toNat % 32) m ∧ ∀ j, j ≠ t.val → u.th j = u0.th j) ∧
  (∀ (t : ThreadId) (f : MoveForm) (v : Word) (s u0 : State) (w : IssueWord), w = formWord f 0x10A 1 →
    s.fires t.val w { dst := 0x10A, x := 1, v := v } → u0 = s.wordDone t.val w → (s.chan (cluOf t.val) (v.toNat % 32)).msgs = [] →
    ∃ u, exec (.chRecv t f) s = .next u ∧ u = { u0 with chans := u.chans, thr := u.thr } ∧
      u.chan (cluOf t.val) (v.toNat % 32) = { s.chan (cluOf t.val) (v.toNat % 32) with recvq := (s.chan (cluOf t.val) (v.toNat % 32)).recvq ++ [t.val], turn := none } ∧
      u.th t.val = { u0.th t.val with st := .waitChan, waitObj := nw (v.toNat % 32), waitAt := some ((s.th t.val).pc, none) }) ∧
  (∀ (t : ThreadId) (f : MoveForm) (v : Word) (s u0 : State) (w : IssueWord), w = formWord f 0x10A 2 →
    s.fires t.val w { dst := 0x10A, x := 2, v := v } → u0 = s.wordDone t.val w → (s.chan (cluOf t.val) (v.toNat % 32)).msgs = [] →
    ∃ u, exec (.chArm t f) s = .next u ∧ u = { u0 with chans := u.chans } ∧
      u.chan (cluOf t.val) (v.toNat % 32) = { s.chan (cluOf t.val) (v.toNat % 32) with armed := (s.chan (cluOf t.val) (v.toNat % 32)).armed ++ [t.val], turn := none }) ∧
  (∀ (t : ThreadId) (f : MoveForm) (v : Word) (s u0 : State) (w : IssueWord), w = formWord f 0x10A 2 →
    s.fires t.val w { dst := 0x10A, x := 2, v := v } → u0 = s.wordDone t.val w → (s.chan (cluOf t.val) (v.toNat % 32)).msgs ≠ [] →
    ∃ u, exec (.chArm t f) s = .next u ∧ u0.thOnly t.val { u0.th t.val with ev := (u0.th t.val).ev ||| 0x8000 } u)

/-- R69, R137, R154 to R162: forks, joins, yields, waits, events, exits and scoreboard waits act as the rules say. -/
def Obligations.ThreadMovesComplete : Prop :=
  (∀ (t : ThreadId) (f : MoveForm) (det : Bool) (v : Word) (k : Nat) (s u0 : State) (w : IssueWord), w = formWord f 0x390 (b2n det) →
    s.fires t.val w { dst := 0x390, x := b2n det, v := v } → u0 = s.wordDone t.val w → u0.forkCtx t.val = some k → k ≠ t.val →
    u0.placedAt k = none →
    ∃ u, exec (.tuFork t f det) s = .next u ∧ u = { u0 with thr := u.thr } ∧
      u.th t.val = (u0.th t.val).result (s.slotOf t.val) 2 0x390 (nw (2 * k)) ∧ (u.th k).st = .running ∧ (u.th k).pc = v.toNat ∧
      (u.th k).w = (s.wordStart t.val).w ∧ (u.th k).p = (s.wordStart t.val).p ∧ (u.th k).vec = (s.wordStart t.val).vec ∧
      (u.th k).ctl = (s.wordStart t.val).ctl ∧ (u.th k).resv 0x390 = nw (2 * t.val) ∧ (u.th k).detached = det ∧
      (u.th k).parent = (if det then none else some t.val) ∧ (u.th k).nextCyc = ownSlot k (s.slotOf t.val + 16) ∧
      ∀ j, j ≠ t.val → j ≠ k → u.th j = u0.th j) ∧
  (∀ (t : ThreadId) (f : MoveForm) (det : Bool) (v : Word) (k : Nat) (p : Placed) (s u0 : State) (w : IssueWord), w = formWord f 0x390 (b2n det) →
    s.fires t.val w { dst := 0x390, x := b2n det, v := v } → u0 = s.wordDone t.val w → u0.forkCtx t.val = some k → k ≠ t.val →
    u0.placedAt k = some p →
    ∃ u, exec (.tuFork t f det) s = .next u ∧ u.th t.val = (u0.th t.val).result (s.slotOf t.val) 2 0x390 (nw (2 * k)) ∧
      (u.th k).st = .running ∧ (u.th k).pc = v.toNat ∧ (u.th k).w = (s.wordStart t.val).w ∧ (u.th k).parent = (if det then none else some t.val) ∧
      (u.tcb (rgnOf t.val) p.tcb).ctx ≠ some k ∧ ∀ j, j ≠ t.val → j ≠ k → u.th j = u0.th j) ∧
  (∀ (t : ThreadId) (f : MoveForm) (det : Bool) (v : Word) (s u0 : State) (w : IssueWord), w = formWord f 0x390 (b2n det) →
    s.fires t.val w { dst := 0x390, x := b2n det, v := v } → u0 = s.wordDone t.val w → u0.forkCtx t.val = none →
    ∃ u, exec (.tuFork t f det) s = .next u ∧ u0.thOnly t.val ((u0.th t.val).result (s.slotOf t.val) 2 0x390 0xFFFFFFFF) u) ∧
  (∀ (t : ThreadId) (f : MoveForm) (v : Word) (k : Nat) (s u0 : State) (w : IssueWord), w = formWord f 0x391 0 →
    s.fires t.val w { dst := 0x391, x := 0, v := v } → u0 = s.wordDone t.val w → threadOf v.toNat = some k → k ≠ t.val →
    tFind (u0.th t.val).dead k = none → (s.th k).st = .exited →
    ∃ u, exec (.tuJoin t f) s = .next u ∧ u = { u0 with thr := u.thr } ∧ u.th k = Thread.fresh ∧
      u.th t.val = (u0.th t.val).result (s.slotOf t.val) 2 0x390 (s.th k).exitVal ∧ ∀ j, j ≠ t.val → j ≠ k → u.th j = u0.th j) ∧
  (∀ (t : ThreadId) (f : MoveForm) (v : Word) (k : Nat) (s u0 : State) (w : IssueWord), w = formWord f 0x391 0 →
    s.fires t.val w { dst := 0x391, x := 0, v := v } → u0 = s.wordDone t.val w → threadOf v.toNat = some k → k ≠ t.val →
    tFind (u0.th t.val).dead k = none → (s.th k).st ≠ .exited →
    ∃ u, exec (.tuJoin t f) s = .next u ∧ u0.thOnly t.val { u0.th t.val with
      st := .waitJoin, waitObj := nw (ctxNo k), waitAt := some ((s.th t.val).pc, none) } u) ∧
  (∀ (t : ThreadId) (f : MoveForm) (v : Word) (n : Nat) (s u0 : State) (w : IssueWord), w = formWord f 0x392 0 →
    s.fires t.val w { dst := 0x392, x := 0, v := v } → u0 = s.wordDone t.val w → (s.th t.val).tcb = some n → u0.hasKid t.val = false →
    ∃ u, exec (.tuYield t f) s = .next u ∧ (u.th t.val).saveReq = some (2, 0) ∧ ∀ j, j ≠ t.val → u.th j = s.th j) ∧
  (∀ (t : ThreadId) (f : MoveForm) (v : Word) (s u0 : State) (w : IssueWord), w = formWord f 0x392 0 →
    s.fires t.val w { dst := 0x392, x := 0, v := v } → u0 = s.wordDone t.val w → (s.th t.val).tcb = none →
    exec (.tuYield t f) s = .next u0) ∧
  (∀ (t : ThreadId) (f : MoveForm) (v : Word) (s u0 : State) (w : IssueWord), w = formWord f 0x392 0 →
    s.fires t.val w { dst := 0x392, x := 0, v := v } → u0 = s.wordDone t.val w → u0.hasKid t.val = true →
    exec (.tuYield t f) s = .next u0) ∧
  (∀ (t : ThreadId) (f : MoveForm) (v : Word) (s u0 : State) (w : IssueWord) (m : BitVec 16), w = formWord f 0x393 0 →
    s.fires t.val w { dst := 0x393, x := 0, v := v } → u0 = s.wordDone t.val w → m = BitVec.setWidth 16 v → m ≠ 0 →
    (s.th t.val).ev &&& m ≠ 0 →
    ∃ u, exec (.tuWait t f) s = .next u ∧ u0.thOnly t.val { (u0.th t.val).result (s.slotOf t.val) 1 0x390
      (BitVec.setWidth 32 ((s.th t.val).ev &&& m)) with ev := (s.th t.val).ev &&& ~~~ m } u) ∧
  (∀ (t : ThreadId) (f : MoveForm) (v : Word) (s u0 : State) (w : IssueWord) (m : BitVec 16), w = formWord f 0x393 0 →
    s.fires t.val w { dst := 0x393, x := 0, v := v } → u0 = s.wordDone t.val w → m = BitVec.setWidth 16 v → m ≠ 0 →
    (s.th t.val).ev &&& m = 0 →
    ∃ u, exec (.tuWait t f) s = .next u ∧ u0.thOnly t.val { u0.th t.val with
      mask := m, st := .waitEvent, waitObj := nw m.toNat, waitAt := some ((s.th t.val).pc, none),
      timeout := if fld v 31 16 = 0 then none else some (s.slotOf t.val + 64 * fld v 31 16) } u) ∧
  (∀ (t : ThreadId) (f : MoveForm) (v : Word) (k : Nat) (s : State) (w : IssueWord), w = formWord f 0x394 0 →
    s.fires t.val w { dst := 0x394, x := 0, v := v } → threadOf v.toNat = some k →
    ∃ u, exec (.tuEvent t f) s = .next u ∧ u = { s.wordDone t.val w with events := s.events ++ [(k, fld v 19 16, decide (cluOf k ≠ cluOf t.val))] } ∧
      rgnOf k = rgnOf t.val ∧ fld v 19 16 ≤ 12) ∧
  (∀ (t : ThreadId) (f : MoveForm) (v : Word) (p : Nat) (s : State) (w : IssueWord), w = formWord f 0x395 0 →
    s.fires t.val w { dst := 0x395, x := 0, v := v } → (s.th t.val).parent = some p → p ≠ t.val →
    (s.th p).parent ≠ some t.val →
    ¬((s.th p).st = .waitJoin ∧ (s.th p).waitObj = nw (ctxNo t.val)) →
    ∃ u, exec (.tuExit t f) s = .next u ∧
      u = { s.wordDone t.val w with thr := u.thr, locks := u.locks, chans := u.chans, clu := u.clu, cops := u.cops, tellers := u.tellers } ∧
      (u.th t.val).st = .exited ∧ (u.th t.val).exitVal = v ∧
      (u.th t.val).parent = some p ∧ u.th p = s.th p) ∧
  (∀ (t : ThreadId) (f : MoveForm) (v : Word) (p : Nat) (s : State) (w : IssueWord), w = formWord f 0x395 0 →
    s.fires t.val w { dst := 0x395, x := 0, v := v } → (s.th t.val).parent = some p → p ≠ t.val →
    (s.th p).parent ≠ some t.val → (s.th p).st = .waitJoin → (s.th p).waitObj = nw (ctxNo t.val) →
    ∃ u, exec (.tuExit t f) s = .next u ∧
      u = { s.wordDone t.val w with thr := u.thr, locks := u.locks, chans := u.chans, clu := u.clu, cops := u.cops, tellers := u.tellers } ∧
      u.th t.val = Thread.fresh ∧ (u.th p).st = .running ∧
      (u.th p).resv 0x390 = v ∧ ∀ q ∈ (u.th p).pend, q.sock ≠ 0x390) ∧
  (∀ (t : ThreadId) (f : MoveForm) (v : Word) (s u0 : State) (w : IssueWord) (m : BitVec 16), w = formWord f 0x3A0 0 →
    s.fires t.val w { dst := 0x3A0, x := 0, v := v } → u0 = s.wordDone t.val w → m = BitVec.setWidth 16 v → (s.wordStart t.val).sb &&& m = m →
    exec (.sbWait t f) s = .next u0) ∧
  (∀ (t : ThreadId) (f : MoveForm) (v : Word) (s u0 : State) (w : IssueWord) (m : BitVec 16), w = formWord f 0x3A0 0 →
    s.fires t.val w { dst := 0x3A0, x := 0, v := v } → u0 = s.wordDone t.val w → m = BitVec.setWidth 16 v → (s.wordStart t.val).sb &&& m ≠ m →
    s.pkt t.val = false →
    ∃ u, exec (.sbWait t f) s = .next u ∧ u0.thOnly t.val { u0.th t.val with
      mask := m, st := .waitSb, waitObj := nw m.toNat, waitAt := some ((s.th t.val).pc, none) } u) ∧
  (∀ (t : ThreadId) (f : MoveForm) (v : Word) (s : State) (w : IssueWord), w = formWord f 0x395 0 →
    s.fires t.val w { dst := 0x395, x := 0, v := v } → (s.th t.val).parent = none →
    ∃ u, exec (.tuExit t f) s = .next u ∧ u.th t.val = Thread.fresh) ∧
  (∀ (t : ThreadId) (f : MoveForm) (v e : Word) (k : Nat) (s u0 : State) (w : IssueWord), w = formWord f 0x391 0 →
    s.fires t.val w { dst := 0x391, x := 0, v := v } → u0 = s.wordDone t.val w → threadOf v.toNat = some k → tFind (u0.th t.val).dead k = some e →
    ∃ u, exec (.tuJoin t f) s = .next u ∧ u0.thOnly t.val { (u0.th t.val).result (s.slotOf t.val) 2 0x390 e with dead := tDel (u0.th t.val).dead k } u) ∧
  (∀ (t : ThreadId) (f : MoveForm) (v : Word) (s u0 : State) (w : IssueWord), w = formWord f 0x393 0 →
    s.fires t.val w { dst := 0x393, x := 0, v := v } → u0 = s.wordDone t.val w → BitVec.setWidth 16 v = (0 : BitVec 16) →
    ∃ u, exec (.tuWait t f) s = .next u ∧ u0.thOnly t.val ((u0.th t.val).result (s.slotOf t.val) 1 0x390 0) u)

/-- R135 to R141, R145, R159 to R161, R248: what is outstanding for a context completes, and a context that waits for it runs again. -/
def Obligations.CompletionCommandsComplete : Prop :=
  (∀ (t : ThreadId) (q : TbOp) (r : List Word × Nat × State) (s : State), (s.th t.val).tb = some q → r = s.tbLookup (rgnOf t.val) s.cyc q.cnt q.val →
    ∃ u, exec (.tbTaskDone t) s = .next u ∧ u = { r.2.2 with thr := u.thr, clu := u.clu } ∧ (u.th t.val).tb = none ∧ (u.th t.val).sb.getLsbD 15 = true ∧
      (u.th t.val).sbOwned.getLsbD 15 = false ∧ (∀ i : Fin 8, (u.th t.val).resv (0x0C0 + i.val) = r.1.getD i.val 0) ∧
      (u.th t.val).resv 0x0C8 = nw r.2.1 ∧ ∀ j, j ≠ t.val → u.th j = s.th j) ∧
  (∀ (t : ThreadId) (b : Fin 16) (o : DmOp) (r : List DmOp) (s : State), (s.th t.val).dm = o :: r → o.sb = b.val → o.load = true → o.poison = false →
    (s.th t.val).st = .running →
    ∃ u, exec (.dmLoadDone t b) s = .next u ∧ u = { s with thr := u.thr, clu := u.clu } ∧
      u.clu? (cluOf t.val) = { s.clu? (cluOf t.val) with
        maint := (s.clu? (cluOf t.val)).maint.map fun m => { m with arounds := m.arounds.erase (t.val, b.val) } } ∧ (u.th t.val).dm = r ∧ (u.th t.val).resv (0x0E0 + b.val) = o.value ∧
      (u.th t.val).sb.getLsbD b.val = true ∧ (u.th t.val).sbOwned.getLsbD b.val = false ∧ (u.th t.val).sbPois = (s.th t.val).sbPois ∧
      ∀ j, j ≠ t.val → u.th j = s.th j) ∧
  (∀ (t : ThreadId) (b : Fin 16) (o : DmOp) (r : List DmOp) (s : State), (s.th t.val).dm = o :: r → o.sb = b.val → o.load = true → o.poison = true →
    (s.th t.val).st = .running →
    ∃ u, exec (.dmLoadDone t b) s = .next u ∧ u = { s with thr := u.thr, clu := u.clu } ∧
      u.clu? (cluOf t.val) = { s.clu? (cluOf t.val) with
        maint := (s.clu? (cluOf t.val)).maint.map fun m => { m with arounds := m.arounds.erase (t.val, b.val) } } ∧ (u.th t.val).dm = r ∧ (u.th t.val).resv (0x0E0 + b.val) = 0 ∧
      (u.th t.val).sb.getLsbD b.val = true ∧ (u.th t.val).sbOwned.getLsbD b.val = false ∧ (u.th t.val).sbPois.getLsbD b.val = true) ∧
  (∀ (t : ThreadId) (b : Fin 16) (o : DmOp) (r : List DmOp) (s : State), (s.th t.val).dm = o :: r → o.sb = b.val → o.load = false → o.poison = false →
    (s.th t.val).st = .waitSb → ((s.th t.val).sb ||| BitVec.ofNat 16 (2 ^ b.val)) &&& (s.th t.val).mask = (s.th t.val).mask → (s.th t.val).sbPois = 0 →
    ∃ u, exec (.dmStoreAck t b) s = .next u ∧ u = { s with thr := u.thr, clu := u.clu } ∧ (u.th t.val).dm = r ∧ (u.th t.val).sb.getLsbD b.val = true ∧
      (u.th t.val).st = .running ∧ (u.th t.val).mask = 0 ∧ (u.th t.val).nextCyc = max (s.th t.val).nextCyc (ownSlot t.val (s.cyc + 8)) ∧
      ∀ j, j ≠ t.val → u.th j = s.th j) ∧
  (∀ (c : ClusterId) (t : ThreadId) (m : Maint) (r : List Maint) (s : State), (s.clu? c.val).maint = m :: r → m.thread = some t.val → m.wait = some 0 → m.arounds = [] →
    (s.th t.val).st = .running → m.sb < 16 →
    ∃ u, exec (.maintDone c (some t)) s = .next u ∧ u = { s with thr := u.thr, clu := u.clu } ∧ (u.clu? c.val).maint = r ∧
      (u.th t.val).sb.getLsbD m.sb = true ∧ (u.th t.val).sbOwned.getLsbD m.sb = false) ∧
  (∀ (c : ClusterId) (m : Maint) (r : List Maint) (s : State), (s.clu? c.val).maint = m :: r → m.thread = none → m.wait = some 0 → m.arounds = [] →
    ∃ u, exec (.maintDone c none) s = .next u ∧ u = { s with regs := u.regs, hw := u.hw, clu := u.clu } ∧ (u.clu? c.val).maint = r ∧
      u.rb (aCdc c.val 0x118) 31 = false ∧ u.rb (aCdc c.val 0x118) 30 = true ∧ u.rf (aCdc c.val 0x118) 29 28 = (if m.fatal then 2 else b2n m.refused)) ∧
  (∀ (t : ThreadId) (e : Fin 16) (x : Bool) (s : State), s.events.find? (fun q => decide (q.1 = t.val ∧ q.2.1 = e.val)) = some (t.val, e.val, x) → s.pkt t.val = false → (s.th t.val).st = .running →
    ∃ u, exec (.eventLatch t e) s = .next u ∧ u = { s with events := s.events.erase (t.val, e.val, x), thr := u.thr, clu := u.clu } ∧
      u.th t.val = { s.th t.val with ev := (s.th t.val).ev ||| BitVec.ofNat 16 (2 ^ e.val) } ∧ ∀ j, j ≠ t.val → u.th j = s.th j) ∧
  (∀ (t : ThreadId) (e : Fin 16) (x : Bool) (s : State), s.events.find? (fun q => decide (q.1 = t.val ∧ q.2.1 = e.val)) = some (t.val, e.val, x) → s.pkt t.val = false → (s.th t.val).st = .waitEvent →
    (s.th t.val).mask = BitVec.ofNat 16 (2 ^ e.val) → (s.th t.val).ev = 0 →
    ∃ u, exec (.eventLatch t e) s = .next u ∧ (u.th t.val).st = .running ∧ (u.th t.val).ev = 0 ∧
      (u.th t.val).resv 0x390 = BitVec.setWidth 32 (BitVec.ofNat 16 (2 ^ e.val)) ∧ (u.th t.val).timeout = none) ∧
  (∀ (t : ThreadId) (e : Fin 16) (x : Bool) (s : State), s.events.find? (fun q => decide (q.1 = t.val ∧ q.2.1 = e.val)) = some (t.val, e.val, x) → s.pkt t.val = true →
    ∃ u, exec (.eventLatch t e) s = .next u ∧ u = { s with events := s.events.erase (t.val, e.val, x), regs := u.regs, hw := u.hw } ∧
      (u.reg (ra (cluPage (cluOf t.val) 0) 0x194)).toNat = min (2 ^ 32 - 1) ((s.reg (ra (cluPage (cluOf t.val) 0) 0x194)).toNat + 1)) ∧
  (∀ (t : ThreadId) (c : Nat) (s : State), (s.th t.val).timeout = some c → (s.th t.val).st = .waitEvent →
    ((s.th t.val).ev ||| 0x2000) &&& (s.th t.val).mask ≠ 0 →
    ∃ u, exec (.waitTimeout t) s = .next u ∧ u = { s with now := max s.now (s.cycTick c), thr := u.thr, clu := u.clu } ∧ (u.th t.val).st = .running ∧
      (u.th t.val).timeout = none ∧ (u.th t.val).resv 0x390 = BitVec.setWidth 32 (((s.th t.val).ev ||| 0x2000) &&& (s.th t.val).mask))

/-- R71, R151 to R153, R169 to R172, R179, R180: kills, forced releases, stalls and trap storms. -/
def Obligations.KillCommandsComplete : Prop :=
  (∀ (c : Fin 512) (i : Fin 8) (s : State), s.domIsOn (domClu (c.val / 8)) = true → (s.th (c.val * 8 + i.val)).st ≠ .resetting →
    ((s.th (c.val * 8 + i.val)).st = .idle → s.pkt (c.val * 8 + i.val) = true ∨ (s.restoring (c.val * 8 + i.val)).isSome = true) →
    ∃ u, exec (.coreThrKill c (BitVec.ofNat 8 (2 ^ i.val))) s = .next u ∧ (u.th (c.val * 8 + i.val)).st = .resetting ∧
      (u.th (c.val * 8 + i.val)).saveReq = none ∧ (u.th (c.val * 8 + i.val)).dm = [] ∧ (u.th (c.val * 8 + i.val)).sbOwned = 0) ∧
  (∀ (c : Fin 512) (s : State), s.domIsOn (domClu (c.val / 8)) = true → exec (.coreThrKill c 0) s = .next s) ∧
  (∀ (l : BitVec 10) (s : State) (pg k : Nat), ((∃ c : ClusterId, pg = cluPage c.val 3 ∧ s.domIsOn (domClu c.val) = true) ∧ l.toNat < 256 ∨
      ∃ r : RegionId, pg = rgnPage r.val 3 ∧ s.domIsOn (domRgn r.val) = true) → k = lockKey pg l.toNat →
    (∀ e, (s.lock k).turn = some e → e.cyc ≠ s.cyc) → (s.lock k).held = true → (s.lock k).waiters = [] → (s.lock k).armed = [] →
    ∃ u, exec (.escForceRel pg l) s = .next u ∧ u = { s with regs := u.regs, hw := u.hw, arrived := u.arrived, locks := u.locks, out := u.out } ∧
      (∀ j, u.lock j = if j = k then { s.lock k with held := false, abandoned := true } else s.lock j) ∧
      u.reg (ra pg (0x200 + 8 * s.rf (ra pg 0x10C) 3 0)) = nw (2 ^ 31 + 3 * 2 ^ 28 + (s.lock k).owner.toNat * 2 ^ 14 + l.toNat)) ∧
  (∀ (c : ClusterId) (s : State), s.stalled c.val = true → s.rb (ra (cluPage c.val 0) 0x180) 0 = false →
    ∃ u, exec (.stallAll c) s = .next u ∧
      u = { s with now := max s.now (s.cycTick ((s.clu? c.val).lastAct + (16384 - (s.clu? c.val).stall))), regs := u.regs, hw := u.hw,
                   arrived := u.arrived, clu := u.clu, out := u.out } ∧
      u.rb (ra (cluPage c.val 0) 0x184) 31 = true) ∧
  (∀ (c : ClusterId) (s : State), (s.clu? c.val).packet = true → 64 < (s.clu? c.val).traps →
    ∃ u, exec (.trapStorm c) s = .next u ∧ 
      u = { s with regs := u.regs, hw := u.hw, arrived := u.arrived, clu := u.clu, fmgq := u.fmgq, out := u.out } ∧ (u.clu? c.val).traps = 0)

/-- R232 to R236, R240: fill mode and the host window of a cluster memory.
How a fill passes through its cycles is the model's choice (log entry 211). -/
def Obligations.ClusterMemoryCommandsComplete : Prop :=
  (∀ (c : ClusterId) (o n : Nat) (s : State), s.domIsOn (domClu c.val) = true → o = s.rf (aCmem c.val 0x100) 19 0 → n = s.rf (aCmem c.val 0x104) 20 0 →
    s.rb (aCmem c.val 0x110) 31 = false → o % 8 = 0 → n % 8 = 0 → n ≠ 0 → o + n ≤ 0x100000 → cmemArea o = cmemArea (o + n - 1) → cmemArea o ≠ 2 →
    (cmemArea o = 3 → s.progWritable c.val = true) →
    ∃ u, exec (.cmemFill c) s = .next u ∧ u = { s with regs := u.regs, clu := u.clu } ∧
      (u.clu? c.val) = { s.clu? c.val with fill := some { addr := o, len := n, pat := s.pair (aCmem c.val 0x108), start := s.cyc, done := 0 } } ∧
      u.rb (aCmem c.val 0x110) 31 = true ∧ u.rf (aCmem c.val 0x110) 29 28 = 0 ∧ ∀ a, a ≠ aCmem c.val 0x110 → u.reg a = s.reg a) ∧
  (∀ (c : ClusterId) (o n : Nat) (s : State), s.domIsOn (domClu c.val) = true → o = s.rf (aCmem c.val 0x100) 19 0 → n = s.rf (aCmem c.val 0x104) 20 0 →
    s.rb (aCmem c.val 0x110) 31 = false → (o % 8 ≠ 0 ∨ n % 8 ≠ 0 ∨ n = 0 ∨ 0x100000 < o + n ∨ cmemArea o ≠ cmemArea (o + n - 1) ∨ cmemArea o = 2) →
    ∃ u, exec (.cmemFill c) s = .next u ∧ u = { s with regs := u.regs } ∧ u.rf (aCmem c.val 0x110) 29 28 = 1 ∧ u.rb (aCmem c.val 0x110) 31 = false ∧
      ∀ a, a ≠ aCmem c.val 0x110 → u.reg a = s.reg a) ∧
  (∀ (c : ClusterId) (f : CmemFill) (s v : State), (s.clu? c.val).fill = some f → f.done = 0 → (cmemArea f.addr = 3 → s.progWritable c.val = true) →
    (∀ a ∈ (s.clu? c.val).acc, a.g ≤ f.start) → (∀ b ∈ (s.clu? c.val).bacc, b.g ≤ f.start) → v = s.upToCyc f.last →
    (∀ n, n < 4 → ∀ k ∈ (s.cop c.val n).head?, v.cyc < (s.cop c.val n).fetchAt k) →
    ∃ u, exec (.cmemFillDone c) s = .next u ∧ u = { v with regs := u.regs, clu := u.clu, cmem := u.cmem } ∧
      u.cmem = (s.cmemPut c.val f.addr (patBytes f.pat f.len)).cmem ∧ (u.clu? c.val).fill = none ∧ u.rb (aCmem c.val 0x110) 31 = false ∧
      u.rf (aCmem c.val 0x110) 29 28 = 0) ∧
  (∀ (c : ClusterId) (f : CmemFill) (s v : State), (s.clu? c.val).fill = some f → f.done = 0 → 0 < f.len → f.len ≤ 128 →
    (cmemArea f.addr = 3 → s.progWritable c.val = true) → (∀ a ∈ (s.clu? c.val).acc, a.g ≤ f.last) → (∀ b ∈ (s.clu? c.val).bacc, b.g ≤ f.last) →
    (s.clu? c.val).collides f.last f.addr f.len = true → v = s.upToCyc f.last →
    (∀ n, n < 4 → ∀ k ∈ (s.cop c.val n).head?, v.cyc < (s.cop c.val n).fetchAt k) →
    ∃ u, exec (.cmemFillDone c) s = .next u ∧ u.cmem = (s.cmemPut c.val f.addr (s.bKeep c.val f.last f.addr (patBytes f.pat f.len))).cmem ∧
      u.rb (aCmem c.val 0x110) 30 = true ∧ u.rb (aCmem c.val 0x110) 31 = false) ∧
  (∀ (c : ClusterId) (f : CmemFill) (s : State), (s.clu? c.val).fill = some f → cmemArea f.addr = 3 → s.progWritable c.val = false →
    ∃ u, exec (.cmemFillDone c) s = .next u ∧ u.cmem = s.cmem ∧ u.rf (aCmem c.val 0x11C) 15 0 = min 65535 (s.rf (aCmem c.val 0x11C) 15 0 + 1) ∧
      u.rb (aCmem c.val 0x110) 31 = false) ∧
  (∀ (c : ClusterId) (i : Fin 512) (o : Nat) (b : List Byte) (s : State), s.domIsOn (domClu c.val) = true →
    o = s.rf (aCmem c.val 0x114) 19 11 * 2048 + 4 * i.val → inKeyArea o = false → (s.clu? c.val).fill = none →
    (∀ a ∈ (s.clu? c.val).acc, a.g < s.cyc) → (∀ x ∈ (s.clu? c.val).bacc, x.g < s.cyc) → s.cmemRead c.val o 4 = (b, 0, s) →
    ∃ u, exec (.cmemWinAccess c i none) s = .next u ∧ u = { s with out := .data (leWord b) :: s.out }) ∧
  (∀ (c : ClusterId) (i : Fin 512) (o : Nat) (v : Word) (s : State), s.domIsOn (domClu c.val) = true →
    o = s.rf (aCmem c.val 0x114) 19 11 * 2048 + 4 * i.val → inKeyArea o = false → (s.clu? c.val).fill = none →
    (∀ a ∈ (s.clu? c.val).acc, a.g < s.cyc) → (∀ x ∈ (s.clu? c.val).bacc, x.g ≤ s.cyc) →
    (∀ n, n < 4 → ∀ k ∈ (s.cop c.val n).head?, s.cyc < (s.cop c.val n).fetchAt k) →
    (cmemArea o = 3 → s.progWritable c.val = true) → s.cmemMergeOk c.val o 4 = true →
    ∃ u, exec (.cmemWinAccess c i (some v)) s = .next u ∧ u = { s with cmem := u.cmem, clu := u.clu } ∧
      u.cmem = (s.cmemPut c.val o (leBytes 4 v.toNat)).cmem) ∧
  (∀ (c : ClusterId) (i : Fin 512) (o : Nat) (s : State), s.domIsOn (domClu c.val) = true → o = s.rf (aCmem c.val 0x114) 19 11 * 2048 + 4 * i.val →
    inKeyArea o = true →
    (∃ u, exec (.cmemWinAccess c i none) s = .next u ∧ u = { s with regs := u.regs, hw := u.hw, out := .data 0 :: s.out } ∧
      u.rf (aCmem c.val 0x118) 15 0 = min 65535 (s.rf (aCmem c.val 0x118) 15 0 + 1)) ∧
    ∀ v : Word, ∃ u, exec (.cmemWinAccess c i (some v)) s = .next u ∧ u = { s with regs := u.regs, hw := u.hw } ∧
      u.rf (aCmem c.val 0x118) 15 0 = min 65535 (s.rf (aCmem c.val 0x118) 15 0 + 1)) ∧
  (∀ (c : ClusterId) (i : Fin 512) (v : Word) (s : State), s.domIsOn (domClu c.val) = false →
    exec (.cmemFill c) s = .next s.domDeny ∧ exec (.cmemWinAccess c i (some v)) s = .next s.domDeny ∧
      exec (.cmemWinAccess c i none) s = .next (s.emit (.data 0)))

/-- R244, R248, R249: the maintenance operations of the data cache and the acknowledgement of a writeback.
When an operation reaches its line is the model's choice (log entry 186). -/
def Obligations.CacheMaintenanceComplete : Prop :=
  (∀ (c : ClusterId) (src : Option ThreadId) (i w set tag a : Nat) (m : Maint) (l : Line) (s : State),
    (∀ t, src = some t → (s.turnOf c.val s.cyc).follows (m.op i t.val 1) = false) →
    maintNext (s.clu? c.val).maint (src.map (·.val)) 1 = some i → (s.clu? c.val).maint[i]? = some m → set = m.off / 64 % 1024 → tag = m.off / 65536 →
    s.dmDecode c.val m.off = .mem a → s.tagBad c.val set = none → s.findWay c.val set tag = some w → tFind s.lines (lineKey c.val set w) = some l →
    l.set = set → l.tag = tag → l.dirty = true → l.bad = 0 → s.kl1 c.val 1 m.off = false →
    ∃ u, exec (.clean c src) s = .next u ∧ u = { s with lines := u.lines, clu := u.clu, now := if src.isNone then max s.now (s.cycTick (s.cyc + 1)) else s.now } ∧
      (∀ k, tFind u.lines k = if k = lineKey c.val set w then some { l with dirty := false, wbPend := true } else tFind s.lines k) ∧
      (u.clu? c.val).wbs = (s.clu? c.val).wbs ++ [{ addr := s.lineAddr c.val set tag, set := set, tag := tag, data := l.data }] ∧
      (u.clu? c.val).maint = (s.clu? c.val).maint.set i { m with fatal := false, arounds := [], cyc := s.cyc, wait := some ((s.clu? c.val).wbs.length + 1) }) ∧
  (∀ (c : ClusterId) (src : Option ThreadId) (i w set tag a : Nat) (m : Maint) (s : State),
    (∀ t, src = some t → (s.turnOf c.val s.cyc).follows (m.op i t.val 2) = false) →
    maintNext (s.clu? c.val).maint (src.map (·.val)) 2 = some i → (s.clu? c.val).maint[i]? = some m → set = m.off / 64 % 1024 → tag = m.off / 65536 →
    s.dmDecode c.val m.off = .mem a → s.tagBad c.val set = none → s.findWay c.val set tag = some w →
    ∃ u, exec (.inval c src) s = .next u ∧ u = { s with lines := u.lines, clu := u.clu, now := if src.isNone then max s.now (s.cycTick (s.cyc + 1)) else s.now } ∧
      (∀ k, tFind u.lines k = if k = lineKey c.val set w then none else tFind s.lines k) ∧ (u.clu? c.val).wbs = (s.clu? c.val).wbs ∧
      (∀ l ∈ (u.clu? c.val).victim, ¬(l.set = set ∧ l.tag = tag)) ∧
      (u.clu? c.val).maint = (s.clu? c.val).maint.set i { m with fatal := false, arounds := [], cyc := s.cyc, wait := some 0 }) ∧
  (∀ (c : ClusterId) (src : Option ThreadId) (i w set tag a : Nat) (m : Maint) (l : Line) (s : State),
    (∀ t, src = some t → (s.turnOf c.val s.cyc).follows (m.op i t.val 3) = false) →
    maintNext (s.clu? c.val).maint (src.map (·.val)) 3 = some i → (s.clu? c.val).maint[i]? = some m → set = m.off / 64 % 1024 → tag = m.off / 65536 →
    s.dmDecode c.val m.off = .mem a → s.tagBad c.val set = none → s.findWay c.val set tag = some w → tFind s.lines (lineKey c.val set w) = some l →
    l.set = set → l.tag = tag → l.dirty = true → l.bad = 0 →
    ∃ u, exec (.flush c src) s = .next u ∧ u = { s with lines := u.lines, clu := u.clu, now := if src.isNone then max s.now (s.cycTick (s.cyc + 1)) else s.now } ∧
      (∀ k, tFind u.lines k = if k = lineKey c.val set w then none else tFind s.lines k) ∧
      (u.clu? c.val).wbs = (s.clu? c.val).wbs ++ [{ addr := s.lineAddr c.val set tag, set := set, tag := tag, data := l.data }] ∧
      (u.clu? c.val).maint = (s.clu? c.val).maint.set i { m with fatal := false, arounds := [], cyc := s.cyc, wait := some ((s.clu? c.val).wbs.length + 1) }) ∧
  (∀ (c : ClusterId) (src : Option ThreadId) (i : Nat) (m : Maint) (s : State),
    (∀ t, src = some t → (s.turnOf c.val s.cyc).follows (m.op i t.val 4) = false) →
    maintNext (s.clu? c.val).maint (src.map (·.val)) 4 = some i → (s.clu? c.val).maint[i]? = some m →
    s.flushAllStuck c.val = false →
    ∃ u, exec (.flushAll c src) s = .next u ∧ u = { s with lines := u.lines, clu := u.clu, now := if src.isNone then max s.now (s.cycTick (s.cyc + 1)) else s.now } ∧
      (∀ k, tFind u.lines k = if k / 8192 = c.val then none else tFind s.lines k) ∧ (u.clu? c.val).victim = [] ∧
      (u.clu? c.val).maint = (s.clu? c.val).maint.set i { m with fatal := false, arounds := [], cyc := s.cyc, wait := some (u.clu? c.val).wbs.length } ∧
      (s.clu? c.val).wbs <+: (u.clu? c.val).wbs) ∧
  (∀ (c : ClusterId) (src : Option ThreadId) (i : Nat) (m : Maint) (s : State),
    (∀ t, src = some t → (s.turnOf c.val s.cyc).follows (m.op i t.val 5) = false) →
    maintNext (s.clu? c.val).maint (src.map (·.val)) 5 = some i → (s.clu? c.val).maint[i]? = some m → s.pgHalted (cluPage c.val 2) = true →
    ∃ u, exec (.invalAll c src) s = .next u ∧ u = { s with lines := u.lines, clu := u.clu, now := if src.isNone then max s.now (s.cycTick (s.cyc + 1)) else s.now } ∧
      (∀ k, tFind u.lines k = if k / 8192 = c.val then none else tFind s.lines k) ∧
      u.clu? c.val = { s.clu? c.val with victim := [], turn := (u.clu? c.val).turn, maint := (s.clu? c.val).maint.set i { m with fatal := false, arounds := [], cyc := s.cyc, wait := some 0 } }) ∧
  (∀ (c : ClusterId) (src : Option ThreadId) (i : Nat) (m : Maint) (s : State),
    maintNext (s.clu? c.val).maint (src.map (·.val)) 5 = some i → (s.clu? c.val).maint[i]? = some m → s.pgHalted (cluPage c.val 2) = false →
    ∃ u, exec (.invalAll c src) s = .next u ∧ u = { s with clu := u.clu } ∧
      u.clu? c.val = { s.clu? c.val with maint := (s.clu? c.val).maint.set i { m with refused := true, wait := some 0 } }) ∧
  (∀ (c : ClusterId) (src : Option ThreadId) (i : Nat) (m : Maint) (s : State),
    maintNext (s.clu? c.val).maint (src.map (·.val)) 6 = some i → (s.clu? c.val).maint[i]? = some m →
    ∃ u, exec (.sync c src) s = .next u ∧ u = { s with clu := u.clu, now := if src.isNone then max s.now (s.cycTick (s.cyc + 1)) else s.now } ∧
      u.clu? c.val = { s.clu? c.val with maint := (s.clu? c.val).maint.set i { m with fatal := false, arounds := s.aroundsOf c.val, cyc := s.cyc, wait := some (s.clu? c.val).wbs.length } }) ∧
  (∀ (c : ClusterId) (w : Wb) (r : List Wb) (s : State), (s.clu? c.val).wbs = w :: r → (∀ v ∈ r, ¬(v.set = w.set ∧ v.tag = w.tag)) →
    ∃ u, exec (.writebackAck c) s = .next u ∧ u.dram = (s.dramWrite w.addr w.data).2.dram ∧ (u.clu? c.val).wbs = r ∧
      (∀ k l, k / 8192 = c.val → tFind s.lines k = some l → l.tag = w.tag → l.set = w.set → tFind u.lines k = some { l with wbPend := false }) ∧
      (∀ k, k / 8192 ≠ c.val → tFind u.lines k = tFind s.lines k) ∧
      (u.clu? c.val).maint = (s.clu? c.val).maint.map fun m => { m with wait := m.wait.map (· - 1) }) ∧
  (∀ (c : ClusterId) (t : ThreadId) (k : Fin 5) (i : Nat) (m : Maint) (s : State) (q : (Word × Bool × Bool) × State),
    maintNext (s.clu? c.val).maint (some t.val) (k.val + 1) = some i → (s.clu? c.val).maint[i]? = some m →
    (k = 4 → s.pgHalted (cluPage c.val 2) = true) → (s.turnOf c.val s.cyc).follows (m.op i t.val (k.val + 1)) = true →
    q = (s.cdcDo c.val (m.op i t.val (k.val + 1))).2.turnAgain c.val (s.turnWith (s.turnOf c.val s.cyc) (m.op i t.val (k.val + 1))) t.val m.sb →
    ∃ u, exec ([Instr.clean c (some t), .inval c (some t), .flush c (some t), .flushAll c (some t), .invalAll c (some t)].getD k.val (.clean c none)) s = .next u ∧
      u.lines = q.2.lines ∧ u.dram = q.2.dram ∧ u.thr = q.2.thr ∧ (u.clu? c.val).maint = (q.2.clu? c.val).maint ∧
      (u.clu? c.val).victim = (q.2.clu? c.val).victim ∧ (u.clu? c.val).wbs = (q.2.clu? c.val).wbs)

/-- R245 to R247, R253 to R256: the addressable ways, the enable of the cache, the aperture, and the flush that a change requires. -/
def Obligations.CacheControlComplete : Prop :=
  (∀ (c : ClusterId) (v : Word) (s : State), s.domIsOn (domClu c.val) = true → s.pgHalted (cluPage c.val 2) = true → (s.clu? c.val).needFlush = none → fld v 6 4 ≤ 4 →
    (s.rf (aCdc c.val 0x110) 15 0 + fld v 6 4) * 65536 ≤ 0xFFFFE000 → s.cdcEn c.val = false →
    ∃ u, exec (.spmWaysChange c v) s = .next u ∧ u = { s with regs := u.regs, spm := u.spm, spmBad := u.spmBad, clu := u.clu } ∧
      u.clu? c.val = { s.clu? c.val with zeroing := if s.spmWays c.val < fld v 6 4 then some (s.cyc + 1056) else (s.clu? c.val).zeroing } ∧ u.spmWays c.val = fld v 6 4 ∧
      u.cdcEn c.val = bit v 0 ∧ (∀ a, a ≠ aCdc c.val 0x100 → u.reg a = s.reg a)) ∧
  (∀ (c : ClusterId) (v : Word) (s : State), s.domIsOn (domClu c.val) = true → s.pgHalted (cluPage c.val 2) = true → (s.clu? c.val).needFlush = none → fld v 6 4 ≤ 4 →
    (s.rf (aCdc c.val 0x110) 15 0 + fld v 6 4) * 65536 ≤ 0xFFFFE000 → s.cdcEn c.val = true → bit v 0 = true → s.spmWays c.val < fld v 6 4 →
    s.flushStuck c.val (fun w => !bit v 0 || decide (8 - fld v 6 4 ≤ w)) = false →
    ∃ u, exec (.spmWaysChange c v) s = .next u ∧ u = { s with regs := u.regs, clu := u.clu, lines := u.lines } ∧ u.rb (aCdc c.val 0x104) 30 = true ∧
      u.spmWays c.val = s.spmWays c.val ∧ (u.clu? c.val).needFlush = some { reg := aCdc c.val 0x100, value := v, wait := (u.clu? c.val).wbs.length } ∧
      (∀ k, tFind u.lines k = if k / 8192 = c.val ∧ 8 - fld v 6 4 ≤ k % 8 then none else tFind s.lines k)) ∧
  (∀ (c : ClusterId) (v : Word) (s : State), s.domIsOn (domClu c.val) = true → s.pgHalted (cluPage c.val 2) = true → (s.clu? c.val).needFlush = none →
    (4 < fld v 6 4 ∨ 0xFFFFE000 < (s.rf (aCdc c.val 0x110) 15 0 + fld v 6 4) * 65536) →
    exec (.spmWaysChange c v) s = .next (s.err (cluPage c.val 2) 0 4 (fld v 6 4) 0)) ∧
  (∀ (c : ClusterId) (s : State), s.domIsOn (domClu c.val) = true → s.pgHalted (cluPage c.val 2) = true → (s.clu? c.val).needFlush = none → s.spmWays c.val ≤ 4 →
    (s.rf (aCdc c.val 0x110) 15 0 + s.spmWays c.val) * 65536 ≤ 0xFFFFE000 → s.cdcEn c.val = true →
    s.flushAllStuck c.val = false →
    ∃ u f, exec (.cacheDisable c) s = .next u ∧ u = { s with regs := u.regs, clu := u.clu, lines := u.lines } ∧ u.rb (aCdc c.val 0x104) 30 = true ∧
      (∀ k, tFind u.lines k = if k / 8192 = c.val then none else tFind s.lines k) ∧ (u.clu? c.val).victim = [] ∧
      (u.clu? c.val).needFlush = some f ∧ f.reg = aCdc c.val 0x100 ∧ bit f.value 0 = false ∧ f.wait = (u.clu? c.val).wbs.length) ∧
  (∀ (c : ClusterId) (s : State), s.domIsOn (domClu c.val) = true → s.pgHalted (cluPage c.val 2) = true → (s.clu? c.val).needFlush = none → s.spmWays c.val ≤ 4 →
    (s.rf (aCdc c.val 0x110) 15 0 + s.spmWays c.val) * 65536 ≤ 0xFFFFE000 → s.cdcEn c.val = true →
    s.flushAllStuck c.val = true →
    ∃ u, exec (.cacheDisable c) s = .next u ∧ u.reg (aCdc c.val 0x100) = s.reg (aCdc c.val 0x100) ∧ u.reg (aCdc c.val 0x104) = s.reg (aCdc c.val 0x104) ∧
      (u.clu? c.val).needFlush = none ∧ u.dram = s.dram) ∧
  (∀ (c : ClusterId) (limit : Bool) (v : Word) (s : State), s.domIsOn (domClu c.val) = true → s.pgHalted (cluPage c.val 2) = true → (s.clu? c.val).needFlush = none →
    s.flushAllStuck c.val = false →
    ∃ u, exec (.apertureChange c limit v) s = .next u ∧ u = { s with regs := u.regs, clu := u.clu, lines := u.lines } ∧ u.rb (aCdc c.val 0x104) 30 = true ∧
      (∀ k, tFind u.lines k = if k / 8192 = c.val then none else tFind s.lines k) ∧ (u.clu? c.val).victim = [] ∧
      (u.clu? c.val).needFlush = some { reg := aCdc c.val (if limit then 0x10C else 0x108), value := v, wait := (u.clu? c.val).wbs.length }) ∧
  (∀ (c : ClusterId) (v : Word) (s : State), (s.clu? c.val).needFlush = some { reg := aCdc c.val 0x108, value := v, wait := 0 } →
    ∃ u, exec (.requiredFlushDone c) s = .next u ∧ u.rf (aCdc c.val 0x108) 19 0 = fld v 19 0 ∧ u.rb (aCdc c.val 0x104) 30 = false ∧
      u.clu? c.val = { s.clu? c.val with needFlush := none } ∧ u.lines = s.lines ∧ u.dram = s.dram) ∧
  (∀ (c : ClusterId) (v : Word) (s : State), (s.clu? c.val).needFlush = some { reg := aCdc c.val 0x100, value := v, wait := 0 } →
    s.spmWays c.val < fld v 6 4 → fld v 6 4 ≤ 4 →
    ∃ u, exec (.requiredFlushDone c) s = .next u ∧ u.spmWays c.val = fld v 6 4 ∧ u.cdcEn c.val = bit v 0 ∧ u.rb (aCdc c.val 0x104) 30 = false ∧
      (u.clu? c.val).zeroing = some (s.cyc + 1056) ∧ (u.clu? c.val).needFlush = none ∧
      ∀ w o, 8 - fld v 6 4 ≤ w → w < 8 - s.spmWays c.val → o < 65536 → o % 4 = 0 → u.spmLoad c.val w o = 0) ∧
  (∀ (c : ClusterId) (e : Nat) (s : State), (s.clu? c.val).invEnd = some e →
    ∃ u, exec (.invalidationDone c) s = .next u ∧ u = { s.upToCyc e with regs := u.regs, clu := u.clu } ∧
      u.clu? c.val = { s.clu? c.val with invEnd := none } ∧ u.rb (aCdc c.val 0x104) 31 = false ∧ ∀ a, a ≠ aCdc c.val 0x104 → u.reg a = s.reg a) ∧
  (∀ (c : ClusterId) (s : State), (s.clu? c.val).invEnd = none → exec (.invalidationDone c) s = .next s) ∧
  (∀ (c : ClusterId) (limit : Bool) (v : Word) (s : State), s.domIsOn (domClu c.val) = false →
    exec (.spmWaysChange c v) s = .next s.domDeny ∧ exec (.cacheDisable c) s = .next s.domDeny ∧ exec (.apertureChange c limit v) s = .next s.domDeny)

/-- R189, R190, R192, R204: the polynomial commands of LX, fetched, run for their counts and will store what the rule computes. -/
def Obligations.PolynomialCommandsComplete : Prop :=
  (∀ (c : ClusterId) (k : CopCmd) (b : List Byte) (s s1 : State) (p : List Byte), s.copNext s1 c.val 0 0x01 k b → blkVar b < 2 → (∀ x ∈ polyOf p, x < (ringOf (blkVar b)).q) → s1.copMay c.val 0 k [arg b 0 (lxLen b) false] [arg b 1 (lxLen b) false] [p] →
    ∃ u, exec (.ntt c) s = .next u ∧
      s1.copRuns u c.val 0 k b 0 (if blkVar b = 0 then 240 else 1360) [(blkPtr b 1, polyBytes (ntt (ringOf (blkVar b)) (polyOf p)))] (s1.cop c.val 0).state (s1.cop c.val 0).valid) ∧
  (∀ (c : ClusterId) (k : CopCmd) (b : List Byte) (s s1 : State) (p : List Byte), s.copNext s1 c.val 0 0x02 k b → blkVar b < 2 → (∀ x ∈ polyOf p, x < (ringOf (blkVar b)).q) → s1.copMay c.val 0 k [arg b 0 (lxLen b) false] [arg b 1 (lxLen b) false] [p] →
    ∃ u, exec (.intt c) s = .next u ∧
      s1.copRuns u c.val 0 k b 0 (if blkVar b = 0 then 240 else 1360) [(blkPtr b 1, polyBytes (intt (ringOf (blkVar b)) (polyOf p)))] (s1.cop c.val 0).state (s1.cop c.val 0).valid) ∧
  (∀ (c : ClusterId) (k : CopCmd) (b : List Byte) (s s1 : State) (p q : List Byte), s.copNext s1 c.val 0 0x03 k b → blkVar b < 2 → (∀ x ∈ polyOf p, x < (ringOf (blkVar b)).q) → (∀ x ∈ polyOf q, x < (ringOf (blkVar b)).q) → s1.copMay c.val 0 k [arg b 0 (lxLen b) false, arg b 1 (lxLen b) false] [arg b 2 (lxLen b) false] [p, q] →
    ∃ u, exec (.pmul c) s = .next u ∧
      s1.copRuns u c.val 0 k b 0 (if blkVar b = 0 then 96 else 272) [(blkPtr b 2, polyBytes (nttMul (ringOf (blkVar b)) (polyOf p) (polyOf q)))] (s1.cop c.val 0).state (s1.cop c.val 0).valid) ∧
  (∀ (c : ClusterId) (k : CopCmd) (b : List Byte) (s s1 : State) (p q : List Byte), s.copNext s1 c.val 0 0x04 k b → blkVar b < 2 → (∀ x ∈ polyOf p, x < (ringOf (blkVar b)).q) → (∀ x ∈ polyOf q, x < (ringOf (blkVar b)).q) → s1.copMay c.val 0 k [arg b 0 (lxLen b) false, arg b 1 (lxLen b) false] [arg b 2 (lxLen b) false] [p, q] →
    ∃ u, exec (.padd c) s = .next u ∧
      s1.copRuns u c.val 0 k b 0 (if blkVar b = 0 then 40 else 136) [(blkPtr b 2, polyBytes (polyAdd (ringOf (blkVar b)).q (polyOf p) (polyOf q)))] (s1.cop c.val 0).state (s1.cop c.val 0).valid) ∧
  (∀ (c : ClusterId) (k : CopCmd) (b : List Byte) (s s1 : State) (p q : List Byte), s.copNext s1 c.val 0 0x05 k b → blkVar b < 2 → (∀ x ∈ polyOf p, x < (ringOf (blkVar b)).q) → (∀ x ∈ polyOf q, x < (ringOf (blkVar b)).q) → s1.copMay c.val 0 k [arg b 0 (lxLen b) false, arg b 1 (lxLen b) false] [arg b 2 (lxLen b) false] [p, q] →
    ∃ u, exec (.psub c) s = .next u ∧
      s1.copRuns u c.val 0 k b 0 (if blkVar b = 0 then 40 else 136) [(blkPtr b 2, polyBytes (polySub (ringOf (blkVar b)).q (polyOf p) (polyOf q)))] (s1.cop c.val 0).state (s1.cop c.val 0).valid) ∧
  (∀ (c : ClusterId) (k : CopCmd) (b : List Byte) (s s1 : State), s.copNext s1 c.val 0 0x01 k b → 2 ≤ blkVar b →
    ∃ u, exec (.ntt c) s = .next u ∧ s1.copRuns u c.val 0 k b 2 0 [] (s1.cop c.val 0).state (s1.cop c.val 0).valid) ∧
  (∀ (c : ClusterId) (k : CopCmd) (b : List Byte) (s s1 : State), s.copNext s1 c.val 0 0x04 k b → blkVar b < 2 → (arg b 2 (lxLen b) false).ok = false →
    ∃ u, exec (.padd c) s = .next u ∧ s1.copRuns u c.val 0 k b 3 0 [] (s1.cop c.val 0).state (s1.cop c.val 0).valid) ∧
  (∀ (c : ClusterId) (k : CopCmd) (b : List Byte) (s s1 : State) (p : List Byte), s.copNext s1 c.val 0 0x01 k b → blkVar b < 2 → (∃ x ∈ polyOf p, (ringOf (blkVar b)).q ≤ x) →
    s1.copMay c.val 0 k [arg b 0 (lxLen b) false] [arg b 1 (lxLen b) false] [p] →
    ∃ u, exec (.ntt c) s = .next u ∧
      s1.copRuns u c.val 0 k b 7 (if blkVar b = 0 then 240 else 1360) [] (s1.cop c.val 0).state (s1.cop c.val 0).valid)

/-- R189, R190, R192, R204: the key exchange and signature commands of LX. -/
def Obligations.LatticeSchemeCommandsComplete : Prop :=
  (∀ (c : ClusterId) (k : CopCmd) (b : List Byte) (s s1 : State) (p : List Byte), s.copNext s1 c.val 0 0x10 k b → s1.copMay c.val 0 k [arg b 0 64 true] [arg b 1 1568 false, arg b 2 3168 true] [p] →
    ∃ u, exec (.mlkemKeygen c) s = .next u ∧
      s1.copRuns u c.val 0 k b 0 9800 [(blkPtr b 1, (kemKeygen (bytesAt p 0 32) (bytesAt p 32 32)).1), (blkPtr b 2, (kemKeygen (bytesAt p 0 32) (bytesAt p 32 32)).2)] (s1.cop c.val 0).state (s1.cop c.val 0).valid) ∧
  (∀ (c : ClusterId) (k : CopCmd) (b : List Byte) (s s1 : State) (p q : List Byte), s.copNext s1 c.val 0 0x11 k b → kemEkOk p = true → s1.copMay c.val 0 k [arg b 0 1568 false, arg b 1 32 true] [arg b 2 1568 false, arg b 3 32 true] [p, q] →
    ∃ u, exec (.mlkemEncaps c) s = .next u ∧
      s1.copRuns u c.val 0 k b 0 11600 [(blkPtr b 2, (kemEncaps p q).1), (blkPtr b 3, (kemEncaps p q).2)] (s1.cop c.val 0).state (s1.cop c.val 0).valid) ∧
  (∀ (c : ClusterId) (k : CopCmd) (b : List Byte) (s s1 : State) (p q : List Byte), s.copNext s1 c.val 0 0x11 k b → kemEkOk p = false → s1.copMay c.val 0 k [arg b 0 1568 false, arg b 1 32 true] [arg b 2 1568 false, arg b 3 32 true] [p, q] →
    ∃ u, exec (.mlkemEncaps c) s = .next u ∧
      s1.copRuns u c.val 0 k b 7 11600 [] (s1.cop c.val 0).state (s1.cop c.val 0).valid) ∧
  (∀ (c : ClusterId) (k : CopCmd) (b : List Byte) (s s1 : State) (p q : List Byte), s.copNext s1 c.val 0 0x12 k b → s1.copMay c.val 0 k [arg b 0 3168 true, arg b 1 1568 false] [arg b 2 32 true] [p, q] →
    ∃ u, exec (.mlkemDecaps c) s = .next u ∧
      s1.copRuns u c.val 0 k b 0 13900 [(blkPtr b 2, kemDecaps p q)] (s1.cop c.val 0).state (s1.cop c.val 0).valid) ∧
  (∀ (c : ClusterId) (k : CopCmd) (b : List Byte) (s s1 : State) (p m g : List Byte), s.copNext s1 c.val 0 0x20 k b → blkLen b 1 ≤ 65536 → blkLen2 b ≤ 1280 → s1.copMay c.val 0 k [arg b 0 1793 false, arg b 1 (blkLen b 1) false, arg b 2 (blkLen2 b) false] [] [p, m, g] →
    ∃ u, exec (.falconVerify c) s = .next u ∧
      s1.copRuns u c.val 0 k b (if (falconVerify p m g).1 then 0 else 1) (9400 + 28 * ((40 + blkLen b 1 + 135) / 136 + (falconVerify p m g).2)) [] (s1.cop c.val 0).state (s1.cop c.val 0).valid)

/-- R189, R190, R192, R205, R206: the commands of SP, fetched, run for their counts and will store what the rules compute. -/
def Obligations.SpongeCommandsComplete : Prop :=
  (∀ (c : ClusterId) (k : CopCmd) (b : List Byte) (s s1 : State), s.copNext s1 c.val 1 0x01 k b → blkVar b < 5 → s1.copMay c.val 1 k [] [] [] →
    ∃ u, exec (.init c) s = .next u ∧
      s1.copRuns u c.val 1 k b 0 16 [] (spState spZero (blkVar b) false 0) true) ∧
  (∀ (c : ClusterId) (k : CopCmd) (b : List Byte) (s s1 : State) (p : List Byte) (r : List Byte × Nat × Nat), s.copNext s1 c.val 1 0x02 k b → blkLen b 0 ≤ 262144 → (s1.cop c.val 1).valid = true → spSqueezed (s1.cop c.val 1).state = false → r = spAbsorb (spRate (spAlg (s1.cop c.val 1).state)) ((s1.cop c.val 1).state.take 200) (spPos (s1.cop c.val 1).state) p → s1.copMay c.val 1 k [arg b 0 (blkLen b 0) false] [] [p] →
    ∃ u, exec (.absorb c) s = .next u ∧
      s1.copRuns u c.val 1 k b 0 (16 + 40 * r.2.2) [] (spState r.1 (spAlg (s1.cop c.val 1).state) false r.2.1) (s1.cop c.val 1).valid) ∧
  (∀ (c : ClusterId) (k : CopCmd) (b : List Byte) (s s1 : State), s.copNext s1 c.val 1 0x02 k b → blkLen b 0 ≤ 262144 → (arg b 0 (blkLen b 0) false).ok = true → (s1.cop c.val 1).valid = false →
    ∃ u, exec (.absorb c) s = .next u ∧ s1.copRuns u c.val 1 k b 8 0 [] (s1.cop c.val 1).state (s1.cop c.val 1).valid) ∧
  (∀ (c : ClusterId) (k : CopCmd) (b : List Byte) (s s1 : State) (r : List Byte × List Byte × Nat × Nat), s.copNext s1 c.val 1 0x03 k b → (s1.cop c.val 1).valid = true → spOutOk (spAlg (s1.cop c.val 1).state) (blkLen b 1) = true → spSqueezed (s1.cop c.val 1).state = false → r = spSqueeze (spRate (spAlg (s1.cop c.val 1).state)) (spPad (spAlg (s1.cop c.val 1).state) ((s1.cop c.val 1).state.take 200) (spPos (s1.cop c.val 1).state)) 0 (blkLen b 1) → s1.copMay c.val 1 k [] [arg b 1 (blkLen b 1) false] [] →
    ∃ u, exec (.squeeze c) s = .next u ∧
      s1.copRuns u c.val 1 k b 0 (16 + 40 * (r.2.2.2 + 1)) [(blkPtr b 1, r.1)] (spState r.2.1 (spAlg (s1.cop c.val 1).state) true r.2.2.1) (s1.cop c.val 1).valid) ∧
  (∀ (c : ClusterId) (k : CopCmd) (b : List Byte) (s s1 : State), s.copNext s1 c.val 1 0x03 k b → (s1.cop c.val 1).valid = true → spOutOk (spAlg (s1.cop c.val 1).state) (blkLen b 1) = false → (arg b 1 (blkLen b 1) false).ok = true →
    ∃ u, exec (.squeeze c) s = .next u ∧ s1.copRuns u c.val 1 k b 4 0 [] (s1.cop c.val 1).state (s1.cop c.val 1).valid) ∧
  (∀ (c : ClusterId) (k : CopCmd) (b : List Byte) (s s1 : State) (p : List Byte), s.copNext s1 c.val 1 0x04 k b → blkVar b < 5 → blkLen b 0 ≤ 262144 → spOutOk (blkVar b) (blkLen b 1) = true → s1.copMay c.val 1 k [arg b 0 (blkLen b 0) false] [arg b 1 (blkLen b 1) false] [p] →
    ∃ u, exec (.hash c) s = .next u ∧
      s1.copRuns u c.val 1 k b 0 (16 + 40 * (blkLen b 0 / spRate (blkVar b) + (blkLen b 1 + spRate (blkVar b) - 1) / spRate (blkVar b))) [(blkPtr b 1, spHash (blkVar b) p (blkLen b 1))] (s1.cop c.val 1).state (s1.cop c.val 1).valid) ∧
  (∀ (c : ClusterId) (k : CopCmd) (b : List Byte) (s s1 : State) (p : List Byte), s.copNext s1 c.val 1 0x05 k b → s1.copMay c.val 1 k [arg b 0 200 false] [arg b 1 200 false] [p] →
    ∃ u, exec (.permute c) s = .next u ∧
      s1.copRuns u c.val 1 k b 0 56 [(blkPtr b 1, keccakF p)] (s1.cop c.val 1).state (s1.cop c.val 1).valid) ∧
  (∀ (c : ClusterId) (k : CopCmd) (b : List Byte) (s s1 : State), s.copNext s1 c.val 1 0x06 k b → (blkLen b 1 = 32 ∨ blkLen b 1 = 64) → (arg b 1 (blkLen b 1) false).ok = true → s1.rngFailed = false →
    ∃ u r, exec (.rand c) s = .next u ∧ u = { s1 with cops := u.cops, draw := u.draw, rngAt := u.rngAt, sec := u.sec } ∧
      u.rngAt = max s1.rngAt s1.now + blkLen b 1 / 32 * 6000 ∧ (u.cop c.val 1).run = some r ∧ r.code = 0 ∧ r.cmd = k ∧
      r.writes.map (fun e => (e.1, e.2.length)) = [(blkPtr b 1, blkLen b 1)] ∧ (u.cop c.val 1).queue = (s.cop c.val 1).queue.drop 1)

/-- R189, R190, R192, R207: the commands of EC, fetched, run for their counts and will store what the rule computes. -/
def Obligations.CurveCommandsComplete : Prop :=
  (∀ (c : ClusterId) (k : CopCmd) (b : List Byte) (s s1 : State) (p q : List Byte) (r : Nat), s.copNext s1 c.val 2 0x01 k b → blkVar b % 2 = 0 → r = x25519Fn (leNat p) (leNat q) → s1.copMay c.val 2 k [arg b 0 32 true, arg b 1 32 false] [arg b 2 32 true] [p, q] →
    ∃ u, exec (.x25519 c) s = .next u ∧
      s1.copRuns u c.val 2 k b (if r = 0 then 7 else 0) 15968 [(blkPtr b 2, leBytes 32 r)] (s1.cop c.val 2).state (s1.cop c.val 2).valid) ∧
  (∀ (c : ClusterId) (k : CopCmd) (b : List Byte) (s s1 : State) (p : List Byte) (r : Nat), s.copNext s1 c.val 2 0x01 k b → blkVar b % 2 = 1 → r = x25519Fn (leNat p) 9 → s1.copMay c.val 2 k [arg b 0 32 true] [arg b 2 32 true] [p] →
    ∃ u, exec (.x25519 c) s = .next u ∧
      s1.copRuns u c.val 2 k b (if r = 0 then 7 else 0) 15968 [(blkPtr b 2, leBytes 32 r)] (s1.cop c.val 2).state (s1.cop c.val 2).valid) ∧
  (∀ (c : ClusterId) (k : CopCmd) (b : List Byte) (s s1 : State), s.copNext s1 c.val 2 0x01 k b → blkVar b % 2 = 0 → (∀ a ∈ [arg b 0 32 true, arg b 1 32 false, arg b 2 32 true], a.ok = true) → blkPtr b 0 < 0xC8000 →
    ∃ u, exec (.x25519 c) s = .next u ∧ s1.copRuns u c.val 2 k b 5 0 [] (s1.cop c.val 2).state (s1.cop c.val 2).valid) ∧
  (∀ (c : ClusterId) (k : CopCmd) (b : List Byte) (s s1 : State) (p q : List Byte) (r : Nat × Nat), s.copNext s1 c.val 2 0x02 k b → blkVar b % 2 = 0 → p384On (leAt q 0 48) (leAt q 48 48) = true → p384Mult (leNat p) (leAt q 0 48) (leAt q 48 48) = some r → s1.copMay c.val 2 k [arg b 0 48 true, arg b 1 96 false] [arg b 2 96 true] [p, q] →
    ∃ u, exec (.p384Mul c) s = .next u ∧
      s1.copRuns u c.val 2 k b 0 51968 [(blkPtr b 2, leBytes 48 r.1 ++ leBytes 48 r.2)] (s1.cop c.val 2).state (s1.cop c.val 2).valid) ∧
  (∀ (c : ClusterId) (k : CopCmd) (b : List Byte) (s s1 : State) (p q : List Byte), s.copNext s1 c.val 2 0x02 k b → blkVar b % 2 = 0 → p384On (leAt q 0 48) (leAt q 48 48) = false → s1.copMay c.val 2 k [arg b 0 48 true, arg b 1 96 false] [arg b 2 96 true] [p, q] →
    ∃ u, exec (.p384Mul c) s = .next u ∧
      s1.copRuns u c.val 2 k b 7 51968 [(blkPtr b 2, List.replicate 96 0)] (s1.cop c.val 2).state (s1.cop c.val 2).valid) ∧
  (∀ (c : ClusterId) (k : CopCmd) (b : List Byte) (s s1 : State) (p q : List Byte), s.copNext s1 c.val 2 0x10 k b → s1.copMay c.val 2 k [arg b 0 (ecBytes (blkVar b)) false, arg b 1 (ecBytes (blkVar b)) false] [arg b 2 (ecBytes (blkVar b)) false] [p, q] →
    ∃ u, exec (.fmul c) s = .next u ∧
      s1.copRuns u c.val 2 k b 0 (if blkVar b % 2 = 0 then 24 else 40) [(blkPtr b 2, leBytes (ecBytes (blkVar b)) (fMul (ecPrime (blkVar b)) (leNat p) (leNat q)))] (s1.cop c.val 2).state (s1.cop c.val 2).valid) ∧
  (∀ (c : ClusterId) (k : CopCmd) (b : List Byte) (s s1 : State) (p q : List Byte), s.copNext s1 c.val 2 0x11 k b → s1.copMay c.val 2 k [arg b 0 (ecBytes (blkVar b)) false, arg b 1 (ecBytes (blkVar b)) false] [arg b 2 (ecBytes (blkVar b)) false] [p, q] →
    ∃ u, exec (.fadd c) s = .next u ∧
      s1.copRuns u c.val 2 k b 0 (if blkVar b % 2 = 0 then 8 else 12) [(blkPtr b 2, leBytes (ecBytes (blkVar b)) (fAdd (ecPrime (blkVar b)) (leNat p) (leNat q)))] (s1.cop c.val 2).state (s1.cop c.val 2).valid) ∧
  (∀ (c : ClusterId) (k : CopCmd) (b : List Byte) (s s1 : State) (p q : List Byte), s.copNext s1 c.val 2 0x12 k b → s1.copMay c.val 2 k [arg b 0 (ecBytes (blkVar b)) false, arg b 1 (ecBytes (blkVar b)) false] [arg b 2 (ecBytes (blkVar b)) false] [p, q] →
    ∃ u, exec (.fsub c) s = .next u ∧
      s1.copRuns u c.val 2 k b 0 (if blkVar b % 2 = 0 then 8 else 12) [(blkPtr b 2, leBytes (ecBytes (blkVar b)) (fSub (ecPrime (blkVar b)) (leNat p) (leNat q)))] (s1.cop c.val 2).state (s1.cop c.val 2).valid) ∧
  (∀ (c : ClusterId) (k : CopCmd) (b : List Byte) (s s1 : State) (p : List Byte), s.copNext s1 c.val 2 0x13 k b → leNat p % ecPrime (blkVar b) ≠ 0 → s1.copMay c.val 2 k [arg b 0 (ecBytes (blkVar b)) false] [arg b 1 (ecBytes (blkVar b)) false] [p] →
    ∃ u, exec (.finv c) s = .next u ∧
      s1.copRuns u c.val 2 k b 0 (if blkVar b % 2 = 0 then 1600 else 2600) [(blkPtr b 1, leBytes (ecBytes (blkVar b)) (fInv (ecPrime (blkVar b)) (leNat p)))] (s1.cop c.val 2).state (s1.cop c.val 2).valid)

/-- R189, R190, R192, R208 to R210: the commands of KW, fetched, run for their counts and will store what the rules compute. -/
def Obligations.KeyWrapCommandsComplete : Prop :=
  (∀ (c : ClusterId) (k : CopCmd) (b : List Byte) (s s1 : State) (p : List Byte), s.copNext s1 c.val 3 0x01 k b → (blkLen b 0 = 16 ∨ blkLen b 0 = 32) → s1.copMay c.val 3 k [arg b 0 (blkLen b 0) true] [] [p] →
    ∃ u, exec (.keyset c) s = .next u ∧
      s1.copRuns u c.val 3 k b 0 32 [] p true) ∧
  (∀ (c : ClusterId) (k : CopCmd) (b : List Byte) (s s1 : State) (p : List Byte), s.copNext s1 c.val 3 0x02 k b → blkVar b = 0 → blkLen b 0 % 8 = 0 → 16 ≤ blkLen b 0 → (s1.kekOf c.val b) ≠ [] → s1.copMay c.val 3 k [arg b 0 (blkLen b 0) true] [arg b 1 ((blkLen b 0 + 15) / 8 * 8) false] [p] →
    ∃ u, exec (.wrap c) s = .next u ∧
      s1.copRuns u c.val 3 k b 0 (48 + 6 * (blkLen b 0 / 8) * kwA (s1.kekOf c.val b)) [(blkPtr b 1, kwWrap (s1.kekOf c.val b) kwIv p)] (s1.cop c.val 3).state (s1.cop c.val 3).valid) ∧
  (∀ (c : ClusterId) (k : CopCmd) (b : List Byte) (s s1 : State) (p : List Byte), s.copNext s1 c.val 3 0x02 k b → blkVar b = 1 → 1 ≤ blkLen b 0 → blkLen b 0 ≤ 512 → (s1.kekOf c.val b) ≠ [] → s1.copMay c.val 3 k [arg b 0 (blkLen b 0) true] [arg b 1 ((blkLen b 0 + 15) / 8 * 8) false] [p] →
    ∃ u, exec (.wrap c) s = .next u ∧
      s1.copRuns u c.val 3 k b 0 (if blkLen b 0 ≤ 8 then 48 + kwA (s1.kekOf c.val b) else 48 + 6 * ((blkLen b 0 + 7) / 8) * kwA (s1.kekOf c.val b)) [(blkPtr b 1, kwpWrap (s1.kekOf c.val b) p)] (s1.cop c.val 3).state (s1.cop c.val 3).valid) ∧
  (∀ (c : ClusterId) (k : CopCmd) (b : List Byte) (s s1 : State), s.copNext s1 c.val 3 0x02 k b → blkVar b = 1 → 1 ≤ blkLen b 0 → blkLen b 0 ≤ 512 → (∀ a ∈ [arg b 0 (blkLen b 0) true, arg b 1 ((blkLen b 0 + 15) / 8 * 8) false], a.ok = true ∧ a.keyOk = true) → (s1.kekOf c.val b) = [] →
    ∃ u, exec (.wrap c) s = .next u ∧ s1.copRuns u c.val 3 k b 0x0A 0 [] (s1.cop c.val 3).state (s1.cop c.val 3).valid) ∧
  (∀ (c : ClusterId) (k : CopCmd) (b : List Byte) (s s1 : State) (p : List Byte) (q : List Byte), s.copNext s1 c.val 3 0x03 k b → blkVar b = 0 → blkLen b 0 % 8 = 0 → 24 ≤ blkLen b 0 → (s1.kekOf c.val b) ≠ [] → kwUnwrapOk (s1.kekOf c.val b) p = some q → s1.copMay c.val 3 k [arg b 0 (blkLen b 0) false] [arg b 1 (blkLen b 0 - 8) true] [p] →
    ∃ u, exec (.unwrap c) s = .next u ∧
      s1.copRuns u c.val 3 k b 0 (48 + 6 * (blkLen b 0 / 8 - 1) * kwA (s1.kekOf c.val b)) [(blkPtr b 1, padTo (8 * (blkLen b 0 / 8 - 1)) q)] (s1.cop c.val 3).state (s1.cop c.val 3).valid) ∧
  (∀ (c : ClusterId) (k : CopCmd) (b : List Byte) (s s1 : State) (p : List Byte), s.copNext s1 c.val 3 0x03 k b → blkVar b = 0 → blkLen b 0 % 8 = 0 → 24 ≤ blkLen b 0 → (s1.kekOf c.val b) ≠ [] → kwUnwrapOk (s1.kekOf c.val b) p = none → s1.copMay c.val 3 k [arg b 0 (blkLen b 0) false] [arg b 1 (blkLen b 0 - 8) true] [p] →
    ∃ u, exec (.unwrap c) s = .next u ∧
      s1.copRuns u c.val 3 k b 0x0B (48 + 6 * (blkLen b 0 / 8 - 1) * kwA (s1.kekOf c.val b)) [(blkPtr b 1, List.replicate (8 * (blkLen b 0 / 8 - 1)) 0)] (s1.cop c.val 3).state (s1.cop c.val 3).valid) ∧
  (∀ (c : ClusterId) (k : CopCmd) (b : List Byte) (s s1 : State) (p q : List Byte), s.copNext s1 c.val 3 0x04 k b → blkVar b = 0 → blkLen b 0 % 8 = 0 → 24 ≤ blkLen b 0 → (s1.kekOf c.val b) ≠ [] →
    kwUnwrapOk (s1.kekOf c.val b) p = some q → (q.length = 16 ∨ q.length = 32) → s1.copMay c.val 3 k [arg b 0 (blkLen b 0) false] [] [p] →
    ∃ u r, exec (.vaultUnwrap c) s = .next u ∧ u = { s1 with cops := u.cops, draw := u.draw } ∧ (u.cop c.val 3).run = some r ∧ r.code = 0 ∧
      r.vault = some (blkParam b 1 % 2 ^ 20, q) ∧ r.writes = [] ∧ r.cmd = k ∧ (u.cop c.val 3).queue = (s.cop c.val 3).queue.drop 1) ∧
  (∀ (c : ClusterId) (k : CopCmd) (b : List Byte) (s s1 : State) (p q : List Byte), s.copNext s1 c.val 3 0x05 k b → ownKey b = false → (s1.cop c.val 3).valid = true → s1.copMay c.val 3 k [arg b 0 12 false, arg b 1 (blkLen b 1) false] [arg b 2 16 false] [p, q] →
    ∃ u, exec (.gmac c) s = .next u ∧
      s1.copRuns u c.val 3 k b 0 (40 + kwA (s1.cop c.val 3).state + 2 * ((blkLen b 1 + 15) / 16)) [(blkPtr b 2, gcmTag (s1.cop c.val 3).state p q [])] (s1.cop c.val 3).state (s1.cop c.val 3).valid) ∧
  (∀ (c : ClusterId) (k : CopCmd) (b : List Byte) (s s1 : State) (p q key : List Byte), s.copNext s1 c.val 3 0x05 k b → ownKey b = true → (blkLen2 b = 16 ∨ blkLen2 b = 32) → s1.copMay c.val 3 k [arg b 0 12 false, arg b 1 (blkLen b 1) false, arg b 3 (blkLen2 b) true] [arg b 2 16 false] [p, q, key] →
    ∃ u, exec (.gmac c) s = .next u ∧
      s1.copRuns u c.val 3 k b 0 (40 + kwA key + 2 * ((blkLen b 1 + 15) / 16)) [(blkPtr b 2, gcmTag key p q [])] (s1.cop c.val 3).state (s1.cop c.val 3).valid) ∧
  (∀ (c : ClusterId) (k : CopCmd) (b : List Byte) (s s1 : State) (p : List Byte), s.copNext s1 c.val 3 0x06 k b → ownKey b = false → (s1.cop c.val 3).valid = true → s1.copMay c.val 3 k [arg b 0 16 false] [arg b 1 16 false] [p] →
    ∃ u, exec (.aesBlock c) s = .next u ∧
      s1.copRuns u c.val 3 k b 0 (24 + kwA (s1.cop c.val 3).state) [(blkPtr b 1, if blkVar b % 2 = 1 then aesDec (s1.cop c.val 3).state p else aesEnc (s1.cop c.val 3).state p)] (s1.cop c.val 3).state (s1.cop c.val 3).valid) ∧
  (∀ (c : ClusterId) (k : CopCmd) (b : List Byte) (s s1 : State) (p key : List Byte), s.copNext s1 c.val 3 0x06 k b → ownKey b = true → (blkLen2 b = 16 ∨ blkLen2 b = 32) → s1.copMay c.val 3 k [arg b 0 16 false, arg b 3 (blkLen2 b) true] [arg b 1 16 false] [p, key] →
    ∃ u, exec (.aesBlock c) s = .next u ∧
      s1.copRuns u c.val 3 k b 0 (24 + kwA key) [(blkPtr b 1, if blkVar b % 2 = 1 then aesDec key p else aesEnc key p)] (s1.cop c.val 3).state (s1.cop c.val 3).valid)

/-- R185, R190 to R192, R196, R203: a save, a restore, and the completion of a command. -/
def Obligations.CoprocessorContextCommandsComplete : Prop :=
  (∀ (c : ClusterId) (n : Fin 4) (k : CopCmd) (s s1 : State), (s.cop c.val n.val).run = none → (s.cop c.val n.val).queue.head? = some k →
    k.kind = 1 → s1 = s.upToCyc (max k.at_ (s.cop c.val n.val).freeAt) → (saveArg n.val k.ptr).ok = true → (saveArg n.val k.ptr).keyOk = true →
    s.rb (ra (cluPage c.val 4) 0x110) n.val = false →
    ∃ u r, exec (.csave c n) s = .next u ∧ u = { s1 with cops := u.cops } ∧ (u.cop c.val n.val).run = some r ∧ r.cmd = k ∧ r.code = 0 ∧ r.count = 48 ∧
      r.writes = [(k.ptr, saveImage n.val (s.cop c.val n.val))] ∧ r.state = (s.cop c.val n.val).state ∧ r.valid = (s.cop c.val n.val).valid ∧
      r.due = max k.at_ (s.cop c.val n.val).freeAt + 80) ∧
  (∀ (c : ClusterId) (n : Fin 4) (k : CopCmd) (x : Cop) (s s1 : State), (s.cop c.val n.val).run = none → (s.cop c.val n.val).queue.head? = some k →
    k.kind = 2 → s1 = s.upToCyc (max k.at_ (s.cop c.val n.val).freeAt) → s1.copMay c.val n.val k [saveArg n.val k.ptr] [] [saveImage n.val x] →
    x.state.length ≤ 250 → s.rb (ra (cluPage c.val 4) 0x110) n.val = false →
    ∃ u r, exec (.crestore c n) s = .next u ∧ u = { s1 with cops := u.cops } ∧ (u.cop c.val n.val).run = some r ∧ r.cmd = k ∧ r.code = 0 ∧ r.count = 48 ∧
      r.writes = [] ∧ r.state = x.state ∧ r.valid = x.valid ∧ r.due = max k.at_ (s.cop c.val n.val).freeAt + 80) ∧
  (∀ (c : ClusterId) (n : Fin 4) (k : CopCmd) (p : List Byte) (s s1 : State), (s.cop c.val n.val).run = none → (s.cop c.val n.val).queue.head? = some k →
    k.kind = 2 → s1 = s.upToCyc (max k.at_ (s.cop c.val n.val).freeAt) → s1.copMay c.val n.val k [saveArg n.val k.ptr] [] [p] →
    leAt p 0 4 ≠ saveWord0 n.val (p.drop 4) →
    ∃ u r, exec (.crestore c n) s = .next u ∧ (u.cop c.val n.val).run = some r ∧ r.code = 9 ∧ r.state = [] ∧ r.valid = false) ∧
  (∀ (c : ClusterId) (n : Fin 4) (r : CopRun) (o : Nat) (b : List Byte) (s : State), (s.cop c.val n.val).run = some r → r.writes = [(o, b)] →
    r.vault = none → r.cmd.kind = 0 → r.cmd.gone = false → r.code < 256 → (s.clu? c.val).collides r.due o b.length = false →
    (s.clu? c.val).collides r.due (r.cmd.ptr + 4) 4 = false → (∀ a ∈ (s.clu? c.val).acc, a.g ≤ r.due) → (∀ a ∈ (s.clu? c.val).bacc, a.g ≤ r.due) →
    (∀ m, m < 4 → ∀ k ∈ (s.cop c.val m).head?, (s.upToCyc r.due).cyc < (s.cop c.val m).fetchAt k) →
    s.cmemMergeOk c.val o b.length = true → (s.cmemPut c.val o b).cmemMergeOk c.val (r.cmd.ptr + 4) 4 = true →
    (s.th r.cmd.thread).st = .running → r.cmd.sb < 16 →
    ∃ u, exec (.cpCommandDone c n) s = .next u ∧
      u = { s with now := max s.now (s.cycTick r.due), cmem := u.cmem, thr := u.thr, cops := u.cops, regs := u.regs, hw := u.hw, clu := u.clu } ∧
      u.cmem = ((s.cmemPut c.val o b).cmemPut c.val (r.cmd.ptr + 4) (leBytes 4 (r.code * 2 ^ 24 + min 0xFFFF (r.count / 16)))).cmem ∧
      (u.th r.cmd.thread).resv (0x300 + 16 * n.val) = nw (r.code * 2 ^ 24 + min 0xFFFF (r.count / 16)) ∧
      (u.th r.cmd.thread).sb.getLsbD r.cmd.sb = true ∧ (u.th r.cmd.thread).sbOwned.getLsbD r.cmd.sb = false ∧
      u.cop c.val n.val = { s.cop c.val n.val with run := none, freeAt := r.due, lastOpc := r.opc, owner := ownerOf r.cmd.thread, state := r.state, valid := r.valid }) ∧
  (∀ (c : ClusterId) (n : Fin 4) (r : CopRun) (s : State), (s.cop c.val n.val).run = some r → r.writes = [] → r.vault = none → r.cmd.kind = 0 →
    r.cmd.gone = false → r.code < 256 → (s.clu? c.val).collides r.due (r.cmd.ptr + 4) 4 = true → (∀ a ∈ (s.clu? c.val).acc, a.g ≤ r.due) →
    (∀ a ∈ (s.clu? c.val).bacc, a.g ≤ r.due) →
    (∀ m, m < 4 → ∀ k ∈ (s.cop c.val m).head?, (s.upToCyc r.due).cyc < (s.cop c.val m).fetchAt k) →
    ∃ u, exec (.cpCommandDone c n) s = .next u ∧
      (u.th r.cmd.thread).resv (0x300 + 16 * n.val) = nw (r.code * 2 ^ 24 + min 0xFFFF (r.count / 16) + 2 ^ 23)) ∧
  (∀ (c : ClusterId) (n : Fin 4) (r : CopRun) (s : State), (s.cop c.val n.val).run = some r → r.cmd.gone = true →
    (∀ a ∈ (s.clu? c.val).acc, a.g ≤ r.due) → (∀ a ∈ (s.clu? c.val).bacc, a.g ≤ r.due) →
    (∀ m, m < 4 → ∀ k ∈ (s.cop c.val m).head?, (s.upToCyc r.due).cyc < (s.cop c.val m).fetchAt k) →
    ∃ u, exec (.cpCommandDone c n) s = .next u ∧ u.thr = s.thr ∧ (u.cop c.val n.val).run = none)

/-- R218 to R221: commands enter the staging of a Teller in the order of their sources. -/
def Obligations.TellerStagingComplete : Prop :=
  (∀ (r : RegionId) (e : Stage) (q : List Stage) (s : State), (∀ x ∈ (s.teller r.val).stage, 1 ≤ x.op ∧ x.op ≤ 5) →
    (s.teller r.val).stage.length < 64 → (s.teller r.val).dues = e :: q → e.thread = none →
    ∃ u, exec (.tellerStage r) s = .next u ∧ u = { s with tellers := u.tellers } ∧
      u.teller r.val = { s.teller r.val with dues := q, stage := (s.teller r.val).stage ++ [e] }) ∧
  (∀ (r : RegionId) (i : Nat) (s : State), (∀ x ∈ (s.teller r.val).stage, 1 ≤ x.op ∧ x.op ≤ 5) → (s.teller r.val).stage.length < 64 →
    (s.teller r.val).dues = [] → s.bindPend r.val = some i →
    ∃ u, exec (.tellerStage r) s = .next u ∧ u = { s with tellers := u.tellers, regs := u.regs } ∧ u.rb (aTel r.val (0x800 + 4 * i)) 30 = false ∧
      u.teller r.val = { s.teller r.val with stage := (s.teller r.val).stage ++
        [{ op := 2, prio := 0, tcb := s.rf (aTel r.val (0x800 + 4 * i)) 11 0, reason := 2, aux := i, thread := none }] }) ∧
  (∀ (r : RegionId) (cons n a : Nat) (b : List Byte) (p : Bool) (s : State), (∀ x ∈ (s.teller r.val).stage, 1 ≤ x.op ∧ x.op ≤ 5) →
    (s.teller r.val).stage.length < 64 → (s.teller r.val).dues = [] → s.bindPend r.val = none → cons = s.rf (aTel r.val 0x120) 15 0 →
    n = s.rf (aTel r.val 0x118) 4 0 → s.rf (aTel r.val 0x11C) 15 0 % 2 ^ n ≠ cons % 2 ^ n → n ≤ 16 →
    a = s.rf (aTel r.val 0x110) 31 12 * 4096 + (s.reg (aTel r.val 0x114)).toNat * 2 ^ 32 + 4 * (cons % 2 ^ n) → s.dramRead a 4 = (b, p, s) →
    ∃ u, exec (.tellerStage r) s = .next u ∧ u = { s with tellers := u.tellers, regs := u.regs } ∧
      u.rf (aTel r.val 0x120) 15 0 = (cons + 1) % 2 ^ n ∧
      (u.teller r.val).stage = (s.teller r.val).stage ++ [{ op := fld (leWord b) 31 28, prio := fld (leWord b) 27 22, tcb := fld (leWord b) 11 0, reason := 1, aux := 0, thread := none }]) ∧
  (∀ (r : RegionId) (n : Nat) (e : Stage) (a q : List Stage) (t sb : Nat) (s : State), (∀ x ∈ (s.teller r.val).stage, 1 ≤ x.op ∧ x.op ≤ 5) →
    (s.teller r.val).stage.length < 64 → (s.teller r.val).dues = [] → s.bindPend r.val = none →
    n = s.rf (aTel r.val 0x118) 4 0 → s.rf (aTel r.val 0x11C) 15 0 % 2 ^ n = s.rf (aTel r.val 0x120) 15 0 % 2 ^ n →
    (s.teller r.val).waiting = a ++ e :: q → e.thread = some (t, sb) → sb < 16 →
    (∀ x ∈ a, ∃ k, x.thread = some k ∧ rotRank 32 (t / 8) s.cyc < rotRank 32 (k.1 / 8) s.cyc) →
    (∀ x ∈ q, ∃ k, x.thread = some k ∧ rotRank 32 (t / 8) s.cyc ≤ rotRank 32 (k.1 / 8) s.cyc) →
    ∃ u, exec (.tellerStage r) s = .next u ∧ u = { s with tellers := u.tellers, thr := u.thr, clu := u.clu } ∧
      u.teller r.val = { s.teller r.val with waiting := a ++ q, stage := (s.teller r.val).stage ++ [e] } ∧
      (u.th t).sb.getLsbD sb = true ∧ (u.th t).sbOwned.getLsbD sb = false) ∧
  (∀ (r : RegionId) (i : BitVec 16) (s : State), ∃ u, exec (.telHcmdProd r i) s = .next u ∧ u = { s with regs := u.regs } ∧
    u.rf (aTel r.val 0x11C) 15 0 = i.toNat ∧ ∀ a, a ≠ aTel r.val 0x11C → u.reg a = s.reg a) ∧
  (∀ (r : RegionId) (i : Fin 512) (s : State), s.rb (aTel r.val (0x800 + 4 * i.val)) 31 = true →
    ∃ u, exec (.bindingFire r i) s = .next u ∧ u = { s with regs := u.regs } ∧ u.rb (aTel r.val (0x800 + 4 * i.val)) 30 = true ∧
      ∀ a, a ≠ aTel r.val (0x800 + 4 * i.val) → u.reg a = s.reg a) ∧
  (∀ (r : RegionId) (i : Fin 512) (s : State), s.rb (aTel r.val (0x800 + 4 * i.val)) 31 = false → exec (.bindingFire r i) s = .next s) ∧
  (∀ (r : RegionId) (n : Nat) (x : Tcb) (s v : State), v = s.upToCyc (roundCeil s.cycCeil) → (r.val * 4096 + n, x) ∈ s.tcbs → n < 4096 → x.state = 3 →
    x.deadline ≠ 0 → x.deadline ≤ v.tb → (∀ d ∈ (s.teller r.val).dues, ¬(d.tcb = n ∧ d.reason = 3)) →
    ∃ u, exec (.deadlineWake r) s = .next u ∧ u = { v with tellers := u.tellers } ∧
      { op := 2, prio := 0, tcb := n, reason := 3, aux := 0, thread := none } ∈ (u.teller r.val).dues)

/-- R215 to R218, R220, R224: a command at the head of the staging is applied.
What becomes of a PARK whose issuer has left is the model's choice (log entry 210). -/
def Obligations.TellerCommandsComplete : Prop :=
  (∀ (r : RegionId) (e : Stage) (q : List Stage) (b : List Byte) (s v w : State), (s.teller r.val).stage = e :: q → e.op = 1 →
    v = s.setTeller r.val (fun k => { k with stage := q }) → v.dramRead (v.tcbAddr r.val e.tcb 0) 8 = (b, false, w) →
    ((s.tcb r.val e.tcb).state = 0 ∨ (s.tcb r.val e.tcb).state = 4 ∨ (s.tcb r.val e.tcb).state = 5) → bit (leWord b) 31 = true → fld (leWord b) 23 20 = 0 →
    ∃ u, exec (.activate r) s = .next u ∧
      u = { s with tcbs := u.tcbs, tellers := u.tellers, dram := u.dram, regs := u.regs, hw := u.hw, arrived := u.arrived, fmgq := u.fmgq, out := u.out, linkErr := u.linkErr, draw := u.draw } ∧
      u.tcb r.val e.tcb = { ctrl := setFld (leWord b) 23 20 1, place := leWord (b.drop 4), deadline := 0, ctx := none, since := 0, newPrio := none } ∧
      (∀ j, j ≠ r.val * 4096 + e.tcb → tGet (fun _ => Tcb.fresh) u.tcbs j = tGet (fun _ => Tcb.fresh) s.tcbs j) ∧
      (u.teller r.val).stage = q ∧ (u.teller r.val).ready = (s.teller r.val).ready ++ [(fld (leWord b) 29 24, e.tcb)]) ∧
  (∀ (r : RegionId) (e : Stage) (q : List Stage) (b : List Byte) (p : Bool) (s v w : State), (s.teller r.val).stage = e :: q → e.op = 1 →
    v = s.setTeller r.val (fun k => { k with stage := q }) → v.dramRead (v.tcbAddr r.val e.tcb 0) 8 = (b, p, w) →
    ((s.tcb r.val e.tcb).state = 1 ∨ (s.tcb r.val e.tcb).state = 2 ∨ (s.tcb r.val e.tcb).state = 3 ∨ bit (leWord b) 31 = false ∨ fld (leWord b) 23 20 ≠ 0) →
    ∃ u, exec (.activate r) s = .next u ∧ u.tcbs = s.tcbs ∧ u.teller r.val = { s.teller r.val with stage := q } ∧
      u.rf (aTel r.val 0x148) 15 0 = min 65535 (w.rf (aTel r.val 0x148) 15 0 + 1)) ∧
  (∀ (r : RegionId) (e : Stage) (q : List Stage) (x : Tcb) (p : Nat) (s : State), (s.teller r.val).stage = e :: q → e.op = 2 → x = s.tcb r.val e.tcb →
    x.state = 3 → p = x.newPrio.getD x.prio → p < 64 →
    ∃ u, exec (.wake r) s = .next u ∧
      u = { s with tcbs := u.tcbs, tellers := u.tellers, dram := u.dram, regs := u.regs, hw := u.hw, arrived := u.arrived, fmgq := u.fmgq, out := u.out, linkErr := u.linkErr, draw := u.draw } ∧
      u.tcb r.val e.tcb = { x with ctrl := setFld (setFld x.ctrl 23 20 1) 29 24 p, ctx := none, newPrio := none } ∧
      (u.teller r.val).stage = q ∧ (u.teller r.val).ready = (s.teller r.val).ready ++ [(p, e.tcb)]) ∧
  (∀ (r : RegionId) (e : Stage) (q : List Stage) (s : State), (s.teller r.val).stage = e :: q → e.op = 2 →
    ((s.tcb r.val e.tcb).state = 0 ∨ 3 < (s.tcb r.val e.tcb).state) → exec (.wake r) s = .next (s.setTeller r.val fun k => { k with stage := q })) ∧
  (∀ (r : RegionId) (e : Stage) (q : List Stage) (s : State), (s.teller r.val).stage = e :: q → e.op = 2 →
    ((s.tcb r.val e.tcb).state = 1 ∨ (s.tcb r.val e.tcb).state = 2) →
    ∃ u, exec (.wake r) s = .next u ∧ (u.tcb r.val e.tcb).wakePend = true ∧ (u.tcb r.val e.tcb).state = (s.tcb r.val e.tcb).state ∧
      u.teller r.val = { s.teller r.val with stage := q }) ∧
  (∀ (r : RegionId) (e : Stage) (q : List Stage) (t n : Nat) (s : State), (s.teller r.val).stage = e :: q → e.op = 3 → e.own = some n →
    (s.tcb r.val n).state = 2 → (s.tcb r.val n).ctx = some t → s.hasKid t = false → (s.tcb r.val n).wakePend = false →
    ∃ u, exec (.park r) s = .next u ∧ u.th t = { s.th t with saveReq := some (3, 0) } ∧ (∀ j, j ≠ t → u.th j = s.th j) ∧ (u.teller r.val).stage = q) ∧
  (∀ (r : RegionId) (e : Stage) (q : List Stage) (t n : Nat) (s : State), (s.teller r.val).stage = e :: q → e.op = 3 → e.own = some n →
    (((s.tcb r.val n).state = 2 ∧ (s.tcb r.val n).ctx = some t ∧ s.hasKid t = false) ∨ (s.tcb r.val n).state = 1) → (s.tcb r.val n).wakePend = true →
    ∃ u, exec (.park r) s = .next u ∧ u.thr = s.thr ∧ u.tcb r.val n = { s.tcb r.val n with ctrl := setBit (s.tcb r.val n).ctrl 30 false } ∧
      u.teller r.val = { s.teller r.val with stage := q }) ∧
  (∀ (r : RegionId) (e : Stage) (q : List Stage) (n : Nat) (b : List Byte) (p : Bool) (s v w : State), (s.teller r.val).stage = e :: q → e.op = 3 →
    e.own = some n → (s.tcb r.val n).state = 1 → (s.tcb r.val n).wakePend = false →
    v = (s.setTeller r.val fun k => { k with stage := q }).setTeller r.val
      (fun k => { k with ready := k.ready.filter (fun e => e.2 ≠ n), noPlace := k.noPlace.filter (· ≠ n) }) →
    v.dramRead (v.tcbAddr r.val n 8) 8 = (b, p, w) →
    ∃ u, exec (.park r) s = .next u ∧ u.thr = s.thr ∧ (u.tcb r.val n).state = 3 ∧ (u.tcb r.val n).ctx = none ∧ (u.tcb r.val n).deadline = leNat b ∧
      (u.teller r.val).stage = q ∧ (u.teller r.val).ready = (s.teller r.val).ready.filter fun x => x.2 ≠ n) ∧
  (∀ (r : RegionId) (e : Stage) (q : List Stage) (n : Nat) (s : State), (s.teller r.val).stage = e :: q → e.op = 3 → e.own = some n →
    ((s.tcb r.val n).state = 0 ∨ 3 ≤ (s.tcb r.val n).state ∨ ((s.tcb r.val n).state = 2 ∧ ∀ t ∈ (s.tcb r.val n).ctx, s.hasKid t = true)) →
    ∃ u, exec (.park r) s = .next u ∧ u = { s with tellers := u.tellers, regs := u.regs, hw := u.hw } ∧
      u.rf (aTel r.val 0x148) 15 0 = min 65535 (s.rf (aTel r.val 0x148) 15 0 + 1)) ∧
  (∀ (r : RegionId) (e : Stage) (q : List Stage) (s : State), (s.teller r.val).stage = e :: q → e.op = 3 → e.own = none →
    ∃ u, exec (.park r) s = .next u ∧ u = { s with tellers := u.tellers, regs := u.regs, hw := u.hw } ∧
      u.rf (aTel r.val 0x148) 15 0 = min 65535 (s.rf (aTel r.val 0x148) 15 0 + 1)) ∧
  (∀ (r : RegionId) (e : Stage) (q : List Stage) (s : State), (s.teller r.val).stage = e :: q → e.op = 4 → e.prio < 64 → (s.tcb r.val e.tcb).state = 1 →
    ∃ u, exec (.setprio r) s = .next u ∧ (u.tcb r.val e.tcb).prio = e.prio ∧ (u.tcb r.val e.tcb).state = 1 ∧
      (u.teller r.val).ready = (s.teller r.val).ready.filter (fun x => x.2 ≠ e.tcb) ++ [(e.prio, e.tcb)] ∧ (u.teller r.val).stage = q) ∧
  (∀ (r : RegionId) (e : Stage) (q : List Stage) (s : State), (s.teller r.val).stage = e :: q → e.op = 4 →
    ((s.tcb r.val e.tcb).state = 2 ∨ (s.tcb r.val e.tcb).state = 3) →
    ∃ u, exec (.setprio r) s = .next u ∧ u.tcb r.val e.tcb = { s.tcb r.val e.tcb with newPrio := some e.prio } ∧
      (u.teller r.val).ready = (s.teller r.val).ready ∧ (u.teller r.val).stage = q) ∧
  (∀ (r : RegionId) (e : Stage) (q : List Stage) (s : State), (s.teller r.val).stage = e :: q → e.op = 5 →
    ((s.tcb r.val e.tcb).state = 1 ∨ (s.tcb r.val e.tcb).state = 3) →
    ∃ u, exec (.kill r) s = .next u ∧
      u = { s with tcbs := u.tcbs, tellers := u.tellers, dram := u.dram, regs := u.regs, hw := u.hw, arrived := u.arrived, fmgq := u.fmgq, out := u.out, linkErr := u.linkErr, draw := u.draw } ∧
      (u.tcb r.val e.tcb).state = 5 ∧ (u.teller r.val).stage = q ∧ (u.teller r.val).ready = (s.teller r.val).ready.filter fun x => x.2 ≠ e.tcb) ∧
  (∀ (r : RegionId) (e : Stage) (q : List Stage) (t : Nat) (s : State), (s.teller r.val).stage = e :: q → e.op = 5 → (s.tcb r.val e.tcb).state = 2 →
    (s.tcb r.val e.tcb).ctx = some t → rgnOf t = r.val → tFind (s.teller r.val).restore t = none → (s.th t).st ≠ .resetting → (s.th t).st ≠ .idle →
    ∃ u, exec (.kill r) s = .next u ∧ (u.th t).st = .resetting ∧ (u.th t).killBy = 1 ∧ (u.teller r.val).stage = q) ∧
  (∀ (r : RegionId) (e : Stage) (q : List Stage) (t : Nat) (s : State), (s.teller r.val).stage = e :: q → e.op = 5 → (s.tcb r.val e.tcb).state = 2 →
    (s.tcb r.val e.tcb).ctx = some t → tFind (s.teller r.val).restore t = some e.tcb →
    ∃ u, exec (.kill r) s = .next u ∧
      u = { s with tcbs := u.tcbs, tellers := u.tellers, dram := u.dram, regs := u.regs, hw := u.hw, arrived := u.arrived, fmgq := u.fmgq, out := u.out, linkErr := u.linkErr, draw := u.draw } ∧
      (u.tcb r.val e.tcb).state = 5 ∧ (u.tcb r.val e.tcb).ctx = none ∧ tFind (u.teller r.val).restore t = none ∧ (u.teller r.val).stage = q)

/-- R215, R222 to R227, R448: PLACEMENT, QUANTUM_EXPIRY, SAVE and RESTORE complete in every state: the head of the ready lists is dispatched, or
a thread is preempted for it; a thread whose quantum has ended is preempted; a context is saved, and restored. -/
def Obligations.TellerDispatchComplete : Prop :=
  (∀ (r : RegionId) (s : State), ∃ u, exec (.placement r) s = .next u ∧
    u = { s with thr := u.thr, tcbs := u.tcbs, tellers := u.tellers, dram := u.dram, regs := u.regs, hw := u.hw, arrived := u.arrived, fmgq := u.fmgq, out := u.out, clu := u.clu,
                 linkErr := u.linkErr, draw := u.draw }) ∧
  (∀ (r : RegionId) (p n t why : Nat) (s : State), s.readyHead r.val = some (p, n) → s.findPlace r.val (s.tcb r.val n).place = some (t, why) →
    ∃ u, exec (.placement r) s = .next u ∧ u.thr = s.thr ∧
      (u.tcb r.val n).state = 2 ∧ (u.tcb r.val n).ctx = some t ∧ (u.tcb r.val n).since = s.cyc ∧ bit (u.tcb r.val n).place 31 = true ∧
      (t < 4096 → fld (u.tcb r.val n).place 13 0 = 2 * t) ∧ tFind (u.teller r.val).restore t = some n ∧
      (u.teller r.val).ready = (s.teller r.val).ready.filter fun e => e.2 ≠ n) ∧
  (∀ (r : RegionId) (p n t : Nat) (s : State), s.readyHead r.val = some (p, n) → s.findPlace r.val (s.tcb r.val n).place = none →
    s.preempting r.val n = false → pickVictim (s.victims r.val p (s.allowed r.val (s.tcb r.val n).place)) = some t →
    ∃ u, exec (.placement r) s = .next u ∧ u.th t = { s.th t with saveReq := some (0, n) } ∧ (∀ j, j ≠ t → u.th j = s.th j) ∧ u.tcbs = s.tcbs) ∧
  (∀ (r : RegionId) (p n : Nat) (s : State), s.readyHead r.val = some (p, n) → s.findPlace r.val (s.tcb r.val n).place = none →
    (s.preempting r.val n = true ∨ s.victims r.val p (s.allowed r.val (s.tcb r.val n).place) = []) →
    ∃ u, exec (.placement r) s = .next u ∧ u.thr = s.thr ∧ u.tcbs = s.tcbs ∧ (u.teller r.val).ready = (s.teller r.val).ready) ∧
  (∀ (r : RegionId) (e : Nat × Nat) (s : State), s.heads r.val = [e] → s.placeless r.val e = true → (s.teller r.val).noPlace.contains e.2 = false →
    ∃ u, exec (.placement r) s = .next u ∧ u.thr = s.thr ∧ u.tcbs = s.tcbs ∧ e.2 ∈ (u.teller r.val).noPlace ∧
      u.rf (aTel r.val 0x14C) 15 0 = min 65535 (s.rf (aTel r.val 0x14C) 15 0 + 1)) ∧
  (∀ (r : RegionId) (s v : State), v = s.upToCyc (roundCeil s.cycCeil) → ∃ u, exec (.quantumExpiry r) s = .next u ∧
    u = { v with thr := u.thr, tellers := u.tellers, dram := u.dram, regs := u.regs, hw := u.hw, arrived := u.arrived, fmgq := u.fmgq, out := u.out, linkErr := u.linkErr, draw := u.draw }) ∧
  (∀ (r : RegionId) (due : Nat → Thread → Prop) (s v : State), v = s.upToCyc (roundCeil s.cycCeil) →
    (∀ j y, due j y ↔ ∃ n, ∃ p ∈ (s.teller r.val).ready, y.tcb = some n ∧ rgnOf j = r.val ∧ (s.tcb r.val n).quantum ≠ 0 ∧
      (s.tcb r.val n).since + 4096 * (s.tcb r.val n).quantum ≤ v.cyc ∧ y.st ≠ .idle ∧ y.st ≠ .resetting ∧ y.stopped = false ∧ y.forked = false ∧
      y.saveReq = none ∧ s.hasKid j = false ∧ p.1 = (s.tcb r.val n).prio ∧ v.findPlace r.val (s.tcb r.val p.2).place = none) →
    ((∀ e ∈ s.thr, ¬due e.1 e.2) → exec (.quantumExpiry r) s = .next v) ∧
    (∀ (t : Nat) (x : Thread) (a l : Tbl Thread), s.thr = a ++ (t, x) :: l → (∀ e ∈ a, e.1 ≠ t ∧ ¬due e.1 e.2) → due t x →
      ∃ u, exec (.quantumExpiry r) s = .next u ∧ u.th t = { x with saveReq := some (1, 0) } ∧ ∀ j, j ≠ t → u.th j = s.th j)) ∧
  (∀ (t : ThreadId) (r n k m p : Nat) (s : State), r = rgnOf t.val → (s.th t.val).saveReq = some (k, m) → k ≠ 3 → (s.th t.val).tcb = some n →
    (s.th t.val).sbOwned = 0 → (k = 4 ∨ s.hasKid t.val = false) → (s.th t.val).lateTrap = [] →
    (k = 0 → m ≠ n ∧ (s.tcb r m).state ≠ 1) → p = (s.tcb r n).newPrio.getD (s.tcb r n).prio → p < 64 →
    ∃ u, exec (.save t) s = .next u ∧
      u = { s with now := u.now, thr := u.thr, tcbs := u.tcbs, tellers := u.tellers, dram := u.dram, regs := u.regs, hw := u.hw, arrived := u.arrived, fmgq := u.fmgq, out := u.out,
                   linkErr := u.linkErr, draw := u.draw, clu := u.clu, locks := u.locks, chans := u.chans } ∧
      u.th t.val = Thread.fresh ∧ (∀ j, j ≠ t.val → u.th j = s.th j) ∧
      (u.tcb r n).state = 1 ∧ (u.tcb r n).ctx = none ∧ (u.tcb r n).prio = p ∧
      (u.teller r).ready = (if k = 0 ∨ k = 4 then (p, n) :: (s.teller r).ready else (s.teller r).ready ++ [(p, n)]) ∧
      ((∀ i < 0x1C8, s.mirOf (s.tcbAddr r n 0x20 + i) = none ∧ s.faulted (dramChan (s.tcbAddr r n 0x20 + i)) = false) →
        u.dram.read arrDram (s.tcbAddr r n 0x20) 0x1C8 = (s.th t.val).image.flatMap fun w => leBytes 4 w.toNat)) ∧
  (∀ (t : ThreadId) (r n m : Nat) (s : State), r = rgnOf t.val → (s.th t.val).saveReq = some (0, m) → (s.th t.val).tcb = some n →
    (s.th t.val).sbOwned = 0 → s.hasKid t.val = false → (s.th t.val).lateTrap = [] → (s.th t.val).pend = [] → tFind (s.teller r).restore t.val = none →
    m ≠ n → (s.tcb r m).state = 1 → (s.allowed r (s.tcb r m).place).contains (cluOf t.val) = true →
    ∃ u i, exec (.save t) s = .next u ∧ (u.tcb r n).state = 1 ∧ (u.tcb r m).state = 2 ∧ (u.tcb r m).ctx = some i ∧
      tFind (u.teller r).restore i = some m) ∧
  (∀ (t : ThreadId) (r n m : Nat) (s : State), r = rgnOf t.val → (s.th t.val).saveReq = some (3, m) → (s.th t.val).tcb = some n →
    (s.th t.val).sbOwned = 0 → s.hasKid t.val = false → (s.th t.val).lateTrap = [] →
    ∃ u, exec (.save t) s = .next u ∧ u.th t.val = Thread.fresh ∧ (∀ j, j ≠ t.val → u.th j = s.th j) ∧ (u.tcb r n).ctx = none ∧
      (u.tcb r n).wakePend = false ∧ (u.tcb r n).state = (if (s.tcb r n).wakePend then 1 else 3) ∧
      ((s.tcb r n).wakePend = false → u.teller r = s.teller r)) ∧
  (∀ (t : ThreadId) (s : State), ((s.th t.val).saveReq = none ∨ (s.th t.val).tcb = none ∨ (s.th t.val).sbOwned ≠ 0) → exec (.save t) s = .next s) ∧
  (∀ (t : ThreadId) (k m : Nat) (s : State), (s.th t.val).saveReq = some (k, m) → k ≠ 4 → s.hasKid t.val = true → exec (.save t) s = .next s) ∧
  (∀ (t : ThreadId) (n : Nat) (b : List Byte) (s v : State), tFind (s.teller (rgnOf t.val)).restore t.val = some n →
    s.dramRead (s.tcbAddr (rgnOf t.val) n 0x20) 0x1C8 = (b, false, v) →
    ∃ u, exec (.restore t) s = .next u ∧ u = { v with thr := u.thr, tellers := u.tellers, clu := u.clu } ∧
      u.th t.val = { Thread.ofImage ((List.range 114).map fun i => leWord (b.drop (4 * i))) with
        tcb := some n, nextCyc := ownSlot t.val (s.cyc + 8), stopped := (s.th t.val).stopped, saveReq := (s.th t.val).saveReq } ∧
      (∀ j, j ≠ t.val → u.th j = s.th j) ∧ tFind (u.teller (rgnOf t.val)).restore t.val = none) ∧
  (∀ (t : ThreadId) (n : Nat) (b : List Byte) (s v : State), tFind (s.teller (rgnOf t.val)).restore t.val = some n →
    s.dramRead (s.tcbAddr (rgnOf t.val) n 0x20) 0x1C8 = (b, true, v) →
    ∃ u, exec (.restore t) s = .next u ∧ u.thr = s.thr ∧ (u.tcb (rgnOf t.val) n).state = 5 ∧ (u.tcb (rgnOf t.val) n).ctx = none ∧
      tFind (u.teller (rgnOf t.val)).restore t.val = none) ∧
  (∀ (t : ThreadId) (s : State), tFind (s.teller (rgnOf t.val)).restore t.val = none → exec (.restore t) s = .next s)

/-- R215, R225, R226: the context area that a save writes gives back the context: registers, guards, flags, operand and result sockets. -/
def Obligations.SavedContextComesBack : Prop :=
  ∀ (x y : Thread), y = Thread.ofImage x.image → x.waitAt = none → x.pc < 16384 →
    (∀ i, i < 32 → y.wv i = x.wv i) ∧ y.p = x.p ∧ y.carry = x.carry ∧ y.ov = x.ov ∧ y.dz = x.dz ∧ y.inTrap = x.inTrap ∧ y.pc = x.pc ∧
      y.lr = x.lr ∧ y.rc = x.rc ∧ y.vec = x.vec ∧ y.ev = x.ev ∧ y.sb = x.sb ∧ (x.ctl.toNat < 4 → y.ctl = x.ctl) ∧
      (∀ k ∈ tcbOps ++ tcbRes5, y.opv k = x.opv k) ∧ (∀ k ∈ tcbRes1 ++ tcbRes2 ++ tcbRes3 ++ tcbRes4 ++ tcbRes5, y.resv k = x.settle.resv k) ∧
      y.pend = [] ∧
      (∀ r : Rep, x.rep = some r → 0 < r.live → r.live ≤ 65536 → r.index < 65536 → r.body < 16384 → 0 < r.total → r.total ≤ 65536 →
        (r.capped = false → r.total = r.live) → ∃ q, y.rep = some q ∧ q.live = r.live ∧ q.total = r.total ∧ q.index = r.index ∧ q.body = r.body ∧ q.capped = r.capped) ∧
      (x.rep = none → y.rep = none)

/-- R304 to R308, R311: the commands of a Flow Table through its registers and its rings. -/
def Obligations.FlowTableCommandsComplete : Prop :=
  (∀ (d : PDie) (img : List Nat) (i : Nat) (s : State), s.rb (aCls d.val 0x144) 30 = false → s.rb (aCls d.val 0x130) 31 = false →
    (s.pd d.val).reloc = none → s.learnIdle = true → img = (List.range 16).map (fun i => (s.reg (aCls d.val (0x180 + 4 * i))).toNat) → (entType img = 2 ∨ entType img = 3) →
    s.ftFind d.val img = (none, false, s) →
    s.ftFree d.val false (waysOf (s.ftBuckets d.val false img).1 ++ waysOf (s.ftBuckets d.val false img).2) = some i →
    ∃ u, exec (.ftInsert d .reg false) s = .next u ∧ u = { s with ft := u.ft, ftBad := u.ftBad, ftWas := u.ftWas, regs := u.regs } ∧
      (∀ j, tGet (fun _ => zeroEntry) u.ft j = if j = ftKey d.val false i then entStored img false else tGet (fun _ => zeroEntry) s.ft j) ∧
      u.reg (aCls d.val 0x144) = 0x80000000 ∧ u.reg (aCls d.val 0x148) = nw i) ∧
  (∀ (d : PDie) (img : List Nat) (i : Nat) (e : List Nat) (t : Bool) (s : State), s.rb (aCls d.val 0x144) 30 = false → s.rb (aCls d.val 0x130) 31 = false →
    (s.pd d.val).reloc = none → s.learnIdle = true → img = (List.range 16).map (fun i => (s.reg (aCls d.val (0x180 + 4 * i))).toNat) → (entType img = 2 ∨ entType img = 3) →
    s.ftFind d.val img = (some (t, i, e), false, s) →
    ∃ u, exec (.ftInsert d .reg false) s = .next u ∧ u = { s with regs := u.regs } ∧ u.reg (aCls d.val 0x144) = 0x82000000 ∧ u.reg (aCls d.val 0x148) = nw (ftLoc i)) ∧
  (∀ (d : PDie) (img : List Nat) (i : Nat) (e : List Nat) (s : State), s.rb (aCls d.val 0x144) 30 = false → s.rb (aCls d.val 0x130) 31 = false →
    (s.pd d.val).reloc = none → s.learnIdle = true → img = (List.range 16).map (fun i => (s.reg (aCls d.val (0x180 + 4 * i))).toNat) → entType img ≠ 1 →
    s.ftFind d.val img = (some (false, i, e), false, s) →
    (∃ u, exec (.ftDelete d .reg) s = .next u ∧ u = { s with ft := u.ft, ftBad := u.ftBad, ftWas := u.ftWas, regs := u.regs } ∧
      (∀ j, tGet (fun _ => zeroEntry) u.ft j = if j = ftKey d.val false i then zeroEntry else tGet (fun _ => zeroEntry) s.ft j) ∧
      u.reg (aCls d.val 0x144) = 0x80000000 ∧ u.reg (aCls d.val 0x148) = nw (ftLoc i)) ∧
    (∃ u, exec (.ftModify d .reg) s = .next u ∧ u = { s with ft := u.ft, ftBad := u.ftBad, ftWas := u.ftWas, regs := u.regs } ∧
      (∀ j, tGet (fun _ => zeroEntry) u.ft j = if j = ftKey d.val false i then entModify e img else tGet (fun _ => zeroEntry) s.ft j) ∧
      u.reg (aCls d.val 0x144) = 0x80000000 ∧ u.reg (aCls d.val 0x148) = nw (ftLoc i)) ∧
    (∃ u, exec (.ftRead d .reg false) s = .next u ∧ u = { s with regs := u.regs } ∧ u.reg (aCls d.val 0x144) = 0x80000000 ∧
      u.reg (aCls d.val 0x148) = nw (ftLoc i) ∧ ∀ k : Fin 16, u.reg (aCls d.val (0x180 + 4 * k.val)) = nw (e.getD k.val 0)) ∧
    (s.ftHit.before s.fab (ftSlot d.val false i) = none → ∃ u, exec (.ftRead d .reg true) s = .next u ∧ u = { s with ft := u.ft, ftBad := u.ftBad, ftWas := u.ftWas, regs := u.regs } ∧
      (∀ j, tGet (fun _ => zeroEntry) u.ft j = if j = ftKey d.val false i then entBit e 30 false else tGet (fun _ => zeroEntry) s.ft j) ∧
      ∀ k : Fin 16, u.reg (aCls d.val (0x180 + 4 * k.val)) = nw (e.getD k.val 0)) ∧
    (s.ftHit.before s.fab (ftSlot d.val false i) ≠ none → ∃ u, exec (.ftRead d .reg true) s = .next u ∧ u = { s with regs := u.regs })) ∧
  (∀ (d : PDie) (img : List Nat) (s : State), s.rb (aCls d.val 0x144) 30 = false → s.rb (aCls d.val 0x130) 31 = false →
    (s.pd d.val).reloc = none → s.learnIdle = true → img = (List.range 16).map (fun i => (s.reg (aCls d.val (0x180 + 4 * i))).toNat) → entType img ≠ 1 →
    s.ftFind d.val img = (none, false, s) →
    ∃ u, exec (.ftDelete d .reg) s = .next u ∧ u = { s with regs := u.regs } ∧ u.reg (aCls d.val 0x144) = 0x83000000) ∧
  (∀ (d : PDie) (i : Nat) (e : List Nat) (s : State), s.rb (aCls d.val 0x144) 30 = false → s.rb (aCls d.val 0x130) 31 = false →
    (s.pd d.val).reloc = none → s.learnIdle = true → s.ftLocPlace d.val false (s.reg (aCls d.val 0x148)).toNat = some i → e = tGet (fun _ => zeroEntry) s.ft (ftKey d.val false i) →
    tFind s.ftBad (ftKey d.val false i) = none →
    ∃ u, exec (.ftReadLoc d .reg false false) s = .next u ∧ u = { s with regs := u.regs } ∧ u.reg (aCls d.val 0x144) = 0x80000000 ∧
      ∀ k : Fin 16, u.reg (aCls d.val (0x180 + 4 * k.val)) = nw (e.getD k.val 0)) ∧
  (∀ (d : PDie) (s : State), s.rb (aCls d.val 0x144) 30 = false → s.rb (aCls d.val 0x130) 31 = true →
    s.rf (aCls d.val 0x130) 13 0 ≠ s.rf (aCls d.val 0x14C) 13 0 →
    ∃ u, exec (.ftDelete d .reg) s = .next u ∧ u = { s with regs := u.regs } ∧ u.reg (aCls d.val 0x144) = 0x86000000) ∧
  (∀ (d : PDie) (s : State), s.rb (aCls d.val 0x144) 30 = true →
    ∃ u, exec (.ftDelete d .reg) s = .next u ∧ u = { s with regs := u.regs, hw := u.hw } ∧
      (u.reg (aCls d.val 0x158)).toNat = min (2 ^ 32 - 1) ((s.reg (aCls d.val 0x158)).toNat + 1)) ∧
  (∀ (d : PDie) (img : List Nat) (s : State), s.rb (aCls d.val 0x144) 30 = false → s.rb (aCls d.val 0x130) 31 = false →
    (s.pd d.val).reloc = none → img = (List.range 16).map (fun i => (s.reg (aCls d.val (0x180 + 4 * i))).toNat) → entType img = 1 →
    ∃ u l, exec (.ftModify d .reg) s = .next u ∧ u = { s with pdies := u.pdies, regs := u.regs } ∧ u.reg (aCls d.val 0x144) = 0x40000000 ∧
      (u.pd d.val).learnq = (s.pd d.val).learnq ++ [l] ∧ l.key = (img.drop 1).take 3 ∧
      l.cmd = some { die := d.val, via := 4, op := 3, word := 0x30000000, image := img }) ∧
  (∀ (d : PDie) (n : Fin 4) (a i : Nat) (b : List Byte) (e : List Nat) (s : State), s.ringHead d.val n.val = some a → (∀ m < n.val, s.ringHead d.val m = none) →
    s.ftWaiting d.val n.val = false →
    (s.pd d.val).reloc = none → s.learnIdle = true → s.dramRead a 128 = (b, false, s) → leAt b 0 4 / 2 ^ 28 = 2 → s.rb (aCls d.val 0x130) 31 = false →
    entType (entryWords (b.drop 64)) ≠ 1 → s.ftFind d.val (entryWords (b.drop 64)) = (some (false, i, e), false, s) →
    ∃ u, exec (.ftDelete d (.ring n)) s = .next u ∧
      (∀ j, tGet (fun _ => zeroEntry) u.ft j = if j = ftKey d.val false i then zeroEntry else tGet (fun _ => zeroEntry) s.ft j) ∧
      (u.ringAt d.val n.val).1 = ((s.ringAt d.val n.val).1 + 1) % s.ringSize d.val n.val) ∧
  (∀ (d : PDie) (n m : Fin 4) (a b : Nat) (s : State), s.ringHead d.val n.val = some a → m < n → s.ringHead d.val m.val = some b →
    exec (.ftDelete d (.ring n)) s = .next s) ∧
  (∀ (d : PDie) (n : Fin 4) (b : List Byte) (s : State), s.ringOn d.val n.val = true → s.dramRange (s.ringBase d.val n.val) 8 = true →
    (∀ m : Fin 4, m ≠ n → s.ringOn d.val m.val = false) → s.dramRead (s.ringBase d.val n.val) 4 = (b, false, s) →
    leNat b % s.ringSize d.val n.val = (s.ringAt d.val n.val).1 →
    ∃ t, exec (.ftRingPoll d) s = .next t ∧ t = { s with pdies := t.pdies } ∧
      t.ringAt d.val n.val = ((s.ringAt d.val n.val).1, leNat b % s.ringSize d.val n.val))

/-- R301, R306, R308: an entry that an INSERT has placed is what a search for its key finds, where it was placed. -/
def Obligations.FlowTableFindsWhatItInserts : Prop :=
  ∀ (d : PDie) (e : List Nat) (i : Nat) (s u : State), e.length = 16 → (∀ w ∈ e, w < 2 ^ 32) → s.ftDram d.val = false →
    (∀ j ∈ s.ftCands d.val false e, tFind s.ftBad (ftKey d.val false j) = none) →
    s.ftInsert d.val false e = (.done ftOk 0 (some i), u) →
    u.ftFind d.val e = (some (false, i, entStored e false), false, u) ∧ (∀ c, c ≠ ftKey d.val false i → tGet (fun _ => zeroEntry) u.ft c = tGet (fun _ => zeroEntry) s.ft c)

/-- R309, R312 to R317: the learn engine and a relocation of the DRAM tier take their steps.
How an INSERT ends whose relocation meets an uncorrectable error is the model's choice (log entry 203). -/
def Obligations.LearnCommandsComplete : Prop :=
  (∀ (h o p : Nat) (l m : Learn) (s : State), s.learnNext h = some (o, l) → (p = h ∨ p = 1 - h) → m ∈ (s.pd p).learnq → homeDie (learnKey m.key) = h →
    (o = h ∨ o = 1 - h) ∧ l ∈ (s.pd o).learnq ∧ homeDie (learnKey l.key) = h ∧ learnRank h o l ≤ learnRank h p m) ∧
  (∀ (d : PDie) (s : State), (s.pd d.val).learning = none → (∀ o < 2, ∀ l ∈ (s.pd o).learnq, homeDie (learnKey l.key) ≠ d.val) →
    exec (.learnApply d) s = .next s) ∧
  (∀ (d : PDie) (o : Nat) (l : Learn) (i : Nat) (e : List Nat) (s v : State), (s.pd d.val).learning = none → s.learnNext d.val = some (o, l) → l.cmd = none →
    v = (s.modPd o fun x => { x with learnq := x.learnq.erase l }).upTo l.at_ → v.ftSearch d.val false (learnKey l.key) = ([], false, v) →
    e = entStored (entLearn ((learnKey l.key ++ List.replicate 4 0).set 12 (s.lrnTmpl d.val l.port)) l.port l.sa l.ts) true →
    v.ftFree d.val false (waysOf (s.ftBuckets d.val false e).1 ++ waysOf (s.ftBuckets d.val false e).2) = some i →
    ∃ u, exec (.learnApply d) s = .next u ∧ u = { s with now := max s.now l.at_, pdies := u.pdies, ft := u.ft, ftBad := u.ftBad, ftWas := u.ftWas } ∧
      (∀ j, tGet (fun _ => zeroEntry) u.ft j = if j = ftKey d.val false i then e else tGet (fun _ => zeroEntry) s.ft j) ∧
      (u.pd d.val).learning = some { ev := l, entry := some e, code := 0, moves := 0, loc := some i } ∧
      (u.pd o).learnq = (s.pd o).learnq.erase l) ∧
  (∀ (d : PDie) (o : Nat) (l : Learn) (i : Nat) (e : List Nat) (s v : State), (s.pd d.val).learning = none → s.learnNext d.val = some (o, l) → l.cmd = none →
    v = (s.modPd o fun x => { x with learnq := x.learnq.erase l }).upTo l.at_ → v.ftSearch d.val false (learnKey l.key) = ([(i, e)], false, v) →
    entStatic e = false → entPort e = l.port → entSa e = l.sa → (e.getD 0 0).testBit 28 = false →
    ∃ u, exec (.learnApply d) s = .next u ∧ u = { s with now := max s.now l.at_, pdies := u.pdies, ft := u.ft, ftBad := u.ftBad, ftWas := u.ftWas } ∧
      (∀ j, tGet (fun _ => zeroEntry) u.ft j = if j = ftKey d.val false i then entLearn e l.port l.sa l.ts else tGet (fun _ => zeroEntry) s.ft j) ∧
      (u.pd d.val).learning = some { ev := l, entry := some (entLearn e l.port l.sa l.ts), code := 0, moves := 0, loc := some i }) ∧
  (∀ (d : PDie) (w : LearnWait) (i : Nat) (e x : List Nat) (s v : State), (s.pd d.val).learning = some w → w.ev.cmd = none → w.code = 0 → w.entry = some e →
    v = (s.modPd d.val fun x => { x with learning := none }) → v.ftSearch (1 - d.val) false e = ([(i, x)], false, v) →
    ∃ u, exec (.learnRemoteWrite d) s = .next u ∧ u = { s with pdies := u.pdies, ft := u.ft, ftBad := u.ftBad, ftWas := u.ftWas } ∧ (u.pd d.val).learning = none ∧
      (∀ j, tGet (fun _ => zeroEntry) u.ft j = if j = ftKey (1 - d.val) false i then entBit e 30 (entHit x) else tGet (fun _ => zeroEntry) s.ft j)) ∧
  (∀ (d : PDie) (r : Reloc) (m : Nat × Nat) (ms : List (Nat × Nat)) (s : State), (s.pd d.val).reloc = some r → r.moves = m :: ms → r.phase = 1 → stashAt ≤ r.stash →
    m.2 < stashAt → tFind s.ftBad (ftKey d.val true r.stash) = none →
    ∃ u, exec (.relocationStep d) s = .next u ∧ (u.pd d.val) = { s.pd d.val with reloc := some { r with phase := 2 } } ∧
      u.dram = (s.dramWrite (s.ftAddr d.val m.2) (((tGet (fun _ => zeroEntry) s.ft (ftKey d.val true r.stash)).map (leBytes 4)).flatten)).2.dram) ∧
  (∀ (d : PDie) (r : Reloc) (m : Nat × Nat) (s : State), (s.pd d.val).reloc = some r → r.moves = [m] → r.phase = 3 → r.via = 4 → stashAt ≤ r.stash →
    r.done < 8 → tFind s.ftBad (ftKey d.val true r.stash) = none → (s.ftRead d.val true m.2).2.1 = false →
    ∃ u, exec (.relocationStep d) s = .next u ∧ (u.pd d.val).reloc = none ∧ u.reg (aCls d.val 0x144) = nw (2 ^ 31 + (r.done + 1) * 2 ^ 16) ∧
      u.reg (aCls d.val 0x148) = nw (ftLoc r.target)) ∧
  (∀ (d : PDie) (r : Reloc) (m : Nat × Nat) (ms : List (Nat × Nat)) (f : Flaw) (s : State), (s.pd d.val).reloc = some r → r.moves = m :: ms → r.phase = 1 →
    r.via = 4 → stashAt ≤ r.stash → tFind s.ftBad (ftKey d.val true r.stash) = some f → f.ue = true →
    ∃ u, exec (.relocationStep d) s = .next u ∧ (u.pd d.val).reloc = none ∧ u.reg (aCls d.val 0x144) = nw (ftStatus ftUe r.done) ∧
      tGet (fun _ => zeroEntry) u.ft (ftKey d.val true r.stash) = zeroEntry)

/-- R324, R333, R334, R336, R337, R351, R357, R359: the commands of an SA Table, its lifetime FIFO, and the Vault's register. -/
def Obligations.SaTableCommandsComplete : Prop :=
  (∀ (d : PDie) (i : Nat) (s : State), i = s.rf (ra (satPage d.val) 0x104) 19 0 → i / 2 ^ 19 = d.val → s.rb (ra (satPage d.val) 0x130) 31 = false →
    ((saW (s.satData d.val) 0).testBit 31 = true → saImageOk i (s.satData d.val) = true) →
    ((s.saRead d.val i).2.1 = true ∨ saState (s.saRead d.val i).1 = 0) →
    ∃ u, exec (.satWrite d) s = .next u ∧ u = { s with sat := u.sat, satWas := u.satWas, regs := u.regs } ∧
      u.sat = (s.saWrite d.val i (saStored (s.satData d.val))).sat ∧ u.reg (ra (satPage d.val) 0x100) = 0) ∧
  (∀ (d : PDie) (i : Nat) (s : State), i = s.rf (ra (satPage d.val) 0x104) 19 0 → i / 2 ^ 19 = d.val → s.rb (ra (satPage d.val) 0x130) 31 = false →
    ((saW (s.satData d.val) 0).testBit 31 = true → saImageOk i (s.satData d.val) = true) →
    (s.saRead d.val i).2.1 = false → saState (s.saRead d.val i).1 ≠ 0 → (s.pd d.val).life.length < 64 →
    ∃ u, exec (.satWrite d) s = .next u ∧ u = { s with sat := u.sat, satWas := u.satWas, regs := u.regs, hw := u.hw, out := u.out, pdies := u.pdies, draw := s.draw + 1 } ∧
      u.sat = (s.saWrite d.val i (saStored (s.satData d.val))).sat ∧ u.reg (ra (satPage d.val) 0x100) = 0 ∧
      ∃ k < 2, (u.pd d.val).life = (s.pd d.val).life ++ [(k, i)]) ∧
  (∀ (d : PDie) (i : Nat) (s : State), i = s.rf (ra (satPage d.val) 0x104) 19 0 → i / 2 ^ 19 = d.val → s.rb (ra (satPage d.val) 0x130) 31 = false →
    (saW (s.satData d.val) 0).testBit 31 = true → saImageOk i (s.satData d.val) = false →
    ∃ u, exec (.satWrite d) s = .next u ∧ u = { s with regs := u.regs } ∧ u.reg (ra (satPage d.val) 0x100) = 0x10000000) ∧
  (∀ (d : PDie) (i : Nat) (r : List Nat) (s : State), i = s.rf (ra (satPage d.val) 0x104) 19 0 → i / 2 ^ 19 = d.val → s.saRead d.val i = (r, false, s) →
    ∃ u, exec (.satRead d) s = .next u ∧ u = { s with satWas := u.satWas, regs := u.regs } ∧ u.reg (ra (satPage d.val) 0x100) = 0 ∧
      ∀ k : Fin 24, u.reg (ra (satPage d.val) (0x180 + 4 * k.val)) = nw (saW r k.val)) ∧
  (∀ (d : PDie) (i : Nat) (r : List Nat) (s : State), i = s.rf (ra (satPage d.val) 0x104) 19 0 → i / 2 ^ 19 = d.val → s.rb (ra (satPage d.val) 0x130) 31 = false →
    s.saRead d.val i = (r, false, s) →
    (∃ u, exec (.satInvalidate d) s = .next u ∧ u = { s with sat := u.sat, satWas := u.satWas, regs := u.regs } ∧ u.reg (ra (satPage d.val) 0x100) = 0 ∧
      u.sat = (s.saWrite d.val i (saSet r 0 (saW r 0 % 2 ^ 31))).sat) ∧
    (∃ u, exec (.modifyLife d) s = .next u ∧ u = { s with sat := u.sat, satWas := u.satWas, regs := u.regs } ∧ u.reg (ra (satPage d.val) 0x100) = 0 ∧
      u.sat = (s.saWrite d.val i (saSet (saSet (saSet r 20 (saW (s.satData d.val) 20)) 21 (saW (s.satData d.val) 21)) 22 (saW (s.satData d.val) 22))).sat) ∧
    ((saW r 0).testBit 30 = false → saQ r 8 < saQ (s.satData d.val) 8 →
      ∃ u, exec (.setPn d) s = .next u ∧ u = { s with sat := u.sat, satWas := u.satWas, regs := u.regs } ∧ u.reg (ra (satPage d.val) 0x100) = 0 ∧
        u.sat = (s.saWrite d.val i (saSetQ r 8 (saQ (s.satData d.val) 8))).sat) ∧
    ((saW r 0).testBit 30 = false → saQ (s.satData d.val) 8 ≤ saQ r 8 →
      ∃ u, exec (.setPn d) s = .next u ∧ u = { s with satWas := u.satWas, regs := u.regs } ∧ u.reg (ra (satPage d.val) 0x100) = 0x40000000) ∧
    (∃ u, exec (.clrDrops d) s = .next u ∧ u = { s with sat := u.sat, satWas := u.satWas, regs := u.regs } ∧ u.reg (ra (satPage d.val) 0x100) = 0 ∧
      u.sat = (s.saWrite d.val i (saSet r 23 0)).sat)) ∧
  (∀ (d : PDie) (k i : Nat) (r : List (Nat × Nat)) (s : State), (s.pd d.val).life = (k, i) :: r →
    ∃ u, exec (.satLifeFifoRead d) s = .next u ∧ u = { s with pdies := u.pdies, out := .data (nw (2 ^ 31 + k * 2 ^ 30 + i)) :: s.out } ∧
      u.pd d.val = { s.pd d.val with life := r }) ∧
  (∀ (d : PDie) (s : State), (s.pd d.val).life = [] → exec (.satLifeFifoRead d) s = .next { s with out := .data 0 :: s.out }) ∧
  (∀ (d : PDie) (v : Word) (s : State), bit v 31 = true →
    ∃ u, exec (.vltClr d v) s = .next u ∧ u = { s with vault := u.vault, vltBad := u.vltBad, vltWas := u.vltWas, vltGone := u.vltGone } ∧
      (∀ k, tFind u.vltBad k = if k = d.val * 2 ^ 19 + fld v 18 0 then none else tFind s.vltBad k) ∧
      ∀ k, tFind u.vault k = if k = d.val * 2 ^ 19 + fld v 18 0 then none else tFind s.vault k) ∧
  (∀ (d : PDie) (v : Word) (s : State), bit v 31 = false → exec (.vltClr d v) s = .next s)

/-- R311, R320 to R323: a write lock is taken, freed and expires; the operations of a Policy Table. -/
def Obligations.PolicyAndWriteLockCommandsComplete : Prop :=
  (∀ (r : RegionId) (i : BitVec 16) (s : State), s.domIsOn (domRgn r.val) = true → s.writeRegion = some r.val → s.rb (aPol r.val 0x140) 31 = false →
    (∀ e ∈ s.clu, ∀ a ∈ e.2.tbClaims, a.g / 4 ≤ s.cyc) →
    ∃ u, exec (.polWrite r i) s = .next u ∧ u = { s with pol := u.pol, polBad := u.polBad, polWas := u.polWas, regs := u.regs, draw := s.draw + 1 } ∧
      u.reg (aPol r.val 0x100) = 0 ∧
      (∀ (k : RegionId) (j : Fin 8), s.domIsOn (domRgn k.val) = true →
        tGet (fun _ => 0) u.pol ((k.val * 65536 + i.toNat) * 8 + j.val) =
          (if j.val = 1 ∨ j.val = 2 then s.reg (aPol r.val (0x120 + 4 * j.val)) &&& 0xFFFFF else s.reg (aPol r.val (0x120 + 4 * j.val))) ∧
        tFind u.polBad ((k.val * 65536 + i.toNat) * 8 + j.val) = none) ∧
      (∀ (k : RegionId) (j : Fin 8) (m : BitVec 16), (s.domIsOn (domRgn k.val) = false ∨ m ≠ i) →
        tGet (fun _ => 0) u.pol ((k.val * 65536 + m.toNat) * 8 + j.val) = tGet (fun _ => 0) s.pol ((k.val * 65536 + m.toNat) * 8 + j.val))) ∧
  (∀ (r : RegionId) (i : BitVec 16) (s : State), s.domIsOn (domRgn r.val) = true → s.writeRegion ≠ some r.val →
    (∃ u, exec (.polWrite r i) s = .next u ∧ u = { s with regs := u.regs } ∧ u.reg (aPol r.val 0x100) = 0x10000000) ∧
    (∃ u, exec (.gsa r i) s = .next u ∧ u = { s with regs := u.regs } ∧ u.reg (aPol r.val 0x100) = 0x10000000)) ∧
  (∀ (r : RegionId) (i : BitVec 16) (s : State), s.domIsOn (domRgn r.val) = true → s.writeRegion = some r.val → s.rb (aPol r.val 0x140) 31 = false →
    s.gsa.length < 1024 →
    ∃ u, exec (.gsa r i) s = .next u ∧ u = { s with gsa := u.gsa, regs := u.regs, draw := s.draw + 1 } ∧ u.reg (aPol r.val 0x100) = 0 ∧
      ∀ k, tFind u.gsa k = if k = gsaKey i.toNat 0 then some { x := s.rf (aPol r.val 0x124) 19 0, phase := 0 } else tFind s.gsa k) ∧
  (∀ (r : RegionId) (i : BitVec 16) (s : State), s.domIsOn (domRgn r.val) = true →
    s.rb (aPol r.val 0x140) 31 = false → (∀ j : Fin 8, tFind s.polBad ((r.val * 65536 + i.toNat) * 8 + j.val) = none) →
    ∃ u, exec (.polRead r i) s = .next u ∧ u = { s with regs := u.regs, draw := s.draw + 1 } ∧ u.reg (aPol r.val 0x100) = 0 ∧
      ∀ j : Fin 8, u.reg (aPol r.val (0x120 + 4 * j.val)) = tGet (fun _ => 0) s.pol ((r.val * 65536 + i.toNat) * 8 + j.val)) ∧
  (∀ (r : RegionId) (i : BitVec 16) (s : State), s.domIsOn (domRgn r.val) = true → s.rb (aPol r.val 0x140) 31 = true →
    s.rf (aPol r.val 0x140) 13 0 ≠ (Config.polOwner s.draw).toNat →
    (∀ c ∈ [Instr.polRead r i, .cntRead r i, .cntReadClr r i], ∃ u, exec c s = .next u ∧ u = { s with regs := u.regs, draw := s.draw + 1 } ∧
      u.reg (aPol r.val 0x100) = 0x10000000 ∧ ∀ a, a ≠ aPol r.val 0x100 → u.reg a = s.reg a)) ∧
  (∀ (r : RegionId) (i : BitVec 16) (s v : State), s.domIsOn (domRgn r.val) = true → s.rb (aPol r.val 0x140) 31 = false → v = s.cntSettle s.cyc →
    (∀ k, tGet (fun _ => (0, 0)) v.polCnt k = (s.cntAdds.filter fun a => decide (a.1 < s.cyc)).foldl (fun e a => if a.2.1 = k then cntPlus e a.2.2 else e)
      (tGet (fun _ => (0, 0)) s.polCnt k)) ∧
    (∃ u, exec (.cntRead r i) s = .next u ∧ u = { v with regs := u.regs, draw := s.draw + 1 } ∧ u.reg (aPol r.val 0x100) = 0 ∧
      u.pair (aPol r.val 0x150) = (tGet (fun _ => (0, 0)) v.polCnt (r.val * 65536 + i.toNat)).1 % 2 ^ 64 ∧
      u.pair (aPol r.val 0x158) = (tGet (fun _ => (0, 0)) v.polCnt (r.val * 65536 + i.toNat)).2 % 2 ^ 64) ∧
    (∃ u, exec (.cntReadClr r i) s = .next u ∧ u = { v with regs := u.regs, polCnt := u.polCnt, draw := s.draw + 1 } ∧ u.reg (aPol r.val 0x100) = 0 ∧
      u.pair (aPol r.val 0x150) = (tGet (fun _ => (0, 0)) v.polCnt (r.val * 65536 + i.toNat)).1 % 2 ^ 64 ∧
      u.pair (aPol r.val 0x158) = (tGet (fun _ => (0, 0)) v.polCnt (r.val * 65536 + i.toNat)).2 % 2 ^ 64 ∧
      ∀ k, tGet (fun _ => (0, 0)) u.polCnt k = if k = r.val * 65536 + i.toNat then (0, 0) else tGet (fun _ => (0, 0)) v.polCnt k)) ∧
  (∀ (l : LockTable) (o : OwnerId) (s : State), s.rb (aWlock l) 31 = false →
    ∃ u, exec (.wlockTake l o) s = .next u ∧ u = { s with regs := u.regs, wlocks := u.wlocks } ∧ u.rb (aWlock l) 31 = true ∧
      u.rf (aWlock l) 13 0 = o.toNat ∧ (∀ a, a ≠ aWlock l → u.reg a = s.reg a) ∧
      tFind u.wlocks (aWlock l) = some (s.now + s.tbTicks (1000 * s.rf (aWlock l + 4) 15 0))) ∧
  (∀ (l : LockTable) (o : OwnerId) (s : State), s.rb (aWlock l) 31 = true → exec (.wlockTake l o) s = .next s) ∧
  (∀ (l : LockTable) (s : State), ∃ u, exec (.wlockFree l) s = .next u ∧ u = { s with regs := u.regs, wlocks := u.wlocks } ∧
    u.rb (aWlock l) 31 = false ∧ (∀ a, a ≠ aWlock l → u.reg a = s.reg a) ∧ tFind u.wlocks (aWlock l) = none) ∧
  (∀ (l : LockTable) (t : Nat) (s : State), tFind s.wlocks (aWlock l) = some t →
    ∃ u, exec (.wlockExpiry l) s = .next u ∧ u = { s with now := max s.now t, regs := u.regs, hw := u.hw, wlocks := u.wlocks, out := u.out } ∧
      u.rb (aWlock l) 31 = false ∧ u.rb (aWlock l) 30 = true ∧ tFind u.wlocks (aWlock l) = none ∧
      u.rb (ra (aWlock l / 4096) 0x010) (wlockEvent l) = true)

/-- R400 to R403, R406, R407: the timebase, the enable of the EPC, and EPOCH_SYNC_IN. -/
def Obligations.TimebaseCommandsComplete : Prop :=
  (∀ (v : Word) (s : State), bit v 31 = true → s.epcOn = false → s.rf (aEpc 0x108) 25 0 < s.af (aEpc 0x104) 25 0 →
    ∃ u, exec (.epcEnable v) s = .next u ∧ u = { s with regs := u.regs, hw := u.hw, epc := u.epc, out := u.out } ∧ u.reg (aEpc 0x100) = v &&& 0xF0000000 ∧
      u.epc = { s.epc with target := s.firstTarget, len := s.epcLen, corr := none, cleared := false, noticed := false } ∧
      u.reg (aEpc 0x110) = 0 ∧ u.pgState (mPage 0) = 2) ∧
  (∀ (v : Word) (s : State), bit v 31 = false → s.epcOn = true → s.pgState (mPage 0) < 4 →
    ∃ u, exec (.epcEnable v) s = .next u ∧ u = { s with regs := u.regs, hw := u.hw, out := u.out } ∧ u.epcOn = false ∧ u.pgState (mPage 0) = 1) ∧
  (∀ (hi : Word) (d : Int) (s : State), d = toSigned 64 ((s.reg (aEpc 0x15C)).toNat + 2 ^ 32 * hi.toNat) →
    ∃ u, exec (.tbStep hi) s = .next u ∧ u = { s with tbNum := u.tbNum, tbAt := s.now, tbPast := u.tbPast, epc := u.epc } ∧ (u.tb : Int) = ((s.tb : Int) + d) % 2 ^ 64 ∧
      (u.epc.target : Int) = ((s.epc.target : Int) + d) % 2 ^ 64) ∧
  (∀ s : State, ∃ u, exec .tbRead s = .next u ∧ u = { s with regs := u.regs, out := .data (nw s.tb) :: s.out } ∧
    u.reg (aEpc 0x154) = nw (s.tb / 2 ^ 32) ∧ ∀ a, a ≠ aEpc 0x154 → u.reg a = s.reg a) ∧
  (∀ s : State, ∃ u, exec .ppsInEdge s = .next u ∧ u = { s with regs := u.regs, hw := u.hw, out := u.out } ∧ u.pair (aEpc 0x164) = s.tb ∧
    u.rb (ra (mPage 0) 0x010) 8 = true) ∧
  (∀ s : State, s.rb (aEpc 0x100) 28 = true → s.tbAt ≤ s.now →
    ∃ u, exec .ppsOutPulse s = .next u ∧ u = { s with now := u.now, out := .pps :: s.out } ∧ s.now ≤ u.now ∧
      u.tb = (s.tb / 1000000000 + 1) * 1000000000 % 2 ^ 64) ∧
  (∀ (d : Int) (s : State), s.epcOn = true → s.syncEn = true → s.epc.corr = none → tbDiff s.tb s.epc.target ≤ (s.epc.len / 8 : Nat) →
    d = tbDiff s.tb s.epc.target - toSigned 16 (s.rf (aEpc 0x10C) 15 0) → d ≤ (s.epc.len / 8 : Nat) → -((s.epc.len / 8 : Nat) : Int) ≤ d →
    d ≤ 100000000 → -100000000 ≤ d →
    ∃ u, exec .syncEdge s = .next u ∧ u = { s with regs := u.regs, epc := { s.epc with corr := some d } } ∧ u.reg (aEpc 0x124) = iw d ∧
      ∀ a, a ≠ aEpc 0x124 → u.reg a = s.reg a) ∧
  (∀ (d : Int) (s : State), s.epcOn = true → s.syncEn = true → tbDiff s.tb s.epc.target ≤ (s.epc.len / 8 : Nat) →
    d = tbDiff s.tb s.epc.target - toSigned 16 (s.rf (aEpc 0x10C) 15 0) → ((s.epc.len / 8 : Nat) < d ∨ s.epc.corr.isSome = true) →
    ∃ u, exec .syncEdge s = .next u ∧ u = { s with regs := u.regs, hw := u.hw } ∧
      (u.reg (aEpc 0x130)).toNat = min (2 ^ 32 - 1) ((s.reg (aEpc 0x130)).toNat + 1)) ∧
  (∀ s : State, s.epcOn = true → s.epc.cleared = true →
    ∃ u, exec .syncWindowClose s = .next u ∧ u = { s with now := u.now, regs := u.regs, hw := u.hw, epc := u.epc } ∧
      u.now = max s.now (s.tbTick (tbMove s.epc.target (s.epc.len / 8 : Nat))) ∧
      u.epc = { s.epc with target := tbMove s.epc.target ((s.epcLen : Int) + s.epc.corr.getD 0), len := s.epcLen, corr := none, cleared := false, noticed := false } ∧
      (s.syncEn = true → s.epc.corr = none → (u.reg (aEpc 0x134)).toNat = min (2 ^ 32 - 1) ((s.reg (aEpc 0x134)).toNat + 1)))

/-- R403 to R405, R408 to R419: the notice of a clearing, the clearing, the commit it carries, the retirement of the older generation.
What a loss leaves of a commit already latched is the model's choice (log entry 206). -/
def Obligations.EpochCommandsComplete : Prop :=
  (∀ s : State, s.epcOn = true → s.epc.cleared = false → s.epc.noticed = false → s.commitOpen = false →
    ∃ u, exec .clearingNotice s = .next u ∧ u = { s with now := u.now, regs := u.regs, epc := { s.epc with noticed := true, notReady := [] } } ∧
      u.now = max s.now (s.tbTick (tbMove s.epc.target (-16000))) ∧ u.rf aCommit 29 27 = 0 ∧ ∀ a, a ≠ aCommit → u.reg a = s.reg a) ∧
  (∀ s v w : State, s.epcOn = true → s.epc.cleared = false → s.epc.noticed = false → s.commitOpen = true → s.epc.latch = none →
    w = (s.upTo (s.tbTick (tbMove s.epc.target (-16000)))).modEpc (fun e => { e with noticed := true, notReady := [] }) →
    v = w.tierTakers.foldl (fun s x => s.saveAll x) w →
    reached ((s.reg (aEpc 0x110)).toNat + 1) s.epc.notBefore = true → v.slipCause = 0 →
    ∃ u l, exec .clearingNotice s = .next u ∧ u.epc.latch = some l ∧ (∀ a, gMask a ≠ 0 → tGet regReset l.1 a = v.reg a) ∧ u.rf aCommit 29 27 = 0 ∧
      u.commitOpen = true) ∧
  (∀ s v w : State, s.epcOn = true → s.epc.cleared = false → s.epc.noticed = false → s.commitOpen = true → s.epc.latch = none →
    w = (s.upTo (s.tbTick (tbMove s.epc.target (-16000)))).modEpc (fun e => { e with noticed := true, notReady := [] }) →
    v = w.tierTakers.foldl (fun s x => s.saveAll x) w →
    reached ((s.reg (aEpc 0x110)).toNat + 1) s.epc.notBefore = true → v.slipCause ≠ 0 →
    ∃ u, exec .clearingNotice s = .next u ∧ u.epc.latch = none ∧ u.rf aCommit 29 27 = v.slipCause ∧ u.commitOpen = true ∧
      (u.reg (aEpc 0x12C)).toNat = min (2 ^ 32 - 1) ((v.reg (aEpc 0x12C)).toNat + 1)) ∧
  (∀ s : State, s.epcOn = true → s.epc.cleared = false → s.epc.noticed = true → s.epc.latch = none → s.fmg.detached = [] →
    ∃ u, exec .clearing s = .next u ∧ u = { s with now := u.now, regs := u.regs, hw := u.hw, epc := { s.epc with cleared := true, returnTb := none }, out := u.out } ∧
      u.now = max s.now (s.cycTick s.boundary.1) ∧ u.reg (aEpc 0x110) = s.reg (aEpc 0x110) + 1 ∧ u.rb (ra (mPage 0) 0x010) 9 = true ∧
      (s.rb (aEpc 0x100) 29 = true → .epochMark ∈ u.out)) ∧
  (∀ (l : Tbl Word × Tbl (Word × Word)) (s : State), s.epcOn = true → s.epc.cleared = false → s.epc.noticed = true → s.epc.latch = some l →
    s.fmg.detached = [] → s.fmg.reqs = [] → s.fmg.applied ≠ s.boundary.1 → s.epc.prof = none →
    s.af aEpcCal 1 0 = s.prof.tier → tGet regReset l.1 aEpcCal = nw s.prof.tier →
    ∃ u, exec .clearing s = .next u ∧ u.gen = (s.gen + 1) % 4 ∧ (∀ a, tGet regReset u.act a = tGet regReset l.1 a) ∧ u.old = s.act ∧ u.oldLive = true ∧ u.epc.latch = none ∧
      u.epc.clearCyc = s.boundary.1 ∧ u.commitOpen = false ∧ u.reg (aEpc 0x110) = s.reg (aEpc 0x110) + 1 ∧ u.rb (ra (mPage 0) 0x010) 10 = true) ∧
  (∀ (l : Tbl Word × Tbl (Word × Word)) (s : State), s.epcOn = true → s.epc.cleared = false → s.epc.noticed = true → s.epc.latch = some l →
    s.fmg.detached = [] → (s.epc.prof.isSome = true ∨ fld (tGet regReset l.1 aEpcCal) 1 0 ≠ s.fmg.tierWas) → s.fmg.applied = s.boundary.1 →
    ∃ u, exec .clearing s = .next u ∧ u.gen = s.gen ∧ u.act = s.act ∧ u.epc.latch = none ∧ u.epc.prof = s.epc.prof ∧ u.rf aCommit 29 27 = 3 ∧
      u.commitOpen = s.commitOpen ∧ u.reg (aEpc 0x110) = s.reg (aEpc 0x110) + 1) ∧
  (∀ (l : Tbl Word × Tbl (Word × Word)) (s : State), s.epcOn = true → s.epc.cleared = false → s.epc.noticed = true → s.epc.latch = some l →
    s.fmg.detached = [] → s.epc.prof = none → s.fmg.applied = s.boundary.1 → fld (tGet regReset l.1 aEpcCal) 1 0 = s.fmg.tierWas →
    s.af aEpcCal 1 0 = s.prof.tier →
    ∃ u, exec .clearing s = .next u ∧ u.gen = (s.gen + 1) % 4 ∧ tGet regReset u.act aEpcCal = nw s.prof.tier ∧ u.epc.latch = none ∧ u.commitOpen = false) ∧
  (∀ s : State, s.oldLive = true →
    ∃ u, exec .genRetire s = .next u ∧ u.oldLive = false ∧ u.old = [] ∧ u.gen = s.gen ∧ u.act = s.act ∧ u.inflight s.oldGen = 0 ∧
      s.cycTick (roundCeil (max s.cycCeil (s.epc.clearCyc + 16384))) ≤ u.now ∧
      (s.inflight s.oldGen = 0 → u.now = max s.now (s.cycTick (roundCeil (max s.cycCeil (s.epc.clearCyc + 16384)))))) ∧
  (∀ (nb : BitVec 24) (s : State), s.mbxBusy = false → s.commitOpen = false → s.shadowTier = s.af aEpcCal 1 0 →
    ∃ u, exec (.genCommit nb) s = .next u ∧ u.commitOpen = true ∧ u.epc = { s.epc with notBefore := nb.toNat } ∧ u.reg (aMbx 0x100) = 0x400B0000 ∧
      u.act = s.act ∧ u.gen = s.gen) ∧
  (∀ (nb : BitVec 24) (s : State), s.mbxBusy = false → s.commitOpen = true →
    ∃ u, exec (.genCommit nb) s = .next u ∧ u = { s with regs := u.regs, hw := u.hw, mbxJob := 0, out := u.out } ∧ u.reg (aMbx 0x100) = 0x400C0000) ∧
  (∀ s : State, s.mbxBusy = false →
    ∃ u, exec .genDiscard s = .next u ∧ u.commitOpen = false ∧ u.epc = { s.epc with latch := none, prof := none } ∧ u.reg (aMbx 0x100) = 0x400E0000 ∧
      u.act = s.act ∧ ∀ a, (u.reg a ^^^ u.actReg a) &&& gMask a = 0)

/-- R66, R72 to R79, R419, R509, R511, R516: calendar switches, the seam, the loss of a cluster and its return.
Where a second loss, a switch and a re-attachment meet, the model's choices are those of log entries 205, 207 and 208. -/
def Obligations.CalendarCommandsComplete : Prop :=
  (∀ (arg : Word) (s v : State), v = s.setReg (aMbx 0x100) 0x80000000 → s.mbxBusy = false → s.fmg.crossed = false →
    (∀ c : Fin 4, v.calArg arg c.val = (some (2, 0), false) ∨ v.calArg arg c.val = (none, false)) →
    ∃ u q, exec (.calSwitch arg) s = .next u ∧ u = { s with regs := v.regs, fmg := u.fmg, mbxJob := 2 } ∧
      u.fmg = { s.fmg with reqs := s.fmg.reqs ++ [q] } ∧ q.mbx = true ∧ q.sets = (List.range 4).map (fun c => (v.calArg arg c).1) ∧
      roundCeil (s.cycCeil + 1024) ≤ q.due ∧ ∀ p ∈ s.fmg.reqs, p.due + 4096 ≤ q.due) ∧
  (∀ (arg : Word) (s : State), s.mbxBusy = false → s.fmg.crossed = true →
    ∃ u, exec (.calSwitch arg) s = .next u ∧ u = { s with regs := u.regs, hw := u.hw, mbxJob := 0, out := u.out } ∧ u.reg (aMbx 0x100) = 0x400D0000) ∧
  (∀ (q : CalReq) (r : List CalReq) (c : Fin 4) (s : State), s.fmg.reqs = q :: r → q.sets = (List.range 4).map (fun i => if i = c.val then some (2, 0) else none) →
    q.mbx = false → s.mlinkBusy = false → s.prof.tier = 0 → s.prof.sets.length = 4 → s.setOf c.val ≠ (2, 0) → s.takers c.val (2, 0) = [] →
    ∃ u, exec .calSwitchApply s = .next u ∧ u = { s with now := max s.now (s.cycTick (s.calBoundary q)), fmg := u.fmg, prof := u.prof, pdies := u.pdies } ∧
      u.fmg = { s.fmg with reqs := r, crossed := true, freed := false, applied := s.calBoundary q, tierWas := s.af aEpcCal 1 0 } ∧
      u.prof = { s.prof with sets := s.prof.sets.set c.val (2, 0), last := (2, c.val), start := s.calBoundary q / 4096 } ∧
      ∀ d : PDie, (u.pd d.val).seamEnd = some (s.calBoundary q + s.tRet + 16)) ∧
  (∀ (q : CalReq) (r : List CalReq) (c : Fin 4) (s : State), s.fmg.reqs = q :: r →
    q.sets = (List.range 4).map (fun i => if i = c.val then some (s.setOf c.val) else none) → q.mbx = false → s.mlinkBusy = false → s.prof.tier = 0 →
    ∃ u, exec .calSwitchApply s = .next u ∧ u = { s with now := max s.now (s.cycTick (s.calBoundary q)), fmg := u.fmg } ∧
      u.fmg = { s.fmg with reqs := r, applied := s.calBoundary q, tierWas := s.af aEpcCal 1 0 }) ∧
  (∀ (q : CalReq) (r : List CalReq) (c : Fin 4) (s : State), s.fmg.reqs = q :: r → q.sets = (List.range 4).map (fun i => if i = c.val then some (2, 0) else none) →
    q.mbx = false → s.mlinkBusy = false → s.prof.tier = 0 → s.prof.sets.length = 4 → s.setOf c.val ≠ (2, 0) → s.takers c.val (2, 0) = [s.spareOf c.val] →
    (∀ i : Fin 64, (s.th (64 * s.spareOf c.val + i.val)).saveReq = none) →
    ∃ u, exec .calSwitchApply s = .next u ∧ u.setOf c.val = (2, 0) ∧ (u.clu? (s.spareOf c.val)).packet = true ∧ (u.clu? (s.spareOf c.val)).claimed = true) ∧
  (∀ (d : PDie) (e : Nat) (s : State), (s.pd d.val).seamEnd = some e → (s.pd (1 - d.val)).seamEnd.isSome = true →
    ∃ u, exec (.seamClose d) s = .next u ∧ u = { s with now := max s.now (s.cycTick e), pdies := u.pdies } ∧
      u.pd d.val = { s.pd d.val with seamEnd := none }) ∧
  (∀ (d : PDie) (e c : Nat) (s : State), (s.pd d.val).seamEnd = some e → (s.pd (1 - d.val)).seamEnd = none → c ∈ s.fmg.leaving →
    ∃ u, exec (.seamClose d) s = .next u ∧ (u.pd d.val).seamEnd = none ∧ u.fmg = { s.fmg with leaving := [] } ∧ (u.clu? c).packet = false ∧
      (u.clu? c).claimed = false ∧ (u.clu? c).eligAt = roundCeil (e + 1)) ∧
  (∀ (c : ClusterId) (cause : BitVec 16) (s : State), (s.clu? c.val).st = .live → (s.clu? c.val).detached = false → (s.clu? c.val).packet = false →
    (s.clu? c.val).claimed = false → s.pgState (cluPage c.val 0) = 2 →
    ∃ u, exec (.clusterFatal c cause) s = .next u ∧ u = { s with regs := u.regs, hw := u.hw, arrived := u.arrived, clu := u.clu, fmg := u.fmg, fmgq := u.fmgq, out := u.out } ∧
      u.clu? c.val = { s.clu? c.val with st := .lost } ∧ u.pgState (cluPage c.val 0) = 4) ∧
  (∀ (c : ClusterId) (cause : BitVec 16) (s : State), (s.clu? c.val).st = .lost →
    ∃ u, exec (.clusterFatal c cause) s = .next u ∧ (u.clu? c.val).st = .retired ∧ u.rb (ra (mPage 3) (0x118 + c.val / 32 * 4)) (c.val % 32) = true) ∧
  (∀ (c : Fin 4) (lost : Nat) (s : State), tFind s.fmg.claims c.val = some lost → (∀ i : Fin 64, (s.th (64 * s.spareOf c.val + i.val)).saveReq = none) →
    ∃ u q, exec (.spareReady c) s = .next u ∧ u = { s with fmg := u.fmg } ∧ u.fmg = { s.fmg with claims := tDel s.fmg.claims c.val, reqs := s.fmg.reqs ++ [q] } ∧
      q.sets = (List.range 4).map (fun i => if i = c.val then some (if lost = 64 then s.crossSet c.val else (1, lost)) else none) ∧ q.mbx = false) ∧
  (∀ (c : Fin 4) (i : Fin 64) (lost : Nat) (s : State), tFind s.fmg.claims c.val = some lost → (s.th (64 * s.spareOf c.val + i.val)).saveReq.isSome = true →
    (s.th (64 * s.spareOf c.val + i.val)).sbOwned ≠ 0 → (∀ j : Fin 64, j ≠ i → (s.th (64 * s.spareOf c.val + j.val)).saveReq = none) →
    exec (.spareReady c) s = .next s) ∧
  (∀ (c : ClusterId) (s : State), (s.clu? c.val).st = .lost → ((s.clu? c.val).packet = true → s.replaced c.val = true) →
    ∃ u, exec (.clusterReset c) s = .next u ∧ (u.clu? c.val).st = .resetting ∧ (u.clu? c.val).packet = false ∧ (u.clu? c.val).claimed = false ∧
      (u.clu? c.val).resetEnd = some (s.now + 50 * usTicks) ∧ (∀ i : Fin 64, u.th (64 * c.val + i.val) = Thread.fresh) ∧
      (∀ n : Fin 4, u.cop c.val n.val = Cop.idle) ∧ ∀ k, k / 8192 = c.val → tFind u.lines k = none) ∧
  (∀ (c : ClusterId) (e : Nat) (s : State), (s.clu? c.val).resetEnd = some e →
    ∃ u, exec (.clusterResetDone c) s = .next u ∧ (u.clu? c.val).st = .live ∧ (u.clu? c.val).resetEnd = none ∧ u.now = max s.now e ∧
      ∀ d : PDie, (u.pd d.val).sweeps = (s.pd d.val).sweeps ++ [(128 * c.val, 0x3F80)])

/-- R420 to R423, R457, R459, R461, R462, R496, R556: profile switches and the boot chain.
When a profile's EPC_CTRL.EN takes effect is the model's choice (log entry 209). -/
def Obligations.ProfileCommandsComplete : Prop :=
  (∀ (n : Fin 4) (p : Profile) (hp hs : List Byte) (s v : State), s.mbxBusy = false → v = s.setReg (aMbx 0x100) 0x80000000 → s.commitOpen = false →
    s.fmg.reqs = [] → v.verifyProfile n.val = .ok (p, hp, hs) → calOk p = true → needsCold s.prof.img p = false →
    ∃ u k, exec (.profileSelectWarm n) s = .next u ∧ u.commitOpen = true ∧ u.mbxJob = 1 ∧ u.reg (aMbx 0x100) = 0x80000000 ∧ u.prof = s.prof ∧
      u.epc = { s.epc with notBefore := 0, prof := some (n.val, p), checkEnd := k } ∧ s.now ≤ k ∧ k ≤ s.now + 40000 * usTicks ∧ u.act = s.act ∧
      u.rb (aEpc 0x170) 27 = true ∧ u.rf (aEpc 0x170) 26 25 = n.val) ∧
  (∀ (n : Fin 4) (s : State), s.mbxBusy = false → s.commitOpen = true →
    (∃ u, exec (.profileSelectWarm n) s = .next u ∧ u = { s with regs := u.regs, hw := u.hw, mbxJob := 0, out := u.out } ∧ u.reg (aMbx 0x100) = 0x40010000 ∧
      u.rf (aEpc 0x170) 23 21 = 4) ∧
    (∃ u, exec (.profileSelectCold n) s = .next u ∧ u = { s with regs := u.regs, hw := u.hw, mbxJob := 0, out := u.out } ∧ u.reg (aMbx 0x100) = 0x40010000 ∧
      u.rf (aEpc 0x170) 23 21 = 4)) ∧
  (∀ (n : Fin 4) (p : Profile) (hp hs : List Byte) (s v : State), s.mbxBusy = false → v = s.setReg (aMbx 0x100) 0x80000000 → s.commitOpen = false →
    s.fmg.reqs = [] → v.verifyProfile n.val = .ok (p, hp, hs) → calOk p = true →
    ∃ u, exec (.profileSelectCold n) s = .next u ∧ u.prof.active = n.val ∧ u.prof.img = p ∧ u.prof.sets = [(0, 0), (0, 0), (0, 0), (0, 0)] ∧
      u.epc.latch = none ∧ u.epc.prof = none ∧ u.sec.cold = true ∧ u.reg (aMbx 0x100) = 0x40000000 ∧ u.rf (aEpc 0x170) 31 30 = n.val ∧
      (∀ k : Fin 110, u.dom k.val = if k.val ∈ p.domains then 1 else 0)) ∧
  (∀ (n : Fin 4) (p : Profile) (hp hs : List Byte) (e : CalFault) (l : List CalFault) (s v : State), s.mbxBusy = false →
    v = s.setReg (aMbx 0x100) 0x80000000 → s.commitOpen = false → s.fmg.reqs = [] → v.verifyProfile n.val = .ok (p, hp, hs) → calFaults p = e :: l →
    ∃ u, exec (.profileSelectWarm n) s = .next u ∧ u = { s with regs := u.regs, hw := u.hw, mbxJob := 0, out := u.out } ∧ u.reg (aMbx 0x100) = 0x40100000 ∧
      u.rf (aEpc 0x170) 23 21 = 2 ∧ ∀ i : Fin 3, u.reg (aMbx (0x140 + 4 * i.val)) = Config.calReport i.val e.1 e.2.1 e.2.2) ∧
  (∀ (n : Fin 4) (t c : Nat) (s v : State), s.mbxBusy = false → v = s.setReg (aMbx 0x100) 0x80000000 → s.commitOpen = false → s.fmg.reqs = [] →
    v.verifyProfile n.val = .error (t, c) → t < 16 → c < 16 →
    ∀ i ∈ [Instr.profileSelectWarm n, .profileSelectCold n],
      ∃ u, exec i s = .next u ∧ u = { s with regs := u.regs, hw := u.hw, mbxJob := 0, out := u.out } ∧ u.reg (aMbx 0x100) = 0x40110000 ∧
        u.rf (aEpc 0x170) 23 21 = 3 ∧ u.rf (aSec 0x104) 23 20 = t ∧ u.rf (aSec 0x104) 19 16 = c) ∧
  (∀ (n : Fin 4) (s : State), ∃ u, exec (.boot true n) s = .next u ∧ u.sec.hostWait = 1 ∧ u.sec.hostBoot = true ∧ u.rf aBoot 19 16 = 1 ∧
    u.rb (aSec 0x104) 30 = false ∧ u.rf (aEpc 0x170) 29 28 = n.val ∧ u.fmgq = [] ∧ u.flights = []) ∧
  (∀ (n : Fin 4) (b1 b2 : Bool) (p : Profile) (hp hs : List Byte) (s s1 s2 v : State),
    ((s.restart.porstUp n.val).modSec fun x => { x with hostBoot := false }).bootCopies 1 0 0x40000 = (some b1, s1) →
    (s1.setRb (aSec 0x104) 29 b1).bootCopies 2 0x80000 0x1080000 = (some b2, s2) → v = (s2.setRb (aSec 0x104) 28 b2).firmware →
    v.verifyProfile n.val = .ok (p, hp, hs) → calOk p = true →
    ∃ u, exec (.boot false n) s = .next u ∧ u.prof.img = p ∧ u.prof.active = n.val ∧ u.rb (aSec 0x104) 31 = true ∧
      u.rf (aEpc 0x170) 31 30 = n.val ∧ v.sec.svnBoot ≤ u.sec.svnBoot ∧ v.sec.svnProf ≤ u.sec.svnProf) ∧
  (∀ s : State, s.sec.hostWait = 0 → exec .hostBootGo s = .next s) ∧
  (∀ (h b : List Byte) (c : Nat) (s : State), s.sec.hostWait = 1 → s.hostImage 1 = (h, b) → c = s.imageCode 1 h b [] → c ≠ 0 → s.sec.profWait = none →
    ∃ u, exec .hostBootGo s = .next u ∧ u = { s with regs := u.regs, hw := u.hw } ∧ u.rf aBoot 11 8 = c ∧ u.rb aBoot 1 = true ∧ u.rf (aSec 0x104) 23 20 = 1 ∧
      u.rf (aSec 0x104) 19 16 = c ∧ u.rb (aSec 0x104) 30 = true) ∧
  (∀ (h b : List Byte) (s : State), s.sec.hostWait = 1 → s.hostImage 1 = (h, b) → s.imageCode 1 h b [] = 0 → s.sec.profWait = none → s.sec.hostBoot = true →
    ∃ u, exec .hostBootGo s = .next u ∧ u = { s with regs := u.regs, hw := u.hw, sec := u.sec } ∧ u.rb (aSec 0x104) 30 = true ∧ u.sec.hostWait = 2 ∧ u.rf aBoot 11 8 = 0 ∧ u.rb aBoot 1 = true ∧
      u.rf aBoot 19 16 = 2)

/-- R454 to R457, R464 to R469: ownership, attestation, key loading and the random source.
How long ATTEST and KEY_LOAD take and what is seen meanwhile is the model's choice (log entries 226 and 228). -/
def Obligations.KeyCommandsComplete : Prop :=
  (∀ s : State, s.sec.ownerLock = false → (∀ i, i < 64 → s.ownerHash.getD i 0 &&& ~~~ s.otpWords.getD i 0 = 0) →
    ∃ u e, exec .burnOwner s = .next u ∧
      u = { s with regs := u.regs, sec := { s.sec with owner := s.otpWords, ownerLock := true, otpResult := 1, burn := some (e, s.ownerHash) }, draw := s.draw + 1 } ∧
      s.now ≤ e ∧ e ≤ s.now + 50000 * usTicks ∧ u.rb (aSec 0x100) 27 = true ∧ ∀ a, a ≠ aSec 0x100 → u.reg a = s.reg a) ∧
  (∀ s : State, s.sec.ownerLock = true → exec .burnOwner s = .next { s with sec := { s.sec with otpResult := 2 } }) ∧
  (∀ (i : Nat) (s : State), s.sec.ownerLock = false → i < 64 → s.ownerHash.getD i 0 &&& ~~~ s.otpWords.getD i 0 ≠ 0 →
    exec .burnOwner s = .next { s with sec := { s.sec with otpResult := 3 } }) ∧
  (∀ (slot : BitVec 6) (long : Bool) (kw : BitVec 4) (mask : BitVec 64) (ek dk b w key : List Byte) (s v : State), s.mbxBusy = false →
    v = s.setReg (aMbx 0x100) 0x80000000 → v.keyGate = 0 → v.mbxFits 0 (0x620 + if long then 40 else 24) = true → s.sec.tkey = some (ek, dk) →
    v.mbxIn 0 (0x620 + if long then 40 else 24) = (b, false, v) → w = (shake64 (kemDecaps dk (b.take 1568) ++ otpSerial ++ Config.slotBytes slot.toNat)).take 32 →
    kwUnwrapOk w (b.drop 0x620) = some key →
    ∃ u e, exec (.keyLoad slot long kw mask) s = .next u ∧
      u = { v with sec := { s.sec with task := some { due := e, parts := [], size := 0, kek := some (slot.toNat, kw.toNat, mask.toNat, key) } },
                   draw := s.draw + 1, mbxJob := 6 } ∧
      s.now ≤ e ∧ e ≤ s.now + 2000 * usTicks) ∧
  (∀ (t : SecTask) (slot kw mask : Nat) (key : List Byte) (s u : State), s.secDone = some t → t.kek = some (slot, kw, mask, key) → kw < 16 → u = s.secDue →
    u = { s with regs := u.regs, hw := u.hw, sec := u.sec, kek := u.kek, mbxJob := 0, out := u.out } ∧
      tFind u.sec.keks slot = some key ∧ u.sec.task = none ∧ u.reg (aMbx 0x100) = 0x40000000 ∧ u.reg (aSec 0x110) = nw u.sec.keks.length ∧
      ∀ (c : ClusterId) (k : Fin 16), tFind u.kek (16 * c.val + k.val) =
        if mask.testBit c.val = true ∧ k.val = kw then some key else tFind s.kek (16 * c.val + k.val)) ∧
  (∀ (slot : BitVec 6) (long : Bool) (kw : BitVec 4) (mask : BitVec 64) (s v : State), s.mbxBusy = false → v = s.setReg (aMbx 0x100) 0x80000000 → v.keyGate ≠ 0 →
    ∃ u, exec (.keyLoad slot long kw mask) s = .next u ∧ u = { s with regs := u.regs, hw := u.hw, mbxJob := 0, out := u.out } ∧
      u.reg (aMbx 0x100) = nw (0x40000000 + v.keyGate * 65536)) ∧
  (∀ (slot : BitVec 6) (kw : BitVec 4) (mask : BitVec 64) (key : List Byte) (s v : State), s.mbxBusy = false → v = s.setReg (aMbx 0x100) 0x80000000 → v.keyGate = 0 →
    tFind s.sec.keks slot.toNat = some key →
    ∃ u, exec (.keyPush slot kw mask) s = .next u ∧ u = { s with regs := u.regs, hw := u.hw, sec := u.sec, kek := u.kek, mbxJob := 0, out := u.out } ∧
      u.reg (aMbx 0x100) = 0x40000000 ∧ u.sec.keks = s.sec.keks ∧
      ∀ (c : ClusterId) (k : Fin 16), tFind u.kek (16 * c.val + k.val) =
        if mask.toNat.testBit c.val = true ∧ k.val = kw.toNat then some key else tFind s.kek (16 * c.val + k.val)) ∧
  (∀ (slot : BitVec 6) (kw : BitVec 4) (mask : BitVec 64) (s v : State), s.mbxBusy = false → v = s.setReg (aMbx 0x100) 0x80000000 → v.keyGate = 0 →
    tFind s.sec.keks slot.toNat = none →
    ∃ u, exec (.keyPush slot kw mask) s = .next u ∧ u = { s with regs := u.regs, hw := u.hw, mbxJob := 0, out := u.out } ∧ u.reg (aMbx 0x100) = 0x40140000) ∧
  (∀ (slot : BitVec 6) (s v : State), s.mbxBusy = false → v = s.setReg (aMbx 0x100) 0x80000000 → v.keyGate = 0 →
    ∃ u, exec (.keyClear slot) s = .next u ∧ u = { s with regs := u.regs, hw := u.hw, sec := u.sec, kek := u.kek, mbxJob := 0, out := u.out } ∧
      u.reg (aMbx 0x100) = 0x40000000 ∧ tFind u.sec.keks slot.toNat = none ∧ (∀ e ∈ u.sec.kekFrom, e.2 ≠ slot.toNat) ∧
      ∀ e ∈ s.sec.kekFrom, e.2 = slot.toNat → tFind u.kek e.1 = none) ∧
  (∀ (n : BitVec 7) (s v : State), s.mbxBusy = false → v = s.setReg (aMbx 0x100) 0x80000000 → 1 ≤ n.toNat → n.toNat ≤ 64 → v.mbxDram = false →
    ∃ u e rep, exec (.attest n false false) s = .next u ∧
      (s.identity ≠ none → s.now ≤ e ∧ e ≤ s.now + 20000 * usTicks ∧ rep.length = 1908 ∧ rep.take 0x270 = v.attReport (v.mbxIn 0 n.toNat).1 ∧
        u = { v with sec := { s.sec with task := some { due := e, parts := [(0, rep)], size := 1908, kek := none } }, draw := s.draw + 1, mbxJob := 6 }) ∧
      (s.identity = none → u = { s with regs := u.regs, hw := u.hw, mbxJob := 0, out := u.out } ∧ u.reg (aMbx 0x100) = 0x40040000)) ∧
  (∀ (t : SecTask) (rep : List Byte) (s u : State), s.secDone = some t → t.kek = none → t.parts = [(0, rep)] → rep.length ≤ 2048 → s.mbxDram = false →
    u = s.secDue →
    u = { s with regs := u.regs, hw := u.hw, sec := { s.sec with task := none }, mbxJob := 0, out := u.out } ∧
      (u.mbxIn 0 rep.length).1 = rep ∧ u.reg (aMbx 0x140) = nw t.size ∧ u.reg (aMbx 0x100) = 0x40000000) ∧
  (∀ (test : Word) (s : State), s.rb (ra (mPage 4) 0x020) 31 = false →
    ∃ u, exec (.rngHealthFail test) s = .next u ∧ u = { s with regs := u.regs, hw := u.hw, arrived := u.arrived, fmgq := u.fmgq, out := u.out } ∧ u.rngFailed = true ∧
      u.reg (ra (mPage 4) 0x020) = 0xA0000013 ∧ u.reg (ra (mPage 4) 0x024) = test) ∧
  (∀ s : State, 2 ^ 20 ≤ s.sec.draws → exec .drbgReseed s = .next { s with sec := { s.sec with draws := 0 }, draw := s.draw + 1 })

/-- R202, R235, R470 to R476: zeroization and debug unlocking.
That a running command is looked at as it ends, and the TAP's scan of DBG_UNLOCK, are the model's choices (log entries 226 and 229). -/
def Obligations.SecurityCommandsComplete : Prop :=
  (∀ s : State, s.mbxBusy = false → s.sec.zeroEnd = none →
    ∃ u, exec .zeroize s = .next u ∧ u.rb (aSec 0x100) 31 = true ∧ u.vault = [] ∧ u.kek = [] ∧ u.sec.keks = [] ∧ u.sec.kekFrom = [] ∧ u.sec.tkey = none ∧
      u.sec.zeroEnd = some (s.now + 10 * usTicks) ∧ u.mbxJob = 5 ∧ u.reg (aMbx 0x100) = 0x80000000 ∧
      (∀ (c : ClusterId) (i : Nat), i < 0x10000 → u.cmem.byte arrCmem (cmemAt c.val (0xC8000 + i)) = 0)) ∧
  (∀ s v : State, v = s.secDue → v.mbxBusy = true → v.sec.zeroEnd.isSome = true → exec .zeroize s = .next v) ∧
  (∀ (t : SecTask) (s : State), s.mbxBusy = true → s.mbxJob = 6 → s.sec.task = some t → s.now < t.due → s.sec.zeroEnd = none →
    ∃ u, exec .zeroize s = .next u ∧ u.sec.task = none ∧ u.reg (aMbx 0x100) = (if t.kek.isSome then 0x40060000 else 0x40050000) ∧
      u.sec.zeroEnd = some (s.now + 10 * usTicks) ∧ u.sec.keks = [] ∧ u.kek = [] ∧ u.reg (aMbx 0x140) = s.reg (aMbx 0x140)) ∧
  (∀ (n : Nat) (s : State), 100 ≤ n → s.sec.zeroEnd = none →
    (∃ u, exec (.zeroizePin n) s = .next u ∧ u.rb (aSec 0x100) 31 = true ∧ u.kek = [] ∧ u.sec.keks = [] ∧ u.sec.zeroEnd = some (s.now + 10 * usTicks) ∧
      u.sec.pins = (if n ≤ 10000 then s.sec.pins else s.sec.pins ||| 1)) ∧
    (∃ u, exec (.tamperPin n) s = .next u ∧ u.rb (aSec 0x100) 31 = true ∧ u.rb (aSec 0x100) 29 = true ∧ u.sec.keks = [] ∧
      u.sec.zeroEnd = some (s.now + 10 * usTicks) ∧ u.sec.pins = (if n ≤ 10000 then s.sec.pins else s.sec.pins ||| 2))) ∧
  (∀ (n : Nat) (s : State), n < 20 →
    exec (.zeroizePin n) s = .next { s with draw := s.draw + 1 } ∧ exec (.tamperPin n) s = .next { s with draw := s.draw + 1 }) ∧
  (∀ s : State, s.sec.pins = 1 → s.sec.zeroEnd = none →
    ∃ u, exec (.zeroizePinRelease false) s = .next u ∧ u = { s with regs := u.regs, sec := { s.sec with pins := 0 } } ∧ u.rb (aSec 0x100) 31 = false) ∧
  (∀ s : State, s.sec.pins = 2 → s.sec.zeroEnd = none →
    ∃ u, exec (.zeroizePinRelease true) s = .next u ∧ u = { s with regs := u.regs, sec := { s.sec with pins := 0 } } ∧ u.rb (aSec 0x100) 31 = false ∧
      u.rb (aSec 0x100) 29 = s.rb (aSec 0x100) 29) ∧
  (∀ (e : Nat) (s : State), s.sec.zeroEnd = some e → s.sec.pins = 0 →
    ∃ u, exec .zeroizationDone s = .next u ∧ u.sec.zeroEnd = none ∧ u.rb (aSec 0x100) 31 = false ∧ u.rb (aSec 0x100) 30 = true ∧
      u.reg (aSec 0x108) = s.reg (aSec 0x108) + 1 ∧ u.now = (if s.rngFailed then max s.now e else max s.rngAt (max s.now e) + 6000) ∧
      (s.rngFailed = false → u.sec.tkey.isSome = true) ∧
      (s.mbxJob = 5 → u.reg (aMbx 0x100) = 0x40000000) ∧
      ∀ d : PDie, u.rb (ra (pdPage d.val 4) 0x104) 31 = false ∧ u.rb (ra (pdPage d.val 4) 0x104) 30 = true) ∧
  (∀ s v : State, s.mbxBusy = false → s.tampered = false → s.rb (aSec 0x100) 25 = false → s.rngFailed = false → v = s.upTo s.rngAt →
    ∃ u b, exec .debugChallenge s = .next u ∧ u = { v with regs := u.regs, hw := u.hw, sec := u.sec, draw := u.draw, rngAt := v.now + 6000, mbxJob := 0, out := u.out } ∧
      u.sec.chal = some (b, (v.tb + 300000000000) % 2 ^ 64) ∧ b.length = 32 ∧ u.reg (aMbx 0x100) = 0x40000000 ∧
      ∀ i : Fin 8, u.reg (aMbx (0x140 + 4 * i.val)) = leWord (bytesAt b (4 * i.val) 4)) ∧
  (∀ (t : List Byte) (s v : State), s.mbxBusy = false → v = s.setReg (aMbx 0x100) 0x80000000 → v.mbxDram = true → v.mbxFits 0 0xC48 = true →
    s.tampered = false → v.mbxIn 0 0xC48 = (t, false, v) → v.tokenOk t = true →
    ∃ u, exec .debugUnlock s = .next u ∧ u = { s with regs := u.regs, hw := u.hw, sec := { s.sec with chal := none }, mbxJob := 0, out := u.out } ∧
      u.reg (aSec 0x10C) = nw (leAt t 4 4) ∧ u.rb (aSec 0x100) 26 = true ∧ u.rf (aSec 0x100) 3 0 = 0 ∧ u.reg (aMbx 0x100) = 0x40000000) ∧
  (∀ (t : List Byte) (s v : State), s.mbxBusy = false → v = s.setReg (aMbx 0x100) 0x80000000 → v.mbxDram = true → v.mbxFits 0 0xC48 = true →
    s.tampered = false → v.mbxIn 0 0xC48 = (t, false, v) → v.tokenOk t = false →
    ∃ u, exec .debugUnlock s = .next u ∧ u = { s with regs := u.regs, hw := u.hw, sec := { s.sec with chal := none }, mbxJob := 0, out := u.out } ∧
      u.reg (aSec 0x10C) = s.reg (aSec 0x10C) ∧ u.rf (aSec 0x100) 3 0 = min 8 (s.rf (aSec 0x100) 3 0 + 1) ∧ u.reg (aMbx 0x100) = 0x40040000 ∧
      (s.rf (aSec 0x100) 3 0 = 7 → u.rb (aSec 0x100) 25 = true)) ∧
  (∀ s : State, s.mbxBusy = false → s.tampered = false →
    ∃ u, exec .debugLock s = .next u ∧ u.reg (aSec 0x10C) = 0 ∧ bit (u.dbgReg 2) 31 = false ∧ u.reg (aMbx 0x100) = 0x40000000 ∧ u.sec = s.sec) ∧
  (∀ (a : BitVec 28) (s v : State), s.tampered = false → s.rb (aSec 0x100) 25 = false → s.rngFailed = false → v = s.upTo s.rngAt →
    ∃ u b, exec (.dbgAccess a .challenge) s = .next u ∧
      u = { v with sec := u.sec, draw := u.draw, rngAt := v.now + 6000, tap := { s.tap with extest := false }, out := .bytes b false :: .data 0 :: s.out } ∧
      u.sec.chal = some (b, (v.tb + 300000000000) % 2 ^ 64) ∧ b.length = 32) ∧
  (∀ (a : BitVec 28) (t : List Byte) (s : State), s.tampered = false → s.tokenOk (padTo 0xC48 t) = true →
    ∃ u, exec (.dbgAccess a (.unlock t)) s = .next u ∧
      u = { s with regs := u.regs, sec := { s.sec with chal := none }, tap := { s.tap with extest := false }, out := .data 0 :: s.out } ∧
      u.reg (aSec 0x10C) = nw (leAt (padTo 0xC48 t) 4 4) ∧ u.rb (aSec 0x100) 26 = true ∧ u.rf (aSec 0x100) 3 0 = 0) ∧
  (∀ (a : BitVec 28) (t : List Byte) (s : State), s.tampered = false → s.tokenOk (padTo 0xC48 t) = false →
    ∃ u, exec (.dbgAccess a (.unlock t)) s = .next u ∧
      u = { s with regs := u.regs, sec := { s.sec with chal := none }, tap := { s.tap with extest := false }, out := .data 4 :: s.out } ∧
      u.reg (aSec 0x10C) = s.reg (aSec 0x10C) ∧ u.rf (aSec 0x100) 3 0 = min 8 (s.rf (aSec 0x100) 3 0 + 1) ∧
      (s.rf (aSec 0x100) 3 0 = 7 → u.rb (aSec 0x100) 25 = true)) ∧
  (∀ (a : BitVec 28) (t : List Byte) (c : TapScan) (s : State), s.tampered = true → c = .challenge ∨ c = .unlock t ∨ c = .lock →
      exec (.dbgAccess a c) s = .next { s with tap := { s.tap with extest := false }, out := .data 4 :: s.out }) ∧
  (∀ (a : BitVec 28) (s : State), s.tampered = false →
    ∃ u, exec (.dbgAccess a .lock) s = .next u ∧ u = { s with regs := u.regs, dbg := u.dbg, tap := { s.tap with extest := false }, out := .data 0 :: s.out } ∧
      u.reg (aSec 0x10C) = 0 ∧ (∀ a, a ≠ aSec 0x10C → u.reg a = s.reg a) ∧ bit (u.dbgReg 2) 31 = false) ∧
  (∀ (b : List Byte) (e : Nat) (s : State), s.sec.chal = some (b, e) →
    exec .challengeExpiry s = .next { s with now := max s.now (s.tbTick e), sec := { s.sec with chal := none } })

/-- R478 to R482, R490, R491, R496: the feeds, the hold-up, the sensors and the thermal trip. -/
def Obligations.FeedCommandsComplete : Prop :=
  (∀ s : State, s.pwr.main = true → s.pwr.bkp = true → s.pwr.carrier = 1 →
    ∃ u, exec (.feedFail false) s = .next u ∧ u = { s with regs := u.regs, hw := u.hw, pwr := u.pwr, out := u.out } ∧
      u.pwr = { s.pwr with main := false, carrier := 2, holdEnd := none, defEnd := none, upEnd := none } ∧
      u.rf (aPwr 0x10C) 31 16 = min 65535 (s.rf (aPwr 0x10C) 31 16 + 1) ∧ u.rb (ra (mPage 1) 0x010) 8 = true) ∧
  (∀ s : State, s.pwr.main = true → s.pwr.bkp = true → s.pwr.carrier = 2 →
    (∃ u, exec (.feedFail true) s = .next u ∧ u = { s with regs := u.regs, hw := u.hw, pwr := u.pwr, out := u.out, epc := { s.epc with returnTb := some s.tb } } ∧
      u.pwr = { s.pwr with bkp := false, carrier := 1, holdEnd := none, defEnd := none, upEnd := none } ∧
      u.rf (aPwr 0x10C) 15 0 = min 65535 (s.rf (aPwr 0x10C) 15 0 + 1) ∧ u.rb (ra (mPage 1) 0x010) 8 = true) ∧
    exec (.feedFail false) s = .next { s with pwr := { s.pwr with main := false, holdEnd := none, defEnd := none } }) ∧
  (∀ s : State, s.pwr.main = true → s.pwr.bkp = true → s.pwr.carrier = 1 → exec (.feedFail true) s = .next { s with pwr := { s.pwr with bkp := false } }) ∧
  (∀ s : State, s.pwr.main = true → s.pwr.bkp = false →
    ∃ u, exec (.feedFail false) s = .next u ∧ u.now = s.now ∧ u.sec.zeroEnd.isSome = true ∧
      u.pwr = { s.pwr with main := false, carrier := 0, holdEnd := none, defEnd := none, trip := false, upEnd := some (s.now + 12 * usTicks) }) ∧
  (∀ s : State, s.pwr.main = false → s.pwr.bkp = true →
    ∃ u, exec (.feedFail true) s = .next u ∧ u.now = s.now ∧ u.sec.zeroEnd.isSome = true ∧
      u.pwr = { s.pwr with bkp := false, carrier := 0, holdEnd := none, defEnd := none, trip := false, upEnd := some (s.now + 12 * usTicks) }) ∧
  (∀ s : State, (s.pwr.main = false → exec (.feedFail false) s = .next s) ∧ (s.pwr.bkp = false → exec (.feedFail true) s = .next s) ∧
    (s.pwr.main = true → (s.pwr.carrier ≠ 2 ∨ s.pwr.defEnd.isSome = true) → exec (.feedOk false) s = .next s) ∧
    (s.pwr.main = true → s.pwr.carrier = 2 → s.pwr.defEnd = none →
      exec (.feedOk false) s = .next { s with pwr := { s.pwr with holdEnd := some (s.now + max 1 (s.rf (aPwr 0x104) 15 0) * 1000 * usTicks) } }) ∧
    (s.pwr.bkp = true → exec (.feedOk true) s = .next s)) ∧
  (∀ s : State, s.pwr.main = false → s.pwr.bkp = false → s.pwr.carrier = 0 → s.pwr.upEnd = none →
    exec (.feedOk false) s = .next { s with pwr := { s.pwr with main := true, carrier := 1, good := !s.pwr.trip } } ∧
    exec (.feedOk true) s = .next { s with pwr := { s.pwr with bkp := true, carrier := 2, good := !s.pwr.trip } }) ∧
  (∀ (t : Nat) (s : State), s.pwr.main = false → s.pwr.bkp = false → s.pwr.carrier = 0 → s.pwr.upEnd = some t →
    (∃ u, exec (.feedOk false) s = .next u ∧ u = { s with regs := u.regs, hw := u.hw, pwr := u.pwr, epc := u.epc, out := u.out } ∧
      u.pwr = { s.pwr with main := true, carrier := 1, holdEnd := none, defEnd := none, upEnd := none }) ∧
    (∃ u, exec (.feedOk true) s = .next u ∧ u = { s with regs := u.regs, hw := u.hw, pwr := u.pwr, out := u.out } ∧
      u.pwr = { s.pwr with bkp := true, carrier := 2, holdEnd := none, defEnd := none, upEnd := none })) ∧
  (∀ s : State, s.pwr.main = false → s.pwr.carrier = 2 →
    exec (.feedOk false) s = .next { s with pwr := { s.pwr with main := true, holdEnd := some (s.now + max 1 (s.rf (aPwr 0x104) 15 0) * 1000 * usTicks) } }) ∧
  (∀ s : State, s.pwr.bkp = false → s.pwr.carrier = 1 → exec (.feedOk true) s = .next { s with pwr := { s.pwr with bkp := true } }) ∧
  (∀ (t : Nat) (s : State), s.pwr.holdEnd = some t → s.rb (aPwr 0x104) 31 = false →
    ∃ u, exec .returnHoldEnd s = .next u ∧ u = { s with now := max s.now t, regs := u.regs, hw := u.hw, pwr := u.pwr, epc := u.epc, out := u.out } ∧
      u.pwr = { s.pwr with carrier := 1, holdEnd := none, defEnd := none, upEnd := none } ∧ u.epc = { s.epc with returnTb := some u.tb } ∧
      u.rf (aPwr 0x10C) 15 0 = min 65535 (s.rf (aPwr 0x10C) 15 0 + 1)) ∧
  (∀ (t v : Nat) (s s1 : State), s.pwr.holdEnd = some t → s.rb (aPwr 0x104) 31 = true → s1 = s.upTo t → s1.nearTarget = some v →
    ∃ u, exec .returnHoldEnd s = .next u ∧
      u = { s with now := max s.now t, regs := u.regs, hw := u.hw, pwr := { s.pwr with holdEnd := none, defEnd := some (s1.tbTick (tbMove v 12000)) } } ∧
      u.rf (aPwr 0x110) 15 0 = min 65535 (s.rf (aPwr 0x110) 15 0 + 1)) ∧
  (∀ (t : Nat) (s : State), s.pwr.defEnd = some t →
    ∃ u, exec .returnDeferEnd s = .next u ∧ u = { s with now := max s.now t, regs := u.regs, hw := u.hw, pwr := u.pwr, epc := u.epc, out := u.out } ∧
      u.pwr = { s.pwr with carrier := 1, holdEnd := none, defEnd := none, upEnd := none } ∧ u.epc = { s.epc with returnTb := some u.tb }) ∧
  (∀ (t : Nat) (s : State), s.pwr.upEnd = some t →
    ∃ u, exec .holdupExpiry s = .next u ∧ (s.upTo t).powerCut.lostAll u ∧ u.now = max s.now t ∧ u.pwr.good = false ∧ u.pwr.upEnd = none ∧
      (s.sec.burn = none → u.sec.owner = s.sec.owner ∧ u.sec.ownerLock = s.sec.ownerLock) ∧
      (∀ e old, s.sec.burn = some (e, old) → max s.now t < e → u.sec.ownerLock = false ∧
        ∀ i, i < 64 → ∃ m, u.sec.owner.getD i 0 = old.getD i 0 ||| (s.sec.owner.getD i 0 &&& m))) ∧
  (∀ s : State, (s.pwr.holdEnd = none → exec .returnHoldEnd s = .next s) ∧ (s.pwr.defEnd = none → exec .returnDeferEnd s = .next s) ∧
    (s.pwr.upEnd = none → exec .holdupExpiry s = .next s)) ∧
  (∀ (m b : BitVec 16) (s : State), ∃ u, exec (.vinSample m b) s = .next u ∧
    u = { s with regs := u.regs, pwr := { s.pwr with holdEnd := if m.toNat < 10800 then none else s.pwr.holdEnd } } ∧
    u.reg (aPwr 0x108) = nw (m.toNat * 65536 + b.toNat) ∧ ∀ a, a ≠ aPwr 0x108 → u.reg a = s.reg a) ∧
  (∀ (l : List (BitVec 10)) (warn : Int) (s : State), l.length = 46 → warn = toSigned 8 (s.rf (aPwr 0x160) 7 0) →
    ∃ (u : State) (m : Int), exec (.tempSample l) s = .next u ∧ u = { s with regs := u.regs, hw := u.hw, out := u.out } ∧ m = toSigned 8 (u.rf (aPwr 0x160) 15 8) ∧
      (∀ i : Fin 46, u.rf (aPwr (0x200 + 4 * i.val)) 9 0 = (l.getD i.val 0).toNat ∧ toSigned 10 (l.getD i.val 0).toNat / 4 ≤ m ∧
        (u.rf (aPwr 0x160) 23 16 = i.val → m = toSigned 10 (l.getD i.val 0).toNat / 4)) ∧
      u.rf (aPwr 0x160) 23 16 < 46 ∧ u.rf (aPwr 0x160) 7 0 = s.rf (aPwr 0x160) 7 0 ∧ (warn ≤ m → u.rb (aPwr 0x160) 31 = true) ∧
      (m < warn - 5 → u.rb (aPwr 0x160) 31 = false) ∧ (m < warn → warn - 5 ≤ m → u.rb (aPwr 0x160) 31 = s.rb (aPwr 0x160) 31)) ∧
  (∀ s : State, ∃ u, exec .thermalTrip s = .next u ∧ u.now = s.now + 12 * usTicks ∧ u.pwr.trip = true ∧ u.pwr.good = false ∧ u.pwr.faultN = true ∧
    u.pwr.carrier = s.pwr.carrier ∧ u.sec.keks = [] ∧ u.sec.tkey = none ∧ u.vault = [] ∧ u.thr = [] ∧ u.flash = s.flash ∧ ∀ a, u.reg a = regReset a)

/-- R41, R484 to R489, R492, R493: DVFS, the power domains, the Tally. -/
def Obligations.PowerCommandsComplete : Prop :=
  (∀ (v : Word) (s : State), s.pwr.dvfs = none → fld v 1 0 ≠ s.rf (aPwr 0x120) 5 4 →
    ∃ u, exec (.pwrDvfsWrite v) s = .next u ∧ u = { s with regs := u.regs, pwr := u.pwr } ∧
      u.pwr = { s.pwr with dvfs := some (fld v 1 0, if s.rf (aPwr 0x120) 5 4 < fld v 1 0 then 0 else 2, s.now) } ∧ u.rf (aPwr 0x120) 1 0 = fld v 1 0 ∧
      u.rb (aPwr 0x120) 31 = true ∧ u.rf (aPwr 0x120) 5 4 = s.rf (aPwr 0x120) 5 4 ∧ ∀ a, a ≠ aPwr 0x120 → u.reg a = s.reg a) ∧
  (∀ (v : Word) (s : State), s.pwr.dvfs.isSome = true ∨ fld v 1 0 = s.rf (aPwr 0x120) 5 4 →
    ∃ u, exec (.pwrDvfsWrite v) s = .next u ∧ u = { s with regs := u.regs } ∧ u.rf (aPwr 0x120) 1 0 = fld v 1 0 ∧
      u.rb (aPwr 0x120) 31 = s.rb (aPwr 0x120) 31 ∧ ∀ a, a ≠ aPwr 0x120 → u.reg a = s.reg a) ∧
  (∀ (t b : Nat) (s : State), s.pwr.dvfs = some (t, 0, b) → exec .dvfsRailSettled s = .next { s with pwr := { s.pwr with dvfs := some (t, 1, b) } }) ∧
  (∀ (t b : Nat) (s : State), s.pwr.dvfs = some (t, 3, b) → s.rf (aPwr 0x120) 1 0 = s.rf (aPwr 0x120) 5 4 →
    ∃ u, exec .dvfsRailSettled s = .next u ∧ u = { s with regs := u.regs, pwr := { s.pwr with dvfs := none } } ∧ u.rb (aPwr 0x120) 31 = false) ∧
  (∀ (t b : Nat) (s : State), s.pwr.dvfs = some (t, 3, b) → s.rf (aPwr 0x120) 1 0 ≠ s.rf (aPwr 0x120) 5 4 →
    ∃ u k, exec .dvfsRailSettled s = .next u ∧ u = { s with regs := u.regs, pwr := { s.pwr with dvfs := some (s.rf (aPwr 0x120) 1 0, k, s.now) } } ∧
      u.rb (aPwr 0x120) 31 = true) ∧
  (∀ (t b c : Nat) (s : State), t < 4 → s.pwr.dvfs = some (t, 1, b) → c = roundCeil s.cycCeil → s.rf (aPwr 0x120) 1 0 = t →
    ∃ u, exec .dvfsApply s = .next u ∧ u = { s with now := max s.now (s.cycTick c), clk := u.clk, regs := u.regs, pwr := { s.pwr with dvfs := none } } ∧
      u.clk = { point := t, cycAt := s.cycTick c, cycNo := c } ∧ u.rf (aPwr 0x120) 5 4 = t ∧ u.rb (aPwr 0x120) 31 = false) ∧
  (∀ (t b c : Nat) (s : State), t < 4 → s.pwr.dvfs = some (t, 2, b) → c = roundCeil s.cycCeil →
    ∃ u, exec .dvfsApply s = .next u ∧ u = { s with now := max s.now (s.cycTick c), clk := u.clk, regs := u.regs, pwr := { s.pwr with dvfs := some (t, 3, b) } } ∧
      u.clk = { point := t, cycAt := s.cycTick c, cycNo := c } ∧ u.rf (aPwr 0x120) 5 4 = t ∧ u.rb (aPwr 0x120) 31 = s.rb (aPwr 0x120) 31) ∧
  (∀ s : State, s.pwr.dvfs = none → exec .dvfsRailSettled s = .next s ∧ exec .dvfsApply s = .next s) ∧
  (∀ (n : Fin 128) (s : State), s.pwr.domCmd.isSome = true ∨ s.railsOff = true → exec (.domainOn n) s = .next s ∧ exec (.domainIdle n) s = .next s ∧ exec (.domainOff n) s = .next s) ∧
  (∀ (n : Fin 128) (i : Instr) (s : State), i ∈ [.domainOn n, .domainIdle n, .domainOff n] → s.pwr.domCmd = none → s.railsOff = false → 110 ≤ n.val →
    ∃ u, exec i s = .next u ∧ u = { s with regs := u.regs } ∧ u.reg (aPwr 0x130) = 0x30000000 ∧ ∀ a, a ≠ aPwr 0x130 → u.reg a = s.reg a) ∧
  (∀ (n : Fin 128) (s : State), s.pwr.domCmd = none → s.railsOff = false → n.val < 110 → s.domRefused n.val 0 = true →
    ∃ u, exec (.domainOff n) s = .next u ∧ u = { s with regs := u.regs } ∧ u.reg (aPwr 0x130) = 0x10000000) ∧
  (∀ (n : Fin 128) (s : State), s.pwr.domCmd = none → s.railsOff = false → n.val < 110 → s.domRefused n.val 2 = true →
    ∃ u, exec (.domainIdle n) s = .next u ∧ u = { s with regs := u.regs } ∧ u.reg (aPwr 0x130) = 0x10000000) ∧
  (∀ (n : Fin 128) (s : State), s.pwr.domCmd = none → s.railsOff = false → n.val < 110 → s.dom n.val ≠ 1 → s.domChanging n.val = false →
    ∃ u, exec (.domainOn n) s = .next u ∧ u = { s with regs := u.regs, pwr := u.pwr } ∧ u.reg (aPwr 0x130) = 0x80000000 ∧
      u.pwr = { s.pwr with domCmd := some n.val, domWas := s.dom n.val, domSw := s.pwr.domSw ++ [(n.val, 1, s.now + domTime (domOf n.val) (s.dom n.val))] }) ∧
  (∀ (n : Fin 128) (s : State), s.pwr.domCmd = none → s.railsOff = false → n.val < 110 → s.dom n.val ≠ 0 → s.offOk (domOf n.val) = true → s.domChanging n.val = false →
    ∃ u, exec (.domainOff n) s = .next u ∧ u = { s with regs := u.regs, pwr := u.pwr, doms := u.doms } ∧ u.reg (aPwr 0x130) = 0x80000000 ∧ u.dom n.val = 0 ∧
      u.pwr = { s.pwr with domCmd := some n.val, domWas := s.dom n.val, domSw := s.pwr.domSw ++ [(n.val, 0, s.now)] } ∧ ∀ k, k ≠ n.val → u.dom k = s.dom k) ∧
  (∀ (n : Fin 128) (s : State), s.pwr.domCmd = none → s.railsOff = false → n.val < 110 → s.dom n.val ≠ 2 → s.domRefused n.val 2 = false → s.domChanging n.val = false →
    ∃ u, exec (.domainIdle n) s = .next u ∧ u = { s with regs := u.regs, pwr := u.pwr, doms := u.doms } ∧ u.reg (aPwr 0x130) = 0x80000000 ∧ u.dom n.val = 2 ∧
      u.pwr = { s.pwr with domCmd := some n.val, domWas := s.dom n.val, domSw := s.pwr.domSw ++ [(n.val, 2, s.now)] } ∧ ∀ k, k ≠ n.val → u.dom k = s.dom k) ∧
  (∀ (n st t : Nat) (s : State), nextSwitch s.pwr.domSw = some (n, st, t) → s.pwr.domCmd = some n → st < 3 →
    (∃ u, exec (.domainSwitchDone false) s = .next u ∧ u.dom n = st ∧ u.now = max s.now t ∧ u.reg (aPwr 0x130) = 0 ∧ u.pwr.domCmd = none ∧
      (∀ e ∈ u.pwr.domSw, e.1 ≠ n) ∧ ∀ k, k ≠ n → u.dom k = s.dom k) ∧
    (∃ u, exec (.domainSwitchDone true) s = .next u ∧ u.dom n = 0 ∧ u.reg (aPwr 0x130) = 0x20000000 ∧ u.pwr.domCmd = none ∧
      (s.rb (ra (mPage 1) 0x020) 31 = false → u.rf (ra (mPage 1) 0x020) 30 28 = 3) ∧ ∀ k, k ≠ n → u.dom k = s.dom k)) ∧
  (∀ (b : Bool) (s : State), s.pwr.domSw = [] → exec (.domainSwitchDone b) s = .next s) ∧
  (∀ s : State, ∃ u, exec .tallyUpdate s = .next u ∧
    u = { s with now := max s.now (s.tallyAt + s.tbTicks 1000), tally := u.tally, tallyAt := u.now, draw := s.draw + 1 } ∧
      ∀ (pg i : Nat) (k : Kind), pageKind pg = some (k, i) → pg < 28672 →
        tGet (fun _ => 0) u.tally pg =
          (tGet (fun _ => 0) s.tally pg + if (pageDom k pg).any (fun n => decide (s.dom n = 0)) then 0 else Config.energy pg s.draw) % 2 ^ 64) ∧
  (∀ (pg : Nat) (m : Fin 2) (s : State), ∃ u, exec (.tallyRead pg m) s = .next u ∧
    u = { s with tallyHi := u.tallyHi, out := .data (nw (tGet (fun _ => 0) s.tally pg)) :: s.out } ∧
      tGet (fun _ => 0) u.tallyHi (2 * pg + m.val) = nw (tGet (fun _ => 0) s.tally pg / 2 ^ 32) ∧
      ∀ k, k ≠ 2 * pg + m.val → tGet (fun _ => 0) u.tallyHi k = tGet (fun _ => 0) s.tallyHi k)

/-- R494, R495, R497, R515, R554: the resets of the part and the loss of its reference clock.
The page that records a lost SDS_REFCLK is the model's inference (log entry 230). -/
def Obligations.ResetCommandsComplete : Prop :=
  (∀ (n : Nat) (s : State), 1000 ≤ n →
    ∃ u, exec (.powerOnReset n) s = .next u ∧ s.lostAll u ∧ u.now = s.now ∧ u.pwr.faultN = false ∧
      u.pwr.carrier = (if s.railsOff then (if s.pwr.main then 1 else if s.pwr.bkp then 2 else 0) else s.pwr.carrier) ∧
      u.pwr.good = decide (u.pwr.carrier ≠ 0)) ∧
  (∀ (n : Nat) (s : State), n < 100 → exec (.powerOnReset n) s = .next s) ∧
  (∀ (n : Nat) (s : State), 100 ≤ n → n < 1000 →
    ∃ u, exec (.powerOnReset n) s = .next u ∧ (u = { s with draw := s.draw + 1 } ∨ (s.lostAll u ∧ u.pwr.faultN = false))) ∧
  (∀ s : State, ∃ u, exec .pcieReset s = .next u ∧ s.dmaStopped u ∧ u.perst = true ∧ u.dom 110 = 0) ∧
  (∀ s : State, ∃ u, exec .flr s = .next u ∧ s.dmaStopped u ∧ u.perst = s.perst ∧ u.doms = s.doms) ∧
  (∀ s : State, ∃ u, exec .perstRelease s = .next u ∧ u = { s with perst := false, doms := u.doms } ∧ u.dom 110 = 1 ∧ ∀ k, k ≠ 110 → u.dom k = s.dom k) ∧
  (∀ s : State, ∃ u, exec .refclkLoss s = .next u ∧ u = { s with regs := u.regs, hw := u.hw, arrived := u.arrived, fmgq := u.fmgq, out := u.out, pwr := { s.pwr with faultN := true }, halted := u.halted } ∧
    0 ∈ u.halted ∧ 1 ∈ u.halted ∧ u.rb (ra (mPage 2) 0x100) 31 = false ∧ u.rb (ra (mPage 3) 0x104) 31 = true ∧
    (s.rb (ra (mPage 2) 0x020) 31 = false → u.reg (ra (mPage 2) 0x020) = 0xD000000F) ∧
    (s.fmgq.length < 64 → u.fmgq = s.fmgq ++ [{ cls := 5, source := eventSource (mPage 2), cause := 0x0F, page := mPage 2, tb := s.tb }])) ∧
  (∀ (k : Fin 8) (j : Nat) (s u : State), u = s.strike (13, k.val, j) →
    u = { s with regs := u.regs, hw := u.hw, arrived := u.arrived, fmgq := u.fmgq, out := u.out, links := u.links, portOff := u.portOff } ∧
    u.rb (ra (mPage 2) 0x100) (22 + k.val) = false ∧ u.rb (ra (mPage 2) 0x100) k.val = false ∧
    (∀ i, i < 64 → (s.usesQuad (k.val / 4) (k.val % 4 * 2) i = true ∨ s.usesQuad (k.val / 4) (k.val % 4 * 2 + 1) i = true) →
      tFind u.links (64 * (k.val / 4) + i) = none) ∧
    (s.rb (ra (mPage 2) 0x020) 31 = false → u.reg (ra (mPage 2) 0x020) = 0xB000000F)) ∧
  (∀ (i j : Nat) (s u : State), u = s.strike (14, i, j) → u = { s with regs := u.regs } ∧ u.rb (ra (mPage 2) 0x100) 30 = false ∧
    ∀ a, a ≠ ra (mPage 2) 0x100 → u.reg a = s.reg a)

/-- R435: a channel that fails its training or whose delays leave the trained range becomes FAULTED, with the channel fatal error. -/
def Obligations.ChannelsOutsideTheirTrainingFault : Prop :=
  (∀ (ch : ChannelId) (s : State), s.rb (aDmcStat ch.val) 28 = true →
    ∃ u, exec (.channelResetDone ch false) s = .next u ∧ u.faulted ch.val = true ∧
      (s.rb (ra (dmcPage ch.val) 0x020) 31 = false → u.reg (ra (dmcPage ch.val) 0x020) = 0xB000000D ∧ u.reg (ra (dmcPage ch.val) 0x024) = 1)) ∧
  (∀ (ch : ChannelId) (s : State), ∃ u, exec (.dramTracking ch false) s = .next u ∧ u.faulted ch.val = true ∧
    (s.faulted ch.val = false → (∀ p, s.retire ≠ some (ch.val, p)) → s.rb (ra (dmcPage ch.val) 0x020) 31 = false →
      u.reg (ra (dmcPage ch.val) 0x020) = 0xB000000D ∧ u.reg (ra (dmcPage ch.val) 0x024) = 2))

/-- R432 to R443: tracking, parity, reset and refresh of the DRAM channels, and the mirror windows. -/
def Obligations.ChannelCommandsComplete : Prop :=
  (∀ (ch : ChannelId) (b : Bool) (s v : State), v = s.upTo (s.tbTick (nextCongr (s.tb + 1) (ch.val * 3125000) 100000000)) →
    (s.faulted ch.val = true → exec (.dramTracking ch b) s = .next v) ∧
    (s.faulted ch.val = false → s.retire = none → ∃ e w, v.now ≤ e ∧ e ≤ v.now + usTicks ∧ w = { v with trackEnd := tPut s.trackEnd ch.val e, draw := s.draw + 1 } ∧
      exec (.dramTracking ch true) s = .next w ∧ ∃ u, exec (.dramTracking ch false) s = .next u ∧ w.channelDown u ch.val 2)) ∧
  (∀ (ch : ChannelId) (p : Nat) (s : State), s.faulted ch.val = false → s.retire = some (ch.val, p) → s.mbxJob = 3 →
    ∃ u, exec (.dramTracking ch true) s = .next u ∧ u.retire = none ∧ u.mbxJob = 0 ∧ u.reg (aMbx 0x100) = 0x40000000 ∧
      ∀ n : Fin 64, s.rb (aRemap ch.val n.val) 31 = true → s.rf (aRemap ch.val n.val) 19 0 = p → u.rb (aRemap ch.val n.val) 30 = true) ∧
  (∀ (ch : ChannelId) (k : Fin 4) (s : State), k.val ≠ 3 →
    ∃ u, exec (.commandParityAlert ch k) s = .next u ∧ u = { s with regs := u.regs, hw := u.hw } ∧
      (u.reg (ra (dmcPage ch.val) 0x11C)).toNat = min (2 ^ 32 - 1) ((s.reg (ra (dmcPage ch.val) 0x11C)).toNat + 1) ∧
      ∀ a, a ≠ ra (dmcPage ch.val) 0x11C → u.reg a = s.reg a) ∧
  (∀ (ch : ChannelId) (s : State), ∃ u, exec (.commandParityAlert ch 3) s = .next u ∧ s.channelDown u ch.val 3 ∧
    (u.reg (ra (dmcPage ch.val) 0x11C)).toNat = min (2 ^ 32 - 1) ((s.reg (ra (dmcPage ch.val) 0x11C)).toNat + 1)) ∧
  (∀ (ch : ChannelId) (kind : BitVec 2) (s : State), ∃ u, exec (.channelFatal ch kind) s = .next u ∧ s.channelDown u ch.val kind.toNat) ∧
  (∀ (ch : ChannelId) (s : State), s.domIsOn (domStack (ch.val / 16) (ch.val % 16 / 8)) = true → s.rb (aDmcStat ch.val) 28 = false →
    ∃ u, exec (.channelReset ch) s = .next u ∧ u = { s with regs := u.regs, hw := u.hw, out := u.out } ∧ u.rb (aDmcStat ch.val) 28 = true ∧
      u.rb (aDmcStat ch.val) 31 = false ∧ u.pgState (dmcPage ch.val) = if s.pgState (dmcPage ch.val) = 4 then 5 else s.pgState (dmcPage ch.val)) ∧
  (∀ (ch : ChannelId) (s : State), s.domIsOn (domStack (ch.val / 16) (ch.val % 16 / 8)) = true → s.rb (aDmcStat ch.val) 28 = true →
    exec (.channelReset ch) s = .next s) ∧
  (∀ (ch : ChannelId) (d : PDie) (w : Fin 4) (i : Instr) (s : State), (i = .channelReset ch ∧ s.domIsOn (domStack (ch.val / 16) (ch.val % 16 / 8)) = false) ∨
    (i = .mirrorResync d w ∧ s.domIsOn (domStack d.val 0) = false) →
    ∃ u, exec i s = .next u ∧ u = { s with regs := u.regs, hw := u.hw } ∧ (∀ a, a ≠ ra (mPage 1) 0x134 → u.reg a = s.reg a) ∧
      u.rf (ra (mPage 1) 0x134) 15 0 = min 65535 (s.rf (ra (mPage 1) 0x134) 15 0 + 1)) ∧
  (∀ (ch : ChannelId) (s : State), s.rb (aDmcStat ch.val) 28 = true →
    (∃ u, exec (.channelResetDone ch true) s = .next u ∧ u = { s with regs := u.regs, hw := u.hw, out := u.out, dram := u.dram, draw := s.draw + 1 } ∧ u.faulted ch.val = false ∧
      u.rb (aDmcStat ch.val) 28 = false ∧ u.rb (aDmcStat ch.val) 31 = true ∧
      ∀ a, tFind u.dram.cells a = if dramChan a = ch.val then none else tFind s.dram.cells a) ∧
    (∃ u, exec (.channelResetDone ch false) s = .next u ∧ u.faulted ch.val = true ∧ u.rb (aDmcStat ch.val) 28 = false ∧
      (∀ w : Fin 4, s.rb (aMir (ch.val / 16) w.val) 31 = true → u.rb (aMir (ch.val / 16) w.val) 30 = true) ∧
      ∀ a, tFind u.dram.cells a = if dramChan a = ch.val then none else tFind s.dram.cells a)) ∧
  (∀ (ch : ChannelId) (b : Bool) (s : State), s.rb (aDmcStat ch.val) 28 = false → exec (.channelResetDone ch b) s = .next s) ∧
  (∀ (d : PDie) (w : Fin 4) (k : Fin 16) (s : State), s.rb (aMir d.val w.val) 31 = true → tFind s.resync ((4 * d.val + w.val) * 16 + k.val) = some 0 →
    s.faulted (16 * d.val + k.val) = false → s.domIsOn (domStack d.val 0) = true →
    ∃ u, exec (.mirrorResync d w) s = .next u ∧ u = { s with regs := u.regs, resync := u.resync } ∧ u.rb (aMir d.val w.val) 29 = true ∧
      (∀ a, a ≠ aMir d.val w.val → u.reg a = s.reg a) ∧ tFind u.resync ((4 * d.val + w.val) * 16 + k.val) = some 1 ∧
      ∀ x, (x / 16 ≠ 4 * d.val + w.val ∨ tFind s.resync x ≠ some 0 ∨ s.faulted (16 * d.val + x % 16) = true) → tFind u.resync x = tFind s.resync x) ∧
  (∀ (d : PDie) (w : Fin 4) (s : State), s.domIsOn (domStack d.val 0) = true → s.rb (aMir d.val w.val) 31 = false → exec (.mirrorResync d w) s = .next s) ∧
  (∀ (d : PDie) (w : Fin 4) (k : Fin 16) (s : State), tFind s.resync ((4 * d.val + w.val) * 16 + k.val) = some 1 →
    ∃ u, exec (.resyncDone d w) s = .next u ∧ u = { s with regs := u.regs, dram := u.dram, resync := u.resync } ∧ u.rb (aMir d.val w.val) 29 = false ∧
      tFind u.resync ((4 * d.val + w.val) * 16 + k.val) = none ∧ (∀ x, tFind s.resync x ≠ some 1 → tFind u.resync x = tFind s.resync x) ∧
      ((∀ j : Fin 16, tFind s.resync ((4 * d.val + w.val) * 16 + j.val) ≠ some 0) → u.rb (aMir d.val w.val) 30 = false) ∧
      (tFind s.resync ((4 * d.val + w.val) * 16 + (if k.val < 8 then k.val + 8 else k.val - 8)) ≠ some 1 → ∀ a ∈ s.windowWords d.val w.val k.val, ∀ i, i < 8 →
        u.dram.byte arrDram (a + i) = s.dram.byte arrDram ((if k.val < 8 then a + 2048 else a - 2048) + i))) ∧
  (∀ (d : PDie) (w : Fin 4) (s : State), s.resyncing d.val w.val 1 = [] → exec (.resyncDone d w) s = .next s) ∧
  (∀ (ch : ChannelId) (op : RefreshOp) (n p : Nat) (s : State), n = s.rf (aRef ch.val) 3 0 → p = tGet (fun _ => 0) s.pulled ch.val →
    ∃ u, exec (.refresh ch op) s = .next u ∧ u = { s with regs := u.regs, pulled := u.pulled } ∧ (∀ a, a ≠ aRef ch.val → u.reg a = s.reg a) ∧
      (op = .issue → u.rf (aRef ch.val) 3 0 = n - 1 ∧ tGet (fun _ => 0) u.pulled ch.val = p) ∧
      (op = .postpone → 0 < p → u.rf (aRef ch.val) 3 0 = n ∧ tGet (fun _ => 0) u.pulled ch.val = p - 1) ∧
      (op = .postpone → p = 0 → u.rf (aRef ch.val) 3 0 = min 8 (n + 1) ∧ tGet (fun _ => 0) u.pulled ch.val = 0) ∧
      (op = .pullIn → 0 < n → u.rf (aRef ch.val) 3 0 = n - 1 ∧ tGet (fun _ => 0) u.pulled ch.val = p) ∧
      (op = .pullIn → n = 0 → u.rf (aRef ch.val) 3 0 = 0 ∧ tGet (fun _ => 0) u.pulled ch.val = min 8 (p + 1))) ∧
  (∀ (ch : ChannelId) (m : Byte) (rate n : Nat) (s : State), rate = Config.mr4Rate m.toNat → n = s.rf (aRef ch.val) 3 0 →
    ∃ u, exec (.mr4Poll ch m) s = .next u ∧ u = { s with regs := u.regs, hw := u.hw, arrived := u.arrived, out := u.out } ∧ u.reg (ra (dmcPage ch.val) 0x10C) = nw m.toNat ∧
      u.rb (aRef ch.val) 4 = decide (1 ≤ rate) ∧
      (1 ≤ rate → s.rb (aRef ch.val) 4 = false → u.rf (aRef ch.val) 3 0 = min 8 (2 * n)) ∧
      (rate = 0 → s.rb (aRef ch.val) 4 = true → u.rf (aRef ch.val) 3 0 = (n + 1) / 2) ∧
      (s.rb (aRef ch.val) 4 = decide (1 ≤ rate) → u.rf (aRef ch.val) 3 0 = n) ∧
      (2 ≤ rate → s.rb (ra (dmcPage ch.val) 0x020) 31 = false → u.reg (ra (dmcPage ch.val) 0x020) = 0x90000010 ∧
        u.reg (ra (dmcPage ch.val) 0x024) = nw m.toNat))

/-- R434, R444 to R452, R544, R557: fills, scrubs and retirement. -/
def Obligations.MemoryServiceCommandsComplete : Prop :=
  (∀ (ch : ChannelId) (s : State), s.domIsOn (domStack (ch.val / 16) (ch.val % 16 / 8)) = false →
    ∃ u, exec (.dmcFill ch) s = .next u ∧ u = { s with regs := u.regs, hw := u.hw } ∧ (∀ a, a ≠ ra (mPage 1) 0x134 → u.reg a = s.reg a) ∧
      u.rf (ra (mPage 1) 0x134) 15 0 = min 65535 (s.rf (ra (mPage 1) 0x134) 15 0 + 1)) ∧
  (∀ (ch : ChannelId) (p n : Nat) (s : State), s.domIsOn (domStack (ch.val / 16) (ch.val % 16 / 8)) = true →
    p = s.rf (ra (dmcPage ch.val) 0x130) 19 0 → n = s.rf (ra (dmcPage ch.val) 0x134) 20 0 →
    (s.filling ch.val = true → exec (.dmcFill ch) s = .next s) ∧
    (s.filling ch.val = false → s.fillOk ch.val p n = false →
      ∃ u, exec (.dmcFill ch) s = .next u ∧ u = { s with regs := u.regs, hw := u.hw } ∧ u.reg (aFill ch.val) = 0x50000000) ∧
    (s.filling ch.val = false → s.fillOk ch.val p n = true →
      ∃ u, exec (.dmcFill ch) s = .next u ∧ u = { s with regs := u.regs, fills := u.fills } ∧ u.reg (aFill ch.val) = 0x80000000 ∧
        tFind u.fills ch.val = some (p, n, s.pair (ra (dmcPage ch.val) 0x138)) ∧ ∀ a, a ≠ aFill ch.val → u.reg a = s.reg a)) ∧
  (∀ (ch : ChannelId) (p n pat : Nat) (s : State), tFind s.fills ch.val = some (p, n, pat) → p + n ≤ 1048512 →
    ∃ u, exec (.dmcFillDone ch) s = .next u ∧ u = { s with regs := u.regs, hw := u.hw, dram := u.dram, fills := u.fills } ∧ u.reg (aFill ch.val) = 0x40000000 ∧
      tFind u.fills ch.val = none ∧
      ∀ g i, g < 7 * n → i < 256 → s.faulted ch.val = false → s.mirOf (dramOfL ch.val (256 * (7 * p + g))) = none →
        u.dram.byte arrDram (dramOfL ch.val (256 * (7 * p + g)) + i) = (leBytes 8 pat).getD (i % 8) 0) ∧
  (∀ (ch : ChannelId) (s : State), tFind s.fills ch.val = none → exec (.dmcFillDone ch) s = .next s) ∧
  (∀ (d p n : Nat) (s : State), d = s.rf (aHst 0x140) 0 0 → p = s.rf (aHst 0x144) 19 0 → n = s.rf (aHst 0x148) 20 0 →
    (s.hstFill.isSome = true → exec .hstFill s = .next s) ∧
    (s.hstFill = none → (∃ k, k < 16 ∧ (s.filling (16 * d + k) = true ∨ s.fillOk (16 * d + k) p n = false)) →
      ∃ u, exec .hstFill s = .next u ∧ u = { s with regs := u.regs, hw := u.hw } ∧ u.reg (aHst 0x154) = 0x50000000) ∧
    (s.hstFill = none → (∀ k, k < 16 → s.filling (16 * d + k) = false ∧ s.fillOk (16 * d + k) p n = true) →
      ∃ u, exec .hstFill s = .next u ∧ u = { s with regs := u.regs, fills := u.fills, hstFill := some d } ∧ u.reg (aHst 0x154) = 0x80000000 ∧
        ∀ k, k < 16 → u.filling (16 * d + k) = true ∧ tFind u.fills (16 * d + k) = some (p, n, s.pair (aHst 0x14C)))) ∧
  (∀ (d : Nat) (s : State), s.hstFill = some d → (∀ k, k < 16 → s.filling (16 * d + k) = false) →
    ∃ u, exec .hstFillDone s = .next u ∧ u = { s with regs := u.regs, hw := u.hw, hstFill := none } ∧ u.reg (aHst 0x154) = 0x40000000) ∧
  (∀ s : State, s.hstFill = none → exec .hstFillDone s = .next s) ∧
  (∀ (k : BitVec 4) (i : BitVec 6) (a : BitVec 36) (n : Word) (s : State), s.mbxBusy = false → k.toNat ∈ [3, 5, 6, 7] → i.toNat < 2 → a.toNat % 8 = 0 →
    n.toNat % 8 = 0 → a.toNat + n.toNat ≤ arrayBytes k.toNat → (∀ j, j < n.toNat / 8 → s.recFlaw k.toNat i.toNat (a.toNat + 8 * j) = none) →
    ∃ u, exec (.scrub k i a n) s = .next u ∧ u = { s with regs := u.regs, hw := u.hw, mbxJob := 0, out := u.out } ∧ u.reg (aMbx 0x100) = 0x40000000 ∧
      u.reg (aMbx 0x140) = nw (n.toNat / 8) ∧ u.reg (aMbx 0x144) = 0 ∧ u.reg (aMbx 0x148) = 0xFFFFFFFF ∧ u.reg (aMbx 0x14C) = 0xFFFFFFFF) ∧
  (∀ (k : BitVec 4) (i : BitVec 6) (a : BitVec 36) (f : Flaw) (s : State), s.mbxBusy = false → k.toNat ∈ [3, 5, 6, 7] → i.toNat < 2 → a.toNat % 8 = 0 →
    a.toNat + 8 ≤ arrayBytes k.toNat → s.recFlaw k.toNat i.toNat a.toNat = some f →
    ∃ u, exec (.scrub k i a 8) s = .next u ∧ u.reg (aMbx 0x100) = 0x40000000 ∧ u.reg (aMbx 0x140) = 1 ∧
      u.reg (aMbx 0x144) = (if f.ue then 1 else 0x10000) ∧ (f.ue = true → u.pair (aMbx 0x148) = a.toNat)) ∧
  (∀ (i : BitVec 6) (a : BitVec 36) (w : Nat) (s : State), s.mbxBusy = false → a.toNat % 8 = 0 → a.toNat + 8 ≤ 2 ^ 20 → w = (i.toNat * 2 ^ 20 + a.toNat) / 8 →
    ∃ u, exec (.scrub 8 i a 8) s = .next u ∧ u.reg (aMbx 0x100) = 0x40000000 ∧ u.reg (aMbx 0x140) = 1 ∧
      u.cmem.read arrCmem (8 * w) 8 = s.cmem.read arrCmem (8 * w) 8 ∧
      (s.cmem.code arrCmem w = 0 → u.reg (aMbx 0x144) = 0 ∧ u.cmem = s.cmem) ∧
      (s.cmem.code arrCmem w = 1 → u.reg (aMbx 0x144) = 0x10000 ∧ u.cmem.code arrCmem w = 0) ∧
      (s.cmem.code arrCmem w = 2 → u.reg (aMbx 0x144) = 1 ∧ u.pair (aMbx 0x148) = a.toNat ∧ u.cmem = s.cmem)) ∧
  (∀ (k : BitVec 4) (i : BitVec 6) (a : BitVec 36) (n : Word) (s : State), s.mbxBusy = false → 8 < k.toNat ∨ a.toNat % 8 ≠ 0 ∨ n.toNat % 8 ≠ 0 →
    ∃ u, exec (.scrub k i a n) s = .next u ∧ u = { s with regs := u.regs, hw := u.hw, mbxJob := 0, out := u.out } ∧ u.reg (aMbx 0x100) = 0x40030000) ∧
  (∀ (k : BitVec 4) (ch : BitVec 5) (p : BitVec 20) (m : Nat) (s : State), s.mbxBusy = false → k.toNat = ch.toNat / 16 → p.toNat < 1048512 →
    (∀ n, n < 64 → s.rb (aRemap ch.toNat n) 31 = true → s.rf (aRemap ch.toNat n) 19 0 ≠ p.toNat) → m < 64 → s.rb (aRemap ch.toNat m) 31 = false →
    (∀ n, n < m → s.rb (aRemap ch.toNat n) 31 = true) →
    ∃ u, exec (.retireDram k ch p) s = .next u ∧ u = { s with regs := u.regs, retire := some (ch.toNat, p.toNat), mbxJob := 3 } ∧
      u.reg (aMbx 0x100) = 0x80000000 ∧ u.reg (aRemap ch.toNat m) = nw (2 ^ 31 + p.toNat) ∧
      u.rf (aDmcStat ch.toNat) 6 0 = (s.rf (aDmcStat ch.toNat) 6 0 + 1) % 128) ∧
  (∀ (k : BitVec 4) (ch : BitVec 5) (p : BitVec 20) (n : Nat) (s : State), s.mbxBusy = false → k.toNat = ch.toNat / 16 → p.toNat < 1048512 → n < 64 →
    s.rb (aRemap ch.toNat n) 31 = true → s.rf (aRemap ch.toNat n) 19 0 = p.toNat →
    ∃ u, exec (.retireDram k ch p) s = .next u ∧ u = { s with regs := u.regs, hw := u.hw, mbxJob := 0, out := u.out } ∧ u.reg (aMbx 0x100) = 0x40120000) ∧
  (∀ (k : BitVec 4) (i : BitVec 6) (b : Word) (s : State), s.mbxBusy = false → 2 ≤ k.toNat → k.toNat ≤ 8 → i.toNat < arrayInsts k.toNat →
    b.toNat * 32768 < arrayBytes k.toNat → s.sparesUsed k.toNat i.toNat < 2 →
    ∃ u, exec (.retireSram k i b) s = .next u ∧ u = { s with regs := u.regs, retire := some (k.toNat * 64 + i.toNat, b.toNat), mbxJob := 4 } ∧
      u.reg (aMbx 0x100) = 0x80000000) ∧
  (∀ (k : BitVec 4) (i : BitVec 6) (b : Word) (s : State), s.mbxBusy = false → 2 ≤ k.toNat → k.toNat ≤ 8 → i.toNat < arrayInsts k.toNat →
    b.toNat * 32768 < arrayBytes k.toNat → arraySpares k.toNat ≤ s.sparesUsed k.toNat i.toNat →
    ∃ u, exec (.retireSram k i b) s = .next u ∧ u = { s with regs := u.regs, hw := u.hw, mbxJob := 0, out := u.out } ∧ u.reg (aMbx 0x100) = 0x40130000) ∧
  (∀ (k : BitVec 4) (i : BitVec 6) (b : Nat) (s : State), s.retire = some (k.toNat * 64 + i.toNat, b) → s.mbxJob = 4 →
    ∃ u, exec (.sramRetireDone k i) s = .next u ∧ u.retire = none ∧ u.mbxJob = 0 ∧ u.reg (aMbx 0x100) = 0x40000000 ∧
      u.banks = tPut s.banks ((k.toNat * 64 + i.toNat) * 4 + s.sparesUsed k.toNat i.toNat) b) ∧
  (∀ (k : BitVec 4) (i : BitVec 6) (s : State), s.mbxJob ≠ 4 → exec (.sramRetireDone k i) s = .next s)

/-- R503, R507, R508, R512 to R516: the FMG queue, lane repair, slices and dies that fail. -/
def Obligations.FaultCommandsComplete : Prop :=
  (∀ (a b : List FmgEntry) (e : FmgEntry) (s : State), s.fmgq = a ++ e :: b → (∀ x ∈ a, x.cls < e.cls) → (∀ x ∈ b, x.cls ≤ e.cls) →
    exec .fmgQPop s = .next { s with fmgq := a ++ b }) ∧
  (∀ s : State, s.fmgq = [] → exec .fmgQPop s = .next s) ∧
  (∀ (l : Link) (s : State), ∃ u, exec (.laneFailure l true) s = .next u ∧ u = { s with repairs := u.repairs } ∧ tFind u.repairs (linkNo l) = some 1 ∧
    ∀ k, k ≠ linkNo l → tFind u.repairs k = tFind s.repairs k) ∧
  (∀ (l : Link) (s : State),
    ∃ u, exec (.laneFailure l false) s = .next u ∧ u = { s with regs := u.regs, hw := u.hw, arrived := u.arrived, fmgq := u.fmgq, out := u.out, repairs := u.repairs, draw := s.draw + 1 } ∧
      tFind u.repairs (linkNo l) = some 2 ∧ ∀ pg ∈ linkPages l, s.rb (ra pg 0x020) 31 = false → u.reg (ra pg 0x020) = 0xB000000C) ∧
  (∀ (l : Link) (s : State), tFind s.repairs (linkNo l) = some 1 →
    (∃ u, exec (.laneRepairDone l true) s = .next u ∧ u = { s with repairs := u.repairs } ∧ tFind u.repairs (linkNo l) = none ∧
      ∀ k, k ≠ linkNo l → tFind u.repairs k = tFind s.repairs k) ∧
    (∃ u, exec (.laneRepairDone l false) s = .next u ∧ u = { s with regs := u.regs, hw := u.hw, arrived := u.arrived, fmgq := u.fmgq, out := u.out, repairs := u.repairs, draw := s.draw + 1 } ∧
      tFind u.repairs (linkNo l) = some 2)) ∧
  (∀ (l : Link) (b : Bool) (s : State), tFind s.repairs (linkNo l) ≠ some 1 → exec (.laneRepairDone l b) s = .next s) ∧
  (∀ (d : PDie) (sl : Slice) (s : State),
    ∃ u, exec (.sliceFatal d sl) s = .next u ∧ (∀ p : Fin 3, s.pgState (slicePage d.val sl.val p.val) ≠ 0 → u.pgState (slicePage d.val sl.val p.val) = 5) ∧
      (s.rb (ra (macPage d.val sl.val) 0x020) 31 = false → u.reg (ra (macPage d.val sl.val) 0x020) = 0xB000000E) ∧
      tGet (fun _ => []) (u.pd d.val).ingress sl.val = [] ∧ tGet (fun _ => []) (u.pd d.val).egress (s.txKey d.val sl.val) = [] ∧
      tGet (fun _ => []) (u.pd d.val).fifo (s.txKey d.val sl.val) = [] ∧ (∀ q ∈ s.sliceQuads d.val sl.val, .txIdle (8 * d.val + q) ∈ u.out) ∧
      u.reg (ra (macPage d.val sl.val) 0x100) = s.reg (ra (macPage d.val sl.val) 0x100)) ∧
  (∀ (d : PDie) (sl : Slice) (s : State),
    ∃ u, exec (.sliceRestored d sl) s = .next u ∧ u = { s with regs := u.regs, hw := u.hw, out := u.out } ∧ ∀ (p : Fin 3) (pg : Nat), pg = slicePage d.val sl.val p.val →
      u.pgState pg = if s.pgState pg = 5 then (if s.rb (ra pg 0x008) 0 = true ∧ s.rb (ra pg 0x008) 1 = false then 2 else 3) else s.pgState pg) ∧
  (∀ (die : Fin 7) (s : State),
    ∃ u, exec (.dieFatal die) s = .next u ∧ u = { s with regs := u.regs, hw := u.hw, arrived := u.arrived, clu := u.clu, fmg := u.fmg, fmgq := u.fmgq, out := u.out, draw := u.draw, halted := u.halted, pwr := { s.pwr with faultN := true } } ∧
      u.fmg = { s.fmg with claims := [], reqs := s.fmg.reqs.filter (·.mbx) } ∧
      (∀ c : ClusterId, (s.clu? c.val).st = .lost ∨ (s.clu? c.val).st = .resetting → (u.clu? c.val).st = .resetting ∧ (u.clu? c.val).resetEnd = none) ∧
      (∀ (d : PDie) (sl : Slice) (p : Fin 3), s.pgState (slicePage d.val sl.val p.val) = 5 → u.pgState (slicePage d.val sl.val p.val) = 4) ∧
      (die.val < 4 → s.rb (ra (dsvPage die.val) 0x020) 31 = false → u.rf (ra (dsvPage die.val) 0x020) 30 28 = 4) ∧
      (die.val = 4 ∨ die.val = 5 → s.fmgq.length < 64 →
        u.fmgq = s.fmgq ++ [{ cls := 4, source := eventSource (pdPage (die.val - 4) 7), cause := 0x12, page := pdPage (die.val - 4) 7, tb := s.tb }]) ∧
      (die.val = 6 → s.fmgq.length < 64 → u.fmgq = s.fmgq ++ [{ cls := 5, source := eventSource (mPage 3), cause := 0x12, page := mPage 3, tb := s.tb }]) ∧
      (if (die.val = 4 ∨ die.val = 5) ∧ s.rb (ra (mPage 3) 0x100) 31 = true then die.val - 4 ∈ u.halted else 0 ∈ u.halted ∧ 1 ∈ u.halted))

/-- R429, R548 to R555: BAR2, the punt and inject rings of the queue pairs. -/
def Obligations.HostDataCommandsComplete : Prop :=
  (∀ (a : BitVec 36) (n : Nat) (b : List Byte) (s : State), s.perst = true → exec (.bar2Read a n) s = .next s ∧ exec (.bar2Write a b) s = .next s) ∧
  (∀ (a : BitVec 36) (n : Nat) (s : State), s.perst = false → s.dramRange a.toNat n = true →
    (∀ x, a.toNat / 8 ≤ x → x < (a.toNat + n + 7) / 8 → s.mirOf (8 * x) = none ∧ s.faulted (dramChan (8 * x)) = false ∧ s.dram.code arrDram x = 0 ∧
      tFind s.linkErr (dramChan (8 * x)) = none) →
    exec (.bar2Read a n) s = .next { s with out := .bytes (s.dram.read arrDram a.toNat n) false :: s.out }) ∧
  (∀ (a : BitVec 36) (s : State), s.perst = false → s.dramRange a.toNat 8 = true → a.toNat % 8 = 0 → s.mirOf a.toNat = none → s.faulted (dramChan a.toNat) = false →
    s.dram.code arrDram (a.toNat / 8) = 2 → tFind s.linkErr (dramChan a.toNat) = none →
    ∃ u, exec (.bar2Read a 8) s = .next u ∧ u = { s with regs := u.regs, hw := u.hw, arrived := u.arrived, fmgq := u.fmgq, out := u.out } ∧ u.out.head? = some (.bytes (s.dram.read arrDram a.toNat 8) true) ∧
      (u.reg (ra (dmcPage (dramChan a.toNat)) 0x704)).toNat = min (2 ^ 32 - 1) ((s.reg (ra (dmcPage (dramChan a.toNat)) 0x704)).toNat + 1)) ∧
  (∀ (a : BitVec 36) (n : Nat) (s : State), s.perst = false → s.dramRange a.toNat n = false →
    ∃ u, exec (.bar2Read a n) s = .next u ∧ u = { s with regs := u.regs, hw := u.hw, out := .unsupported :: s.out } ∧
      (u.reg (aHst 0x114)).toNat = min (2 ^ 32 - 1) ((s.reg (aHst 0x114)).toNat + 1)) ∧
  (∀ (a : BitVec 36) (b : List Byte) (s : State), s.perst = false → s.dramRange a.toNat b.length = false →
    ∃ u, exec (.bar2Write a b) s = .next u ∧ u = { s with regs := u.regs, hw := u.hw } ∧ (u.reg (aHst 0x114)).toNat = min (2 ^ 32 - 1) ((s.reg (aHst 0x114)).toNat + 1)) ∧
  (∀ (a : BitVec 36) (b : List Byte) (s : State), s.perst = false → s.dramRange a.toNat b.length = true → a.toNat % 8 = 0 → b.length % 8 = 0 →
    (∀ x, a.toNat ≤ x → x < a.toNat + b.length → s.mirOf x = none ∧ s.faulted (dramChan x) = false) →
    ∃ u, exec (.bar2Write a b) s = .next u ∧ u = { s with dram := u.dram } ∧ u.dram.read arrDram a.toNat b.length = b ∧
      ∀ x, (x < a.toNat ∨ a.toNat + b.length ≤ x) → u.dram.byte arrDram x = s.dram.byte arrDram x) ∧
  (∀ (q : Fin 16) (i : BitVec 16) (s : State), s.dmaOn q.val = true →
    (∃ u, exec (.dmaPuntTail q i) s = .next u ∧ u = { s with regs := u.regs } ∧ u.rf (aDma q.val 0x11C) 15 0 = i.toNat ∧
      ∀ a, a ≠ aDma q.val 0x11C → u.reg a = s.reg a) ∧
    (∃ u, exec (.dmaInjectTail q i) s = .next u ∧ u = { s with regs := u.regs } ∧ u.rf (aDma q.val 0x13C) 15 0 = i.toNat ∧
      ∀ a, a ≠ aDma q.val 0x13C → u.reg a = s.reg a)) ∧
  (∀ (q : Fin 16) (i : BitVec 16) (c : Instr) (s : State), c ∈ [.dmaPuntTail q i, .dmaInjectTail q i] → s.dmaOn q.val = false →
    ∃ u, exec c s = .next u ∧ u = { s with regs := u.regs, hw := u.hw } ∧ u.rf (ra (mPage 1) 0x134) 15 0 = min 65535 (s.rf (ra (mPage 1) 0x134) 15 0 + 1) ∧
      ∀ a, a ≠ ra (mPage 1) 0x134 → u.reg a = s.reg a) ∧
  (∀ (q : Fin 16) (s : State), tGet (fun _ => []) s.punts q.val = [] → exec (.puntDelivery q) s = .next s) ∧
  (∀ (q : Fin 16) (p : Punt) (r : List Punt) (s : State), tGet (fun _ => []) s.punts q.val = p :: r → s.dmaPosted q.val 0x110 = false →
    ∃ u, exec (.puntDelivery q) s = .next u ∧ tGet (fun _ => []) u.punts q.val = r ∧ u.host = s.host ∧
      ((∀ k, (s.pool (p.pkt.port / 64 % 2) k).till.length + s.bufs.length < 500) → u.dram = s.dram) ∧
      (u.reg (aDma q.val 0x154)).toNat = min (2 ^ 32 - 1) ((s.reg (aDma q.val 0x154)).toNat + 1)) ∧
  (∀ (q : Fin 16) (p : Punt) (r : List Punt) (e len : Nat) (w : List Byte) (f : List Byte × Bool × State) (s : State), tGet (fun _ => []) s.punts q.val = p :: r →
    s.dmaPosted q.val 0x110 = true → s.dmaDest q.val = false → e = s.dmaHead q.val 0x110 64 → w = s.hostRead e 12 → len = leAt w 8 2 → p.pkt.len ≤ len →
    f = State.readFrame { s with punts := tSet (fun _ => []) s.punts q.val r } (p.pkt.port / 64 % 2) p.pkt.handle → f.2.1 = false →
    ∃ u, exec (.puntDelivery q) s = .next u ∧ tGet (fun _ => []) u.punts q.val = r ∧
      u.host = ((s.hostWrite (leAt w 0 8) f.1).hostWrite (e + 8) (p.words len false)).host ∧
      (u.reg (aDma q.val 0x150)).toNat = min (2 ^ 32 - 1) ((s.reg (aDma q.val 0x150)).toNat + 1) ∧
      u.rf (aDma q.val 0x120) 15 0 = (s.rf (aDma q.val 0x120) 15 0 + 1) % s.dmaSize q.val 0x110 ∧
      (tGet (fun _ => Pair.idle) u.dpairs q.val).due.isSome = true) ∧
  (∀ (q : Fin 16) (p : Punt) (r : List Punt) (e : Nat) (w : List Byte) (s : State), tGet (fun _ => []) s.punts q.val = p :: r →
    s.dmaPosted q.val 0x110 = true → s.dmaDest q.val = false → e = s.dmaHead q.val 0x110 64 → w = s.hostRead e 12 → leAt w 8 2 < p.pkt.len →
    ∃ u, exec (.puntDelivery q) s = .next u ∧ tGet (fun _ => []) u.punts q.val = r ∧ u.host = s.host ∧ u.dpairs = s.dpairs ∧
      (u.reg (aDma q.val 0x158)).toNat = min (2 ^ 32 - 1) ((s.reg (aDma q.val 0x158)).toNat + 1) ∧
      u.rf (aDma q.val 0x120) 15 0 = s.rf (aDma q.val 0x120) 15 0) ∧
  (∀ (q : Fin 16) (t : Nat) (s : State), (tGet (fun _ => Pair.idle) s.dpairs q.val).due = some t →
    ∃ u, exec (.puntInterrupt q) s = .next u ∧
      u = { s with now := max s.now t, dpairs := u.dpairs, out := .msix (s.rf (aDma q.val 0x100) 8 0) :: s.out } ∧
      tGet (fun _ => Pair.idle) u.dpairs q.val = { last := some u.now, due := none }) ∧
  (∀ (q : Fin 16) (s : State), (tGet (fun _ => Pair.idle) s.dpairs q.val).due = none → exec (.puntInterrupt q) s = .next s) ∧
  (∀ (q : Fin 16) (s : State), s.pairOpen q.val = false ∨ s.dmaPosted q.val 0x130 = false → exec (.inject q) s = .next s) ∧
  (∀ (q : Fin 16) (e len : Nat) (w : List Byte) (s : State), s.pairOpen q.val = true → s.dmaPosted q.val 0x130 = true → s.dmaDest q.val = false →
    e = s.dmaHead q.val 0x130 32 → w = s.hostRead e 24 → len = leAt w 8 4 % 2 ^ 14 → len < 60 ∨ 10236 < len ∨ 2 ≤ bitsOf (leAt w 12 4) 27 26 →
    ∃ u, exec (.inject q) s = .next u ∧ u = { s with regs := u.regs, hw := u.hw, host := u.host } ∧
      u.host = (s.hostWrite (e + 8) (leBytes 4 (2 ^ 31 + 2 * 2 ^ 28 + len))).host ∧
      u.rf (aDma q.val 0x140) 15 0 = (s.rf (aDma q.val 0x140) 15 0 + 1) % s.dmaSize q.val 0x130 ∧
      (u.reg (aDma q.val 0x164)).toNat = min (2 ^ 32 - 1) ((s.reg (aDma q.val 0x164)).toNat + 1)) ∧
  (∀ (q : Fin 16) (e len d h : Nat) (w f : List Byte) (s s2 s3 : State), s.pairOpen q.val = true → s.dmaPosted q.val 0x130 = true → s.dmaDest q.val = false →
    e = s.dmaHead q.val 0x130 32 → w = s.hostRead e 24 → len = leAt w 8 4 % 2 ^ 14 → 60 ≤ len → len ≤ 10236 → bitsOf (leAt w 12 4) 27 26 < 2 →
    d = leAt w 12 4 / 2 ^ 31 → f = s.hostRead (leAt w 0 8) len → s.storeFrame d 136 (engine 2 0 q.val) f = (some h, s2) →
    s2.tmStep2 d (injectTx w h len s2.gen s2.tb (if s2.rb (aDma q.val 0x100) 30 then 3 else 2)) = (true, s3) →
    ∃ u, exec (.inject q) s = .next u ∧ u = { s3 with regs := u.regs, hw := u.hw, arrived := u.arrived, host := u.host, dram := u.dram, fmgq := u.fmgq, out := u.out, linkErr := u.linkErr, draw := u.draw } ∧
      (s3.dmaDest q.val = false → u.host = (s3.hostWrite (e + 8) (leBytes 4 (2 ^ 31 + len))).host ∧
        (u.reg (aDma q.val 0x160)).toNat = min (2 ^ 32 - 1) ((s3.reg (aDma q.val 0x160)).toNat + 1)))

/-- R461, R462, R558: the flash commands of the xSPI port. -/
def Obligations.FlashCommandsComplete : Prop :=
  (∀ (a d n : Nat) (s : State), s.xspiArgs = (a, d, n) → a % 65536 = 0 → n % 65536 = 0 → s.dramRange d n = true → d % 8 = 0 →
    (∀ x, d ≤ x → x < d + n → s.mirOf x = none ∧ s.faulted (dramChan x) = false) →
    ∃ u, exec .xspiRead s = .next u ∧ u = { s with regs := u.regs, dram := u.dram } ∧ u.reg (aHst 0x160) = 0 ∧ u.dram.read arrDram d n = s.flashRead a n ∧
      ∀ x, (x < d ∨ d + n ≤ x) → u.dram.byte arrDram x = s.dram.byte arrDram x) ∧
  (∀ (a d n : Nat) (s : State), s.xspiArgs = (a, d, n) → a % 65536 ≠ 0 ∨ n % 65536 ≠ 0 ∨ s.dramRange d n = false →
    (∃ u, exec .xspiRead s = .next u ∧ u = { s with regs := u.regs } ∧ u.reg (aHst 0x160) = 0x10000000) ∧
    (∃ u, exec .xspiProgram s = .next u ∧ u = { s with regs := u.regs } ∧ u.reg (aHst 0x160) = 0x10000000)) ∧
  (∀ (a d n : Nat) (s : State), s.xspiArgs = (a, d, n) → a % 65536 = 0 → n % 65536 = 0 → s.dramRange d n = true → touchesBoth a n = false →
    ∃ u, exec .xspiProgram s = .next u ∧ u = { (s.dramRead d n).2.2 with regs := u.regs, flash := u.flash } ∧ u.reg (aHst 0x160) = 0 ∧
      u.flashRead a n = (s.dramRead d n).1 ∧ ∀ x, (x < a ∨ a + n ≤ x) → tGet flashByte u.flash x = tGet flashByte s.flash x) ∧
  (∀ (a d n : Nat) (s : State), s.xspiArgs = (a, d, n) → a % 65536 = 0 → n % 65536 = 0 → touchesBoth a n = false →
    ∃ u, exec .xspiErase s = .next u ∧ u = { s with regs := u.regs, flash := u.flash } ∧ u.reg (aHst 0x160) = 0 ∧
      (∀ x, a ≤ x → x < a + n → tGet flashByte u.flash x = 0xFF) ∧ ∀ x, (x < a ∨ a + n ≤ x) → tGet flashByte u.flash x = tGet flashByte s.flash x) ∧
  (∀ (a d n : Nat) (s : State), s.xspiArgs = (a, d, n) → a % 65536 ≠ 0 ∨ n % 65536 ≠ 0 ∨ touchesBoth a n = true →
    ∃ u, exec .xspiErase s = .next u ∧ u = { s with regs := u.regs } ∧ u.reg (aHst 0x160) = 0x10000000)

/-- R78, R153, R181, R182, R215, R474, R475, R563, R564: thread debug. -/
def Obligations.DebugCommandsComplete : Prop :=
  (∀ (o : OwnerId) (c : Instr) (s : State), c ∈ [.dbgStop o, .dbgResume o, .dbgStep o, .dbgKill o, .runRecord o] → s.perm 2 = false →
    ∃ u, exec c s = .next u ∧ u = { s with dbg := u.dbg } ∧ u.dbgReg 1 = 0x10000000 ∧ ∀ i, i ≠ 1 → u.dbgReg i = s.dbgReg i) ∧
  (∀ (o : OwnerId) (c : Instr) (s : State), c ∈ [.dbgStop o, .dbgResume o, .dbgStep o, .dbgKill o, .runRecord o] → s.perm 2 = true →
    threadOf o.toNat = none →
    ∃ u, exec c s = .next u ∧ u = { s with dbg := u.dbg } ∧ u.dbgReg 1 = 0x20000000) ∧
  (∀ (o : OwnerId) (t : Nat) (s : State), s.perm 2 = true → threadOf o.toNat = some t → s.dbgLive t = true → (s.th t).stopped = false →
    (s.clu? (cluOf t)).packet = false →
    (∃ u, exec (.dbgStop o) s = .next u ∧ u = { s with thr := u.thr, dbg := u.dbg, clu := u.clu } ∧ u.dbgReg 1 = 0 ∧
      u.clu? (cluOf t) = { s.clu? (cluOf t) with stall := 0, lastAct := s.cyc } ∧ (∀ c, c ≠ cluOf t → u.clu? c = s.clu? c) ∧
      u.th t = { s.th t with stopped := true, stepping := false } ∧ ∀ j, j ≠ t → u.th j = s.th j) ∧
    (∃ u, exec (.dbgResume o) s = .next u ∧ u = { s with dbg := u.dbg } ∧ u.dbgReg 1 = 0x20000000) ∧
    (∃ u, exec (.dbgStep o) s = .next u ∧ u = { s with dbg := u.dbg } ∧ u.dbgReg 1 = 0x20000000)) ∧
  (∀ (o : OwnerId) (t : Nat) (s : State), s.perm 2 = true → threadOf o.toNat = some t → s.dbgLive t = true → (s.th t).stopped = false →
    (s.clu? (cluOf t)).packet = true → (s.clu? (cluOf t)).detached = false → (s.clu? (cluOf t)).st = .live →
    ∃ u, exec (.dbgStop o) s = .next u ∧ u.dbgReg 1 = 0 ∧ (u.th t).stopped = true ∧ (u.clu? (cluOf t)).detached = true ∧
      (tFind u.fmg.detached (cluOf t)).isSome = true) ∧
  (∀ (o : OwnerId) (t : Nat) (s : State), s.perm 2 = true → threadOf o.toNat = some t → s.dbgLive t = true → (s.th t).stopped = true →
    (∃ u, exec (.dbgStop o) s = .next u ∧ u = { s with dbg := u.dbg } ∧ u.dbgReg 1 = 0x20000000) ∧
    ((∀ e ∈ s.ctxWr, e.1 / 128 ≠ t) → tFind s.fmg.detached (cluOf t) = none →
      ∃ u, exec (.dbgResume o) s = .next u ∧ u = { s with thr := u.thr, dbg := u.dbg, clu := u.clu } ∧ u.dbgReg 1 = 0 ∧
        u.clu? (cluOf t) = { s.clu? (cluOf t) with stall := 0, lastAct := s.cyc } ∧ (∀ c, c ≠ cluOf t → u.clu? c = s.clu? c) ∧
        u.th t = { s.th t with stopped := false, stepping := false } ∧ ∀ j, j ≠ t → u.th j = s.th j) ∧
    ((s.th t).ended = true → ∃ u, exec (.dbgStep o) s = .next u ∧ u = { s with dbg := u.dbg } ∧ u.dbgReg 1 = 0x20000000) ∧
    ((s.th t).st = .running → (s.th t).ended = false → (s.clu? (cluOf t)).packet = false ∨ s.isDetached (cluOf t) = true →
      ∃ u, exec (.dbgStep o) s = .next u ∧ u = { s with thr := u.thr, dbg := u.dbg } ∧ u.dbgReg 1 = 0 ∧
        u.th t = { s.th t with stepping := true } ∧ ∀ j, j ≠ t → u.th j = s.th j)) ∧
  (∀ (o : OwnerId) (t : Nat) (v : Word) (s : State), s.perm 2 = true → threadOf o.toNat = some t → s.dbgLive t = true → (s.th t).stopped = true →
    s.ctxWr = [(ctxKey t (8 + 5), v)] → (s.th t).waitAt = none →
    ∃ u, exec (.dbgResume o) s = .next u ∧ u.ctxWr = [] ∧ (u.th t).wv 5 = v ∧ (u.th t).stopped = false) ∧
  (∀ (o : OwnerId) (t : Nat) (s : State), s.perm 2 = true → threadOf o.toNat = some t → s.dbgLive t = true →
    ∃ u, exec (.dbgKill o) s = .next u ∧ u.dbgReg 1 = 0 ∧ (u.th t).st = .resetting ∧ (u.th t).stopped = false ∧ (u.th t).pend = [] ∧ (u.th t).rep = none) ∧
  (∀ (o : OwnerId) (t c : Nat) (s : State), s.perm 2 = true → threadOf o.toNat = some t → s.dbgLive t = true → s.isDetached (cluOf t) = true →
    (s.th t).st = .idle ∨ s.pktDone t = true → (s.th t).stopped = false → (∀ f ∈ s.flights, f.thread = t → f.buf ≠ 0) → c = s.cycCeil →
    ∃ u f, exec (.runRecord o) s = .next u ∧ u = { s with flights := s.flights ++ [f], dbg := u.dbg } ∧ u.dbgReg 1 = 0 ∧ f.thread = t ∧ f.buf = 0 ∧
      f.dcyc = c ∧ f.slot = c % 4096 * 4 + cluOf t / 16 ∧ f.pkt = none ∧ f.delivered = false ∧
      f.record = ((List.range 64).map fun i => leBytes 4 (s.reg (aDbgRec + 4 * i)).toNat).flatten)

/-- R475, R536, R559, R561, R562: I2C, the TAP and the GPIO pins. -/
def Obligations.ManagementPortCommandsComplete : Prop :=
  (∀ (a : BitVec 28) (s : State), s.perm 0 = false → isOpenPage (a.toNat / 4096) = false →
    exec (.i2cAccess a none) s = .next { s with out := .data 0xFFFFFFFF :: s.out }) ∧
  (∀ (a : BitVec 28) (k : Kind) (i pg : Nat) (s v : State), s.perm 0 = true ∨ isOpenPage pg = true → a.toNat = pg * 4096 + 0x010 → pageKind pg = some (k, i) →
    pg / 4096 ≠ 7 → v = s.secLook pg →
    ∃ u, exec (.i2cAccess a none) s = .next u ∧ u = { v with regs := u.regs, hw := u.hw, out := .data (v.reg (ra pg 0x010)) :: v.out } ∧ ∀ x, u.reg x = v.reg x) ∧
  (∀ (a : BitVec 28) (v : Word) (s : State), s.perm 1 = false → exec (.i2cAccess a (some v)) s = .next s) ∧
  (∀ (a : BitVec 28) (v : Word) (k : Kind) (i pg : Nat) (s w : State), s.perm 1 = true → a.toNat = pg * 4096 + 0x018 → pageKind pg = some (k, i) → pg / 4096 ≠ 7 →
    w = s.secLook pg →
    ∃ u, exec (.i2cAccess a (some v)) s = .next u ∧ u = { w with regs := u.regs, out := u.out } ∧
      u.reg (ra pg 0x010) = w.reg (ra pg 0x010) ||| v &&& k.evtBits) ∧
  (∀ (b : Bool) (s : State), exec (.jtagBypass b) s = .next { s with tap := { s.tap with extest := false }, out := .tdo [false, b] :: s.out }) ∧
  (∀ s : State, exec .jtagIdcode s = .next { s with tap := { s.tap with extest := false }, out := .tdo idcode :: s.out }) ∧
  (idcode.length = 32 ∧ idcode.getD 0 false = true ∧ (∀ i : Fin 16, idcode.getD (12 + i.val) false = Nat.testBit 0x6400 i.val) ∧
    ∀ i : Fin 4, idcode.getD (28 + i.val) false = Nat.testBit 1 i.val) ∧
  (∀ s : State, ∃ b, exec (.jtagSamplePreload none) s = .next { s with tap := { s.tap with extest := false }, out := .tdo b :: s.out, draw := s.draw + 1 } ∧
    b.length = Config.boundaryCells) ∧
  (∀ (l : List Bool) (s : State), ∃ u b, exec (.jtagSamplePreload (some l)) s = .next u ∧
    u = { s with tap := u.tap, out := .tdo b :: s.out, draw := s.draw + 1 } ∧ u.tap.extest = false ∧ u.tap.bsr.length = Config.boundaryCells ∧
      ∀ i, i < Config.boundaryCells → u.tap.bsr.getD i false = l.getD i false) ∧
  (∀ s : State, exec .jtagExtest s = .next { s with tap := { s.tap with extest := true } } ∧
    exec .tapReset s = .next { s with tap := { s.tap with extest := false } }) ∧
  (∀ (a : BitVec 28) (v : Word) (s : State), (s.perm 0 = false →
      exec (.dbgAccess a .read) s = .next { s with tap := { s.tap with extest := false }, out := .data 0xFFFFFFFF :: s.out }) ∧
    (s.perm 1 = false → exec (.dbgAccess a (.write v)) s = .next { s with tap := { s.tap with extest := false } })) ∧
  (∀ (a : BitVec 28) (v : Word) (k : Kind) (i pg : Nat) (s w : State), a.toNat = pg * 4096 + 0x018 → pageKind pg = some (k, i) → pg / 4096 ≠ 7 → s.perm 1 = true →
    w = s.secLook pg →
    ∃ u, exec (.dbgAccess a (.write v)) s = .next u ∧ u = { w with regs := u.regs, out := u.out, tap := { s.tap with extest := false } } ∧
      u.reg (ra pg 0x010) = w.reg (ra pg 0x010) ||| v &&& k.evtBits) ∧
  (∀ (a : BitVec 28) (k : Kind) (i pg : Nat) (s v : State), a.toNat = pg * 4096 + 0x010 → pageKind pg = some (k, i) → pg / 4096 ≠ 7 → s.perm 0 = true →
    v = s.secLook pg →
    ∃ u, exec (.dbgAccess a .read) s = .next u ∧ u = { v with regs := u.regs, hw := u.hw, tap := { s.tap with extest := false }, out := .data (v.reg (ra pg 0x010)) :: v.out } ∧
      ∀ x, u.reg x = v.reg x) ∧
  (∀ (p : BitVec 16) (s : State), ∃ u, exec (.gpioSample p) s = .next u ∧ u = { s with regs := u.regs } ∧ (∀ a, a ≠ aHst 0x18C → u.reg a = s.reg a) ∧
    ∀ n : Fin 16, u.rb (aHst 0x18C) n.val =
      if s.rb (aHst 0x188) n.val then s.gpioEvent n.val else if s.rb (aHst 0x180) n.val then s.rb (aHst 0x184) n.val else p.toNat.testBit n.val)

/-- R504 to R506, R531 to R536: page control, soft reset, events and errors. -/
def Obligations.PageCommandsComplete : Prop :=
  (∀ (pg : Nat) (k : Kind) (i : Nat) (s : State), pageKind pg = some (k, i) → k.hasCtrl = true → s.pgState pg ≤ 1 →
    ∃ u, exec (.softRst pg) s = .next u ∧ (∀ off, off < 4096 → keptOnReset (ra pg off) = false → ¬(k = .dmc ∧ off = 0x104) → u.reg (ra pg off) = regReset (ra pg off)) ∧
      (k = .dmc → u.rf (ra pg 0x104) 6 0 = s.rf (ra pg 0x104) 6 0) ∧ (∀ off, off = 0x014 ∨ off = 0x01C → u.reg (ra pg off) = s.reg (ra pg off)) ∧ u.tally = s.tally ∧ u.pgState pg = if k = .epc then 1 else 0) ∧
  (∀ (pg : Nat) (k : Kind) (i : Nat) (s : State), pageKind pg = some (k, i) → k.hasCtrl = true → 2 ≤ s.pgState pg →
    ∃ u, exec (.softRst pg) s = .next u ∧ u = { s with regs := u.regs, hw := u.hw, arrived := u.arrived, out := u.out } ∧ u.pgState pg = s.pgState pg ∧
      (s.rb (ra pg 0x020) 31 = false → u.reg (ra pg 0x020) = 0x80000001 ∧ u.reg (ra pg 0x024) = 0x008) ∧ u.rb (ra pg 0x010) 0 = true) ∧
  (∀ (pg : Nat) (c : Instr) (k : Kind) (i : Nat) (b : Bool) (s : State), c ∈ [.softRst pg, .pageEnable pg b, .pageStop pg b] → pageKind pg = some (k, i) →
    k.hasCtrl = false → exec c s = .next s) ∧
  (∀ (pg : Nat) (k : Kind) (i : Nat) (s : State), pageKind pg = some (k, i) → k.hasCtrl = true → k ≠ .mac → k ≠ .epc → s.pgState pg = 0 →
    ∃ u, exec (.pageEnable pg true) s = .next u ∧ u = { s with regs := u.regs, hw := u.hw, out := u.out } ∧ u.rb (ra pg 0x008) 0 = true ∧
      u.rb (ra pg 0x008) 1 = s.rb (ra pg 0x008) 1 ∧ u.pgState pg = if s.rb (ra pg 0x008) 1 then 1 else 2) ∧
  (∀ (d : PDie) (sl : Slice) (pg : Nat) (s : State), pg = macPage d.val sl.val → s.pgState pg = 0 → s.rb (ra pg 0x008) 1 = false →
    (quadsOk (s.quads d.val (sl.val / 2 * 2)) (s.quads d.val (sl.val / 2 * 2 + 1)) = true → ∃ u, exec (.pageEnable pg true) s = .next u ∧ u.pgState pg = 2) ∧
    (quadsOk (s.quads d.val (sl.val / 2 * 2)) (s.quads d.val (sl.val / 2 * 2 + 1)) = false →
      ∃ u, exec (.pageEnable pg true) s = .next u ∧ u.pgState pg = 0 ∧ (s.rb (ra pg 0x020) 31 = false → u.reg (ra pg 0x020) = 0x80000003))) ∧
  (∀ (pg : Nat) (k : Kind) (i : Nat) (s : State), pageKind pg = some (k, i) → k.hasCtrl = true → k ≠ .epc → s.pgState pg = 2 →
    (∃ u, exec (.pageEnable pg false) s = .next u ∧ u = { s with regs := u.regs, hw := u.hw, out := u.out } ∧ u.rb (ra pg 0x008) 0 = false ∧ u.pgState pg = 3) ∧
    (∃ u, exec (.pageStop pg true) s = .next u ∧ u = { s with regs := u.regs, hw := u.hw, out := u.out } ∧ u.rb (ra pg 0x008) 1 = true ∧ u.pgState pg = 3)) ∧
  (∀ (pg : Nat) (k : Kind) (i : Nat) (s : State), pageKind pg = some (k, i) → k.hasCtrl = true → k ≠ .mac → k ≠ .epc → s.pgState pg = 1 →
    (s.rb (ra pg 0x008) 0 = true →
      ∃ u, exec (.pageStop pg false) s = .next u ∧ u = { s with regs := u.regs, hw := u.hw, out := u.out } ∧ u.rb (ra pg 0x008) 1 = false ∧ u.pgState pg = 2) ∧
    (∃ u, exec (.pageEnable pg false) s = .next u ∧ u = { s with regs := u.regs, hw := u.hw, out := u.out } ∧ u.rb (ra pg 0x008) 0 = false ∧ u.pgState pg = 0)) ∧
  (∀ (pg : Nat) (k : Kind) (i : Nat) (s : State), pageKind pg = some (k, i) → k ≠ .mac → k ≠ .epc → s.pgState pg = 3 →
    ∃ u, exec (.pageDrainDone pg) s = .next u ∧ u = { s with regs := u.regs, hw := u.hw, out := u.out } ∧
      u.pgState pg = if s.rb (ra pg 0x008) 0 = false then 0 else if s.rb (ra pg 0x008) 1 = true then 1 else 2) ∧
  (∀ (d : PDie) (sl : Slice) (pg : Nat) (ok : Bool) (s : State), pg = macPage d.val sl.val → s.pgState pg = 3 →
    ok = quadsOk (s.quads d.val (sl.val / 2 * 2)) (s.quads d.val (sl.val / 2 * 2 + 1)) →
    ∃ u, exec (.pageDrainDone pg) s = .next u ∧ u = { s with regs := u.regs, hw := u.hw, arrived := u.arrived, out := u.out, fmgq := u.fmgq } ∧
      u.pgState pg = if s.rb (ra pg 0x008) 0 = false then 0 else if s.rb (ra pg 0x008) 1 = true then 1 else if ok then 2 else 1) ∧
  (∀ (b : Bool) (s : State), s.rb (aEpc 0x100) 31 = false → s.pgState (mPage 0) ≤ 1 →
    ∀ c ∈ [Instr.pageEnable (mPage 0) b, .pageStop (mPage 0) b], ∃ u, exec c s = .next u ∧ u.pgState (mPage 0) = 1) ∧
  (∀ s : State, s.rb (aEpc 0x100) 31 = true →
    (s.pgState (mPage 0) ≤ 1 → ∃ u, exec (.pageStop (mPage 0) false) s = .next u ∧ u.pgState (mPage 0) = 2) ∧
    (s.pgState (mPage 0) = 2 → ∃ u, exec (.pageStop (mPage 0) true) s = .next u ∧ u.pgState (mPage 0) = 3)) ∧
  (∀ s : State, s.pgState (mPage 0) = 3 → ∃ u, exec (.pageDrainDone (mPage 0)) s = .next u ∧
    u.pgState (mPage 0) = if s.rb (ra (mPage 0) 0x008) 1 = true ∨ s.rb (aEpc 0x100) 31 = false then 1 else 2) ∧
  (∀ (pg : Nat) (s : State), s.pgState pg ≠ 3 → exec (.pageDrainDone pg) s = .next s) ∧
  (∀ (pg i : Nat) (k : Kind) (w b : Word) (s : State), pageKind pg = some (k, i) → b = w &&& k.evtBits →
    ∃ u, exec (.evtSet pg w) s = .next u ∧ u = { s with regs := u.regs, out := u.out } ∧ u.reg (ra pg 0x010) = s.reg (ra pg 0x010) ||| b ∧
      (s.evtCond pg = true ∨ (s.reg (ra pg 0x010) ||| b) &&& s.reg (ra pg 0x014) = 0 → u.out = s.out ∧ ∀ a, a ≠ ra pg 0x010 → u.reg a = s.reg a) ∧
      (s.evtCond pg = false → (s.reg (ra pg 0x010) ||| b) &&& s.reg (ra pg 0x014) ≠ 0 →
        (s.rf (ra pg 0x01C) 31 30 = 0 → u.out = .msix (s.rf (ra pg 0x01C) 8 0) :: s.out) ∧ (s.rf (ra pg 0x01C) 31 30 = 1 → u.out = .fmgEvent pg :: s.out))) ∧
  (∀ (pg : Nat) (w b : Word) (z s : State), (pageKind pg).isSome = true → s = z.secLook pg → b = w &&& ~~~ (s.hwActs (ra pg 0x010)).2 →
    ∃ u, exec (.evtClear pg w) z = .next u ∧ u = { s with regs := u.regs, out := u.out } ∧ (s.hw.cyc ≠ s.fab + 1 → b = w) ∧ u.reg (ra pg 0x010) = s.reg (ra pg 0x010) &&& ~~~ b ∧
      (s.reg (ra pg 0x010) &&& ~~~ b &&& s.reg (ra pg 0x014) = 0 → u.out = s.out) ∧
      (s.reg (ra pg 0x010) &&& ~~~ b &&& s.reg (ra pg 0x014) ≠ 0 → s.rf (ra pg 0x01C) 31 30 = 0 → u.out = .msix (s.rf (ra pg 0x01C) 8 0) :: s.out)) ∧
  (∀ (pg n : Nat) (w : List Word) (s : State), (pageKind pg).isSome = true → s.errsNow pg = some (n, w) →
    ∃ u, exec (.errClear pg) s = .next u ∧ u = { s with regs := u.regs } ∧ u.rb (ra pg 0x030) 31 = decide (1 < n) ∧
      u.reg (ra pg 0x020) = w.getD 0 0 ∧ u.reg (ra pg 0x024) = w.getD 1 0) ∧
  (∀ (pg : Nat) (s : State), (pageKind pg).isSome = true → s.errsNow pg = none →
    ∃ u, exec (.errClear pg) s = .next u ∧ u = { s with regs := u.regs } ∧ u.rb (ra pg 0x020) 31 = false ∧ u.rb (ra pg 0x030) 31 = false ∧
      u.rf (ra pg 0x020) 30 0 = s.rf (ra pg 0x020) 30 0 ∧ ∀ a, a ≠ ra pg 0x020 → a ≠ ra pg 0x030 → u.reg a = s.reg a)

/-- R7 to R10, R487, R526, R538, R539, R556: reading and writing registers from BAR0. -/
def Obligations.RegisterCommandsComplete : Prop :=
  (∀ (a : BitVec 28) (v : Word) (b : BitVec 4) (s : State), s.bar0Shut (a.toNat / 4096) = true →
    exec (.registerWrite a v b) s = .next s ∧ exec (.counterReadClear a) s = .next { s with out := .data 0 :: s.out }) ∧
  (∀ (a : BitVec 28) (v : Word) (b : BitVec 4) (s : State), s.bar0Shut (a.toNat / 4096) = false → b.toNat ≠ 15 →
    ∃ u, exec (.registerWrite a v b) s = .next u ∧ u = { s with regs := u.regs, hw := u.hw } ∧ u.rf (aHst 0x110) 15 0 = min 65535 (s.rf (aHst 0x110) 15 0 + 1) ∧
      u.rf (aHst 0x110) 31 16 = s.rf (aHst 0x110) 31 16 ∧ ∀ x, x ≠ aHst 0x110 → u.reg x = s.reg x) ∧
  (∀ (a : BitVec 28) (v : Word) (s : State), s.bar0Shut (a.toNat / 4096) = false → pageKind (a.toNat / 4096) = none → a.toNat / 4096 / 4096 ≠ 7 →
    (∃ u, exec (.registerWrite a v 15) s = .next u ∧ u = { s with regs := u.regs, hw := u.hw } ∧ u.rf (aHst 0x110) 31 16 = min 65535 (s.rf (aHst 0x110) 31 16 + 1) ∧
      ∀ x, x ≠ aHst 0x110 → u.reg x = s.reg x) ∧
    (∃ u, exec (.counterReadClear a) s = .next u ∧ u = { s with regs := u.regs, hw := u.hw, out := .data 0 :: s.out } ∧
      u.rf (aHst 0x110) 31 16 = min 65535 (s.rf (aHst 0x110) 31 16 + 1))) ∧
  (∀ (a : BitVec 28) (v : Word) (k : Kind) (i pg off : Nat) (d : RegDef) (z s : State), z.bar0Shut pg = false → a.toNat = pg * 4096 + off → off < 4096 → off % 4 = 0 →
    0x100 ≤ off → pageKind pg = some (k, i) → k ∈ [.clu, .cpx, .lx, .sp, .ec, .kw, .rsw, .dsv, .cph, .sds, .frg, .lrn, .xlk, .clk, .sec] → s.pageOn k pg = true →
    pg / 4096 ≠ 7 → regDef? (ra pg off) = some d → s = z.secLook pg →
    ∃ u, exec (.registerWrite a v 15) z = .next u ∧ u = { s with regs := u.regs, hw := u.hw, arrived := u.arrived, out := u.out } ∧
      (s.pgHalted pg = true → u.reg (ra pg off) =
        ((s.reg (ra pg off) &&& ~~~ (d.rwL ||| d.rwG ||| d.rwS)) ||| (v &&& (d.rwL ||| d.rwG ||| d.rwS))) &&& ~~~ (v &&& d.w1c &&& ~~~ (s.hwActs (ra pg off)).2)) ∧
      (s.pgHalted pg = false → u.reg (ra pg off) =
        ((s.reg (ra pg off) &&& ~~~ (d.rwL ||| d.rwG)) ||| (v &&& (d.rwL ||| d.rwG))) &&& ~~~ (v &&& d.w1c &&& ~~~ (s.hwActs (ra pg off)).2)) ∧
      (s.pgHalted pg = true ∨ (v ^^^ s.reg (ra pg off)) &&& d.rwS = 0 → u.out = s.out ∧ ∀ x, x ≠ ra pg off → u.reg x = s.reg x) ∧
      (s.pgHalted pg = false → (v ^^^ s.reg (ra pg off)) &&& d.rwS ≠ 0 → s.rb (ra pg 0x020) 31 = false →
        u.reg (ra pg 0x020) = 0x80000001 ∧ u.reg (ra pg 0x024) = nw off)) ∧
  (∀ (a : BitVec 28) (v : Word) (k : Kind) (i pg off : Nat) (s : State), s.bar0Shut pg = false → a.toNat = pg * 4096 + off → off < 4096 → off % 4 = 0 →
    0x100 ≤ off → pageKind pg = some (k, i) → s.pageOn k pg = false → pg / 4096 ≠ 7 →
    (∃ u, exec (.registerWrite a v 15) s = .next u ∧ u = { s with regs := u.regs, hw := u.hw } ∧
      u.rf (ra (mPage 1) 0x134) 15 0 = min 65535 (s.rf (ra (mPage 1) 0x134) 15 0 + 1) ∧ ∀ x, x ≠ ra (mPage 1) 0x134 → u.reg x = s.reg x) ∧
    exec (.counterReadClear a) s = .next { s with out := .data 0 :: s.out }) ∧
  (∀ (a : BitVec 28) (k : Kind) (i pg off : Nat) (m old new : Word) (z s : State), z.bar0Shut pg = false → a.toNat = pg * 4096 + off → off < 4096 → off % 4 = 0 →
    0x100 ≤ off → pageKind pg = some (k, i) → k ∉ [.epc, .mac, .sat, .cmem] → s.pageOn k pg = true → pg / 4096 ≠ 7 →
    m = rcMask (ra pg off) → s = z.secLook pg → s.hwActs (ra pg off) = (old, new) →
    ∃ u, exec (.counterReadClear a) z = .next u ∧
      u = { s with regs := u.regs, hw := u.hw, out := .data ((s.viewBlock k pg off &&& ~~~ m) ||| (old &&& m)) :: s.out } ∧
      u.reg (ra pg off) = (s.reg (ra pg off) &&& ~~~ m) ||| (new &&& m) ∧ (s.hw.cyc ≠ s.fab + 1 → old = s.reg (ra pg off) ∧ new = 0) ∧
      ∀ x, x ≠ ra pg off → u.reg x = s.reg x)
end

