-- ==== Sys2Proof/Laws/Bits.lean ====
section
/-! SUPPORT. Laws of bit fields: what a field reads after another or the same field was written. -/

namespace Sys2Proof.Machine

theorem testBit_fld (w : Word) (hi lo i : Nat) : (fld w hi lo).testBit i = (decide (i < hi + 1 - lo) && bit w (lo + i)) := by
  simp [fld, bitsOf, bit, Nat.testBit_mod_two_pow, Nat.testBit_shiftRight]

theorem bit_maskOf (hi lo i : Nat) (h : i < 32) : bit (maskOf hi lo) i = (decide (lo ≤ i) && decide (i ≤ hi)) := by
  simp only [bit, maskOf, BitVec.toNat_ofNat, Nat.testBit_mod_two_pow, h, decide_true, Bool.true_and, Nat.testBit_shiftLeft,
    Nat.testBit_two_pow_sub_one]
  by_cases h1 : lo ≤ i <;> by_cases h2 : i ≤ hi <;> simp [h1, h2] <;> omega

theorem bit_and (v w : Word) (i : Nat) : bit (v &&& w) i = (bit v i && bit w i) := by simp [bit]

theorem bit_or (v w : Word) (i : Nat) : bit (v ||| w) i = (bit v i || bit w i) := by simp [bit]

theorem bit_not (w : Word) (i : Nat) (h : i < 32) : bit (~~~ w) i = !bit w i := by
  have := BitVec.getLsbD_not (x := w) (i := i)
  simp only [BitVec.getLsbD, h, decide_true, Bool.true_and] at this
  exact this

theorem bit_ge (w : Word) (i : Nat) (h : 32 ≤ i) : bit w i = false := by
  exact BitVec.getLsbD_of_ge w i h

/-- Bit `i` of a word after a field was replaced. -/
theorem bit_setFld (w : Word) (hi lo v i : Nat) (h : i < 32) :
    bit (setFld w hi lo v) i = if lo ≤ i ∧ i ≤ hi then v.testBit (i - lo) else bit w i := by
  have hv : bit (BitVec.ofNat 32 (v <<< lo)) i = (decide (lo ≤ i) && v.testBit (i - lo)) := by
    rw [bit, BitVec.toNat_ofNat, Nat.testBit_mod_two_pow, Nat.testBit_shiftLeft]
    simp [h]
  rw [setFld, bit_or, bit_and, bit_and, bit_not _ _ h, bit_maskOf _ _ _ h, hv]
  by_cases h1 : lo ≤ i <;> by_cases h2 : i ≤ hi <;> simp [h1, h2]

/-- Words are equal when their bits are. -/
theorem word_ext (v w : Word) (h : ∀ i, i < 32 → bit v i = bit w i) : v = w := by
  apply BitVec.eq_of_getLsbD_eq
  intro i hi
  exact h i hi

/-- A field reads what was written into it. -/
theorem fld_setFld_same (w : Word) (hi lo v : Nat) (h : hi < 32) : fld (setFld w hi lo v) hi lo = v % 2 ^ (hi + 1 - lo) := by
  apply Nat.eq_of_testBit_eq
  intro i
  rw [testBit_fld, Nat.testBit_mod_two_pow]
  by_cases hi' : i < hi + 1 - lo
  · have : lo + i < 32 := by omega
    rw [bit_setFld _ _ _ _ _ this]
    have h1 : lo ≤ lo + i ∧ lo + i ≤ hi := by omega
    simp [h1, hi']
  · simp [hi']

/-- A field reads as before when a field apart from it was written. -/
theorem fld_setFld_other (w : Word) (hi lo v h' l' : Nat) (h : h' < lo ∨ hi < l') (hh : h' < 32) :
    fld (setFld w hi lo v) h' l' = fld w h' l' := by
  apply Nat.eq_of_testBit_eq
  intro i
  rw [testBit_fld, testBit_fld]
  by_cases hi' : i < h' + 1 - l'
  · have : l' + i < 32 := by omega
    rw [bit_setFld _ _ _ _ _ this]
    have h1 : ¬(lo ≤ l' + i ∧ l' + i ≤ hi) := by omega
    simp [h1]
  · simp [hi']

theorem bit_setBit (w : Word) (j i : Nat) (b : Bool) (h : i < 32) : bit (setBit w j b) i = if i = j then b else bit w i := by
  rw [setBit, bit_setFld _ _ _ _ _ h]
  by_cases hij : i = j
  · subst hij; cases b <;> simp
  · have : ¬(j ≤ i ∧ i ≤ j) := by omega
    simp [hij, this]

theorem toNat_nw (n : Nat) : (nw n).toNat = n % 2 ^ 32 := by simp [nw]

end Sys2Proof.Machine
end

