-- ==== Sys2Proof/Laws/Crypto.lean ====
section
/-! SUPPORT. The lengths of what the sponge computes, and of the attestation report. -/

namespace Sys2Proof.Machine

theorem leBytes_length (k v : Nat) : (leBytes k v).length = k := by
  induction k generalizing v with
  | zero => rfl
  | succ k ih => simp [leBytes, ih]
theorem flatten_map_length (f : Nat → List Byte) (n : Nat) (h : ∀ i, (f i).length = n) (l : List Nat) :
    ((l.map f).flatten).length = n * l.length := by
  induction l with
  | nil => simp
  | cons a l ih => simp only [List.map_cons, List.flatten_cons, List.length_append, h, ih, List.length_cons, Nat.mul_succ]; omega
theorem keccakF_length (b : List Byte) : (keccakF b).length = 200 := by
  simp only [keccakF]
  rw [flatten_map_length _ 8 (fun i => leBytes_length 8 _), List.length_range]
theorem shake64_length (b : List Byte) : (shake64 b).length = 64 := by
  have h : shake64 b = ((spPad 4 (spAbsorb 136 spZero 0 b).1 (spAbsorb 136 spZero 0 b).2.1).drop 0).take 64 ++ [] := rfl
  rw [h, List.append_nil, List.drop_zero, List.length_take, spPad, keccakF_length]
  rfl
theorem bytesAt_length (l : List Byte) (o n : Nat) : (bytesAt l o n).length = n := by simp [bytesAt]
theorem attReport_length (s : State) (b : List Byte) : (s.attReport b).length = 0x270 := by
  unfold State.attReport
  simp only [List.length_append, leBytes_length, padTo, bytesAt_length, List.length_map, List.length_range, shake64_length, State.ownerHash, otpSerial]
  split <;> simp only [List.length_replicate, shake64_length]

end Sys2Proof.Machine
end

