-- ==== Sys2Proof/Laws/Tbl.lean ====
section
/-! SUPPORT. Laws of sparse arrays: what a read after a write gives, and that every write keeps the canonical form. -/

namespace Sys2Proof.Machine

variable {α : Type}

/-! ## Read after write -/

theorem tFind_tDel (t : Tbl α) (i j : Nat) : tFind (tDel t i) j = if j = i then none else tFind t j := by
  induction t with
  | nil => simp [tDel, tFind]
  | cons e r ih =>
    obtain ⟨k, v⟩ := e
    by_cases h : k = i <;> by_cases h' : k = j <;> simp_all [tDel, tFind]

theorem tFind_tIns (t : Tbl α) (i : Nat) (v : α) (j : Nat) :
    tFind (tIns t i v) j = if j = i ∧ tFind t i = none then some v else if j = i then tFind (tIns t i v) i else tFind t j := by
  by_cases h : j = i
  · subst h
    by_cases h' : tFind t j = none
    · simp only [h', and_self, if_true]
      induction t with
      | nil => simp [tIns, tFind]
      | cons e r ih =>
        obtain ⟨k, w⟩ := e
        by_cases hk : k = j
        · simp [tFind, hk] at h'
        · simp only [tFind, hk, if_false] at h'
          unfold tIns; split <;> simp [tFind, hk, ih h']
    · simp [h']
  · simp only [h, false_and, if_false]
    induction t with
    | nil => simp [tIns, tFind, Ne.symm h]
    | cons e r ih =>
      obtain ⟨k, w⟩ := e
      unfold tIns; split <;> by_cases hk : k = j <;> simp [tFind, hk, Ne.symm h, ih]

/-- An entry put is found, and every other entry stays. -/
@[simp] theorem tFind_tPut (t : Tbl α) (i : Nat) (v : α) (j : Nat) : tFind (tPut t i v) j = if j = i then some v else tFind t j := by
  rw [tPut, tFind_tIns]
  by_cases h : j = i <;> simp [h, tFind_tDel]

/-- A value written is read, and every other index reads as before. -/
theorem tGet_tSet [DecidableEq α] (d : Nat → α) (t : Tbl α) (i : Nat) (v : α) (j : Nat) :
    tGet d (tSet d t i v) j = if j = i then v else tGet d t j := by
  unfold tSet tGet
  split
  · rename_i hv
    by_cases h : j = i <;> simp [tFind_tDel, h, hv]
  · by_cases h : j = i <;> simp [tFind_tIns, tFind_tDel, h]

@[simp] theorem tGet_tSet_same [DecidableEq α] (d : Nat → α) (t : Tbl α) (i : Nat) (v : α) : tGet d (tSet d t i v) i = v := by
  simp [tGet_tSet]

theorem tGet_tSet_other [DecidableEq α] (d : Nat → α) (t : Tbl α) {i j : Nat} (v : α) (h : j ≠ i) :
    tGet d (tSet d t i v) j = tGet d t j := by simp [tGet_tSet, h]

/-- A change at an index. -/
theorem tGet_tUpd [DecidableEq α] (d : Nat → α) (t : Tbl α) (i : Nat) (f : α → α) (j : Nat) :
    tGet d (tUpd d t i f) j = if j = i then f (tGet d t i) else tGet d t j := by simp [tUpd, tGet_tSet]

theorem tGet_tPut (d : Nat → α) (t : Tbl α) (i : Nat) (v : α) (j : Nat) :
    tGet d (tPut t i v) j = if j = i then v else tGet d t j := by
  unfold tGet; by_cases h : j = i <;> simp [h]

/-! ## The canonical form -/

/-- Every key of the array is above `k`. -/
def tAbove (k : Nat) (t : Tbl α) : Prop := ∀ e ∈ t, k < e.1

theorem tSorted_cons (e : Nat × α) (r : Tbl α) : tSorted (e :: r) = true ↔ tAbove e.1 r ∧ tSorted r = true := by
  induction r generalizing e with
  | nil => simp [tSorted, tAbove]
  | cons f r ih =>
    obtain ⟨k, v⟩ := e
    obtain ⟨j, w⟩ := f
    simp only [tSorted, Bool.and_eq_true, decide_eq_true_eq]
    constructor
    · rintro ⟨h, h'⟩
      refine ⟨?_, h'⟩
      intro x hx
      rcases List.mem_cons.mp hx with rfl | hx
      · exact h
      · have := ((ih (j, w)).mp h').1 x hx
        simp only at this ⊢; omega
    · rintro ⟨h, h'⟩
      exact ⟨h (j, w) (by simp), h'⟩

theorem tSorted_filter (p : Nat × α → Bool) (t : Tbl α) (h : tSorted t = true) : tSorted (t.filter p) = true := by
  induction t with
  | nil => exact h
  | cons e r ih =>
    rw [tSorted_cons] at h
    rw [List.filter_cons]
    split
    · rw [tSorted_cons]
      exact ⟨fun x hx => h.1 x (List.mem_filter.mp hx).1, ih h.2⟩
    · exact ih h.2

theorem tDel_eq_filter (t : Tbl α) (i : Nat) : tDel t i = t.filter fun e => decide (e.1 ≠ i) := by
  induction t with
  | nil => rfl
  | cons e r ih => obtain ⟨k, v⟩ := e; by_cases h : k = i <;> simp [tDel, h, ih]

theorem tSorted_tDel (t : Tbl α) (i : Nat) (h : tSorted t = true) : tSorted (tDel t i) = true := by
  rw [tDel_eq_filter]; exact tSorted_filter _ t h

theorem mem_tIns (t : Tbl α) (i : Nat) (v : α) (e : Nat × α) : e ∈ tIns t i v ↔ e = (i, v) ∨ e ∈ t := by
  induction t with
  | nil => simp [tIns]
  | cons f r ih =>
    obtain ⟨k, w⟩ := f
    by_cases h : i < k
    · simp [tIns, h]
    · simp only [tIns, h, if_false, List.mem_cons, ih]
      exact or_left_comm

theorem tSorted_tIns (t : Tbl α) (i : Nat) (v : α) (h : tSorted t = true) (h' : ∀ e ∈ t, e.1 ≠ i) : tSorted (tIns t i v) = true := by
  induction t with
  | nil => simp [tIns, tSorted]
  | cons f r ih =>
    obtain ⟨k, w⟩ := f
    rw [tSorted_cons] at h
    have hk : k ≠ i := h' (k, w) (by simp)
    by_cases hi : i < k
    · simp only [tIns, hi, if_true]
      rw [tSorted_cons, tSorted_cons]
      refine ⟨?_, h⟩
      intro e he
      rcases List.mem_cons.mp he with rfl | he
      · exact hi
      · have := h.1 e he; simp only at this ⊢; omega
    · simp only [tIns, hi, if_false]
      rw [tSorted_cons]
      refine ⟨?_, ih h.2 fun e he => h' e (by simp [he])⟩
      intro e he
      rcases (mem_tIns r i v e).mp he with rfl | he
      · simp only; omega
      · exact h.1 e he

/-- A put keeps the keys rising strictly. -/
theorem tSorted_tPut (t : Tbl α) (i : Nat) (v : α) (h : tSorted t = true) : tSorted (tPut t i v) = true := by
  refine tSorted_tIns _ i v (tSorted_tDel t i h) fun e he => ?_
  rw [tDel_eq_filter] at he
  simpa using (List.mem_filter.mp he).2

theorem tWf_tDel [DecidableEq α] (d : Nat → α) (t : Tbl α) (i : Nat) (h : tWf d t = true) : tWf d (tDel t i) = true := by
  simp only [tWf, Bool.and_eq_true, List.all_eq_true] at h ⊢
  refine ⟨tSorted_tDel t i h.1, fun e he => h.2 e ?_⟩
  rw [tDel_eq_filter] at he
  exact (List.mem_filter.mp he).1

/-- A write keeps the canonical form. -/
theorem tWf_tSet [DecidableEq α] (d : Nat → α) (t : Tbl α) (i : Nat) (v : α) (h : tWf d t = true) : tWf d (tSet d t i v) = true := by
  unfold tSet
  split
  · exact tWf_tDel d t i h
  · rename_i hv
    have hd := tWf_tDel d t i h
    simp only [tWf, Bool.and_eq_true, List.all_eq_true] at hd ⊢
    refine ⟨tSorted_tIns _ i v hd.1 fun e he => ?_, fun e he => ?_⟩
    · rw [tDel_eq_filter] at he
      simpa using (List.mem_filter.mp he).2
    · rcases (mem_tIns _ i v e).mp he with rfl | he
      · simpa using hv
      · exact hd.2 e he

/-- A change keeps the canonical form. -/
theorem tWf_tUpd [DecidableEq α] (d : Nat → α) (t : Tbl α) (i : Nat) (f : α → α) (h : tWf d t = true) : tWf d (tUpd d t i f) = true :=
  tWf_tSet d t i _ h

end Sys2Proof.Machine
end

