-- ==== Sys2Proof/Laws/State.lean ====
section
/-! SUPPORT. Laws of the state: for each primitive update, what every field of the state is after it. -/

namespace Sys2Proof.Machine

/-! ## State.upTo -/

@[simp] theorem State.upTo_now (s : State) (t : Nat) : (s.upTo t).now = max s.now t := rfl
@[simp] theorem State.upTo_clk (s : State) (t : Nat) : (s.upTo t).clk = s.clk := rfl
@[simp] theorem State.upTo_tbNum (s : State) (t : Nat) : (s.upTo t).tbNum = s.tbNum := rfl
@[simp] theorem State.upTo_tbAt (s : State) (t : Nat) : (s.upTo t).tbAt = s.tbAt := rfl
@[simp] theorem State.upTo_tbPast (s : State) (t : Nat) : (s.upTo t).tbPast = s.tbPast := rfl
@[simp] theorem State.upTo_draw (s : State) (t : Nat) : (s.upTo t).draw = s.draw := rfl
@[simp] theorem State.upTo_pending (s : State) (t : Nat) : (s.upTo t).pending = s.pending := rfl
@[simp] theorem State.upTo_out (s : State) (t : Nat) : (s.upTo t).out = s.out := rfl
@[simp] theorem State.upTo_regs (s : State) (t : Nat) : (s.upTo t).regs = s.regs := rfl
@[simp] theorem State.upTo_hw (s : State) (t : Nat) : (s.upTo t).hw = s.hw := rfl
@[simp] theorem State.upTo_arrived (s : State) (t : Nat) : (s.upTo t).arrived = s.arrived := rfl
@[simp] theorem State.upTo_act (s : State) (t : Nat) : (s.upTo t).act = s.act := rfl
@[simp] theorem State.upTo_old (s : State) (t : Nat) : (s.upTo t).old = s.old := rfl
@[simp] theorem State.upTo_thr (s : State) (t : Nat) : (s.upTo t).thr = s.thr := rfl
@[simp] theorem State.upTo_clu (s : State) (t : Nat) : (s.upTo t).clu = s.clu := rfl
@[simp] theorem State.upTo_locks (s : State) (t : Nat) : (s.upTo t).locks = s.locks := rfl
@[simp] theorem State.upTo_chans (s : State) (t : Nat) : (s.upTo t).chans = s.chans := rfl
@[simp] theorem State.upTo_cops (s : State) (t : Nat) : (s.upTo t).cops = s.cops := rfl
@[simp] theorem State.upTo_lines (s : State) (t : Nat) : (s.upTo t).lines = s.lines := rfl
@[simp] theorem State.upTo_spm (s : State) (t : Nat) : (s.upTo t).spm = s.spm := rfl
@[simp] theorem State.upTo_spmBad (s : State) (t : Nat) : (s.upTo t).spmBad = s.spmBad := rfl
@[simp] theorem State.upTo_cmem (s : State) (t : Nat) : (s.upTo t).cmem = s.cmem := rfl
@[simp] theorem State.upTo_dram (s : State) (t : Nat) : (s.upTo t).dram = s.dram := rfl
@[simp] theorem State.upTo_linkErr (s : State) (t : Nat) : (s.upTo t).linkErr = s.linkErr := rfl
@[simp] theorem State.upTo_trackEnd (s : State) (t : Nat) : (s.upTo t).trackEnd = s.trackEnd := rfl
@[simp] theorem State.upTo_fmgq (s : State) (t : Nat) : (s.upTo t).fmgq = s.fmgq := rfl
@[simp] theorem State.upTo_flights (s : State) (t : Nat) : (s.upTo t).flights = s.flights := rfl
@[simp] theorem State.upTo_tcbs (s : State) (t : Nat) : (s.upTo t).tcbs = s.tcbs := rfl
@[simp] theorem State.upTo_tellers (s : State) (t : Nat) : (s.upTo t).tellers = s.tellers := rfl
@[simp] theorem State.upTo_events (s : State) (t : Nat) : (s.upTo t).events = s.events := rfl
@[simp] theorem State.upTo_pol (s : State) (t : Nat) : (s.upTo t).pol = s.pol := rfl
@[simp] theorem State.upTo_polBad (s : State) (t : Nat) : (s.upTo t).polBad = s.polBad := rfl
@[simp] theorem State.upTo_polWas (s : State) (t : Nat) : (s.upTo t).polWas = s.polWas := rfl
@[simp] theorem State.upTo_polCnt (s : State) (t : Nat) : (s.upTo t).polCnt = s.polCnt := rfl
@[simp] theorem State.upTo_cntAdds (s : State) (t : Nat) : (s.upTo t).cntAdds = s.cntAdds := rfl
@[simp] theorem State.upTo_gsa (s : State) (t : Nat) : (s.upTo t).gsa = s.gsa := rfl
@[simp] theorem State.upTo_prof (s : State) (t : Nat) : (s.upTo t).prof = s.prof := rfl
@[simp] theorem State.upTo_kek (s : State) (t : Nat) : (s.upTo t).kek = s.kek := rfl
@[simp] theorem State.upTo_vault (s : State) (t : Nat) : (s.upTo t).vault = s.vault := rfl
@[simp] theorem State.upTo_vltBad (s : State) (t : Nat) : (s.upTo t).vltBad = s.vltBad := rfl
@[simp] theorem State.upTo_rngAt (s : State) (t : Nat) : (s.upTo t).rngAt = s.rngAt := rfl
@[simp] theorem State.upTo_pdies (s : State) (t : Nat) : (s.upTo t).pdies = s.pdies := rfl
@[simp] theorem State.upTo_ft (s : State) (t : Nat) : (s.upTo t).ft = s.ft := rfl
@[simp] theorem State.upTo_ftBad (s : State) (t : Nat) : (s.upTo t).ftBad = s.ftBad := rfl
@[simp] theorem State.upTo_ftWas (s : State) (t : Nat) : (s.upTo t).ftWas = s.ftWas := rfl
@[simp] theorem State.upTo_ftHit (s : State) (t : Nat) : (s.upTo t).ftHit = s.ftHit := rfl
@[simp] theorem State.upTo_sat (s : State) (t : Nat) : (s.upTo t).sat = s.sat := rfl
@[simp] theorem State.upTo_satWas (s : State) (t : Nat) : (s.upTo t).satWas = s.satWas := rfl
@[simp] theorem State.upTo_vltWas (s : State) (t : Nat) : (s.upTo t).vltWas = s.vltWas := rfl
@[simp] theorem State.upTo_vltGone (s : State) (t : Nat) : (s.upTo t).vltGone = s.vltGone := rfl
@[simp] theorem State.upTo_pktMem (s : State) (t : Nat) : (s.upTo t).pktMem = s.pktMem := rfl
@[simp] theorem State.upTo_bufs (s : State) (t : Nat) : (s.upTo t).bufs = s.bufs := rfl
@[simp] theorem State.upTo_bufBad (s : State) (t : Nat) : (s.upTo t).bufBad = s.bufBad := rfl
@[simp] theorem State.upTo_pools (s : State) (t : Nat) : (s.upTo t).pools = s.pools := rfl
@[simp] theorem State.upTo_lvlWas (s : State) (t : Nat) : (s.upTo t).lvlWas = s.lvlWas := rfl
@[simp] theorem State.upTo_used (s : State) (t : Nat) : (s.upTo t).used = s.used := rfl
@[simp] theorem State.upTo_queues (s : State) (t : Nat) : (s.upTo t).queues = s.queues := rfl
@[simp] theorem State.upTo_shapers (s : State) (t : Nat) : (s.upTo t).shapers = s.shapers := rfl
@[simp] theorem State.upTo_policers (s : State) (t : Nat) : (s.upTo t).policers = s.policers := rfl
@[simp] theorem State.upTo_punters (s : State) (t : Nat) : (s.upTo t).punters = s.punters := rfl
@[simp] theorem State.upTo_tports (s : State) (t : Nat) : (s.upTo t).tports = s.tports := rfl
@[simp] theorem State.upTo_tpl (s : State) (t : Nat) : (s.upTo t).tpl = s.tpl := rfl
@[simp] theorem State.upTo_punts (s : State) (t : Nat) : (s.upTo t).punts = s.punts := rfl
@[simp] theorem State.upTo_pauses (s : State) (t : Nat) : (s.upTo t).pauses = s.pauses := rfl
@[simp] theorem State.upTo_xoffAt (s : State) (t : Nat) : (s.upTo t).xoffAt = s.xoffAt := rfl
@[simp] theorem State.upTo_links (s : State) (t : Nat) : (s.upTo t).links = s.links := rfl
@[simp] theorem State.upTo_portOff (s : State) (t : Nat) : (s.upTo t).portOff = s.portOff := rfl
@[simp] theorem State.upTo_wlocks (s : State) (t : Nat) : (s.upTo t).wlocks = s.wlocks := rfl
@[simp] theorem State.upTo_doms (s : State) (t : Nat) : (s.upTo t).doms = s.doms := rfl
@[simp] theorem State.upTo_gen (s : State) (t : Nat) : (s.upTo t).gen = s.gen := rfl
@[simp] theorem State.upTo_oldLive (s : State) (t : Nat) : (s.upTo t).oldLive = s.oldLive := rfl
@[simp] theorem State.upTo_clearAt (s : State) (t : Nat) : (s.upTo t).clearAt = s.clearAt := rfl
@[simp] theorem State.upTo_halted (s : State) (t : Nat) : (s.upTo t).halted = s.halted := rfl
@[simp] theorem State.upTo_perst (s : State) (t : Nat) : (s.upTo t).perst = s.perst := rfl
@[simp] theorem State.upTo_host (s : State) (t : Nat) : (s.upTo t).host = s.host := rfl
@[simp] theorem State.upTo_repairs (s : State) (t : Nat) : (s.upTo t).repairs = s.repairs := rfl
@[simp] theorem State.upTo_dbg (s : State) (t : Nat) : (s.upTo t).dbg = s.dbg := rfl
@[simp] theorem State.upTo_capWr (s : State) (t : Nat) : (s.upTo t).capWr = s.capWr := rfl
@[simp] theorem State.upTo_ctxWr (s : State) (t : Nat) : (s.upTo t).ctxWr = s.ctxWr := rfl
@[simp] theorem State.upTo_epc (s : State) (t : Nat) : (s.upTo t).epc = s.epc := rfl
@[simp] theorem State.upTo_fmg (s : State) (t : Nat) : (s.upTo t).fmg = s.fmg := rfl
@[simp] theorem State.upTo_sec (s : State) (t : Nat) : (s.upTo t).sec = s.sec := rfl
@[simp] theorem State.upTo_pwr (s : State) (t : Nat) : (s.upTo t).pwr = s.pwr := rfl
@[simp] theorem State.upTo_flash (s : State) (t : Nat) : (s.upTo t).flash = s.flash := rfl
@[simp] theorem State.upTo_tally (s : State) (t : Nat) : (s.upTo t).tally = s.tally := rfl
@[simp] theorem State.upTo_tallyHi (s : State) (t : Nat) : (s.upTo t).tallyHi = s.tallyHi := rfl
@[simp] theorem State.upTo_tallyAt (s : State) (t : Nat) : (s.upTo t).tallyAt = s.tallyAt := rfl
@[simp] theorem State.upTo_mbxJob (s : State) (t : Nat) : (s.upTo t).mbxJob = s.mbxJob := rfl
@[simp] theorem State.upTo_fills (s : State) (t : Nat) : (s.upTo t).fills = s.fills := rfl
@[simp] theorem State.upTo_retire (s : State) (t : Nat) : (s.upTo t).retire = s.retire := rfl
@[simp] theorem State.upTo_banks (s : State) (t : Nat) : (s.upTo t).banks = s.banks := rfl
@[simp] theorem State.upTo_hstFill (s : State) (t : Nat) : (s.upTo t).hstFill = s.hstFill := rfl
@[simp] theorem State.upTo_resync (s : State) (t : Nat) : (s.upTo t).resync = s.resync := rfl
@[simp] theorem State.upTo_pulled (s : State) (t : Nat) : (s.upTo t).pulled = s.pulled := rfl
@[simp] theorem State.upTo_dpairs (s : State) (t : Nat) : (s.upTo t).dpairs = s.dpairs := rfl
@[simp] theorem State.upTo_tap (s : State) (t : Nat) : (s.upTo t).tap = s.tap := rfl

/-! ## State.setReg -/

@[simp] theorem State.setReg_now (s : State) (a : Nat) (v : Word) : (s.setReg a v).now = s.now := rfl
@[simp] theorem State.setReg_clk (s : State) (a : Nat) (v : Word) : (s.setReg a v).clk = s.clk := rfl
@[simp] theorem State.setReg_tbNum (s : State) (a : Nat) (v : Word) : (s.setReg a v).tbNum = s.tbNum := rfl
@[simp] theorem State.setReg_tbAt (s : State) (a : Nat) (v : Word) : (s.setReg a v).tbAt = s.tbAt := rfl
@[simp] theorem State.setReg_tbPast (s : State) (a : Nat) (v : Word) : (s.setReg a v).tbPast = s.tbPast := rfl
@[simp] theorem State.setReg_draw (s : State) (a : Nat) (v : Word) : (s.setReg a v).draw = s.draw := rfl
@[simp] theorem State.setReg_pending (s : State) (a : Nat) (v : Word) : (s.setReg a v).pending = s.pending := rfl
@[simp] theorem State.setReg_out (s : State) (a : Nat) (v : Word) : (s.setReg a v).out = s.out := rfl
@[simp] theorem State.setReg_regs (s : State) (a : Nat) (v : Word) : (s.setReg a v).regs = tSet regReset s.regs a v := rfl
@[simp] theorem State.setReg_hw (s : State) (a : Nat) (v : Word) : (s.setReg a v).hw = s.hw := rfl
@[simp] theorem State.setReg_arrived (s : State) (a : Nat) (v : Word) : (s.setReg a v).arrived = s.arrived := rfl
@[simp] theorem State.setReg_act (s : State) (a : Nat) (v : Word) : (s.setReg a v).act = s.act := rfl
@[simp] theorem State.setReg_old (s : State) (a : Nat) (v : Word) : (s.setReg a v).old = s.old := rfl
@[simp] theorem State.setReg_thr (s : State) (a : Nat) (v : Word) : (s.setReg a v).thr = s.thr := rfl
@[simp] theorem State.setReg_clu (s : State) (a : Nat) (v : Word) : (s.setReg a v).clu = s.clu := rfl
@[simp] theorem State.setReg_locks (s : State) (a : Nat) (v : Word) : (s.setReg a v).locks = s.locks := rfl
@[simp] theorem State.setReg_chans (s : State) (a : Nat) (v : Word) : (s.setReg a v).chans = s.chans := rfl
@[simp] theorem State.setReg_cops (s : State) (a : Nat) (v : Word) : (s.setReg a v).cops = s.cops := rfl
@[simp] theorem State.setReg_lines (s : State) (a : Nat) (v : Word) : (s.setReg a v).lines = s.lines := rfl
@[simp] theorem State.setReg_spm (s : State) (a : Nat) (v : Word) : (s.setReg a v).spm = s.spm := rfl
@[simp] theorem State.setReg_spmBad (s : State) (a : Nat) (v : Word) : (s.setReg a v).spmBad = s.spmBad := rfl
@[simp] theorem State.setReg_cmem (s : State) (a : Nat) (v : Word) : (s.setReg a v).cmem = s.cmem := rfl
@[simp] theorem State.setReg_dram (s : State) (a : Nat) (v : Word) : (s.setReg a v).dram = s.dram := rfl
@[simp] theorem State.setReg_linkErr (s : State) (a : Nat) (v : Word) : (s.setReg a v).linkErr = s.linkErr := rfl
@[simp] theorem State.setReg_trackEnd (s : State) (a : Nat) (v : Word) : (s.setReg a v).trackEnd = s.trackEnd := rfl
@[simp] theorem State.setReg_fmgq (s : State) (a : Nat) (v : Word) : (s.setReg a v).fmgq = s.fmgq := rfl
@[simp] theorem State.setReg_flights (s : State) (a : Nat) (v : Word) : (s.setReg a v).flights = s.flights := rfl
@[simp] theorem State.setReg_tcbs (s : State) (a : Nat) (v : Word) : (s.setReg a v).tcbs = s.tcbs := rfl
@[simp] theorem State.setReg_tellers (s : State) (a : Nat) (v : Word) : (s.setReg a v).tellers = s.tellers := rfl
@[simp] theorem State.setReg_events (s : State) (a : Nat) (v : Word) : (s.setReg a v).events = s.events := rfl
@[simp] theorem State.setReg_pol (s : State) (a : Nat) (v : Word) : (s.setReg a v).pol = s.pol := rfl
@[simp] theorem State.setReg_polBad (s : State) (a : Nat) (v : Word) : (s.setReg a v).polBad = s.polBad := rfl
@[simp] theorem State.setReg_polWas (s : State) (a : Nat) (v : Word) : (s.setReg a v).polWas = s.polWas := rfl
@[simp] theorem State.setReg_polCnt (s : State) (a : Nat) (v : Word) : (s.setReg a v).polCnt = s.polCnt := rfl
@[simp] theorem State.setReg_cntAdds (s : State) (a : Nat) (v : Word) : (s.setReg a v).cntAdds = s.cntAdds := rfl
@[simp] theorem State.setReg_gsa (s : State) (a : Nat) (v : Word) : (s.setReg a v).gsa = s.gsa := rfl
@[simp] theorem State.setReg_prof (s : State) (a : Nat) (v : Word) : (s.setReg a v).prof = s.prof := rfl
@[simp] theorem State.setReg_kek (s : State) (a : Nat) (v : Word) : (s.setReg a v).kek = s.kek := rfl
@[simp] theorem State.setReg_vault (s : State) (a : Nat) (v : Word) : (s.setReg a v).vault = s.vault := rfl
@[simp] theorem State.setReg_vltBad (s : State) (a : Nat) (v : Word) : (s.setReg a v).vltBad = s.vltBad := rfl
@[simp] theorem State.setReg_rngAt (s : State) (a : Nat) (v : Word) : (s.setReg a v).rngAt = s.rngAt := rfl
@[simp] theorem State.setReg_pdies (s : State) (a : Nat) (v : Word) : (s.setReg a v).pdies = s.pdies := rfl
@[simp] theorem State.setReg_ft (s : State) (a : Nat) (v : Word) : (s.setReg a v).ft = s.ft := rfl
@[simp] theorem State.setReg_ftBad (s : State) (a : Nat) (v : Word) : (s.setReg a v).ftBad = s.ftBad := rfl
@[simp] theorem State.setReg_ftWas (s : State) (a : Nat) (v : Word) : (s.setReg a v).ftWas = s.ftWas := rfl
@[simp] theorem State.setReg_ftHit (s : State) (a : Nat) (v : Word) : (s.setReg a v).ftHit = s.ftHit := rfl
@[simp] theorem State.setReg_sat (s : State) (a : Nat) (v : Word) : (s.setReg a v).sat = s.sat := rfl
@[simp] theorem State.setReg_satWas (s : State) (a : Nat) (v : Word) : (s.setReg a v).satWas = s.satWas := rfl
@[simp] theorem State.setReg_vltWas (s : State) (a : Nat) (v : Word) : (s.setReg a v).vltWas = s.vltWas := rfl
@[simp] theorem State.setReg_vltGone (s : State) (a : Nat) (v : Word) : (s.setReg a v).vltGone = s.vltGone := rfl
@[simp] theorem State.setReg_pktMem (s : State) (a : Nat) (v : Word) : (s.setReg a v).pktMem = s.pktMem := rfl
@[simp] theorem State.setReg_bufs (s : State) (a : Nat) (v : Word) : (s.setReg a v).bufs = s.bufs := rfl
@[simp] theorem State.setReg_bufBad (s : State) (a : Nat) (v : Word) : (s.setReg a v).bufBad = s.bufBad := rfl
@[simp] theorem State.setReg_pools (s : State) (a : Nat) (v : Word) : (s.setReg a v).pools = s.pools := rfl
@[simp] theorem State.setReg_lvlWas (s : State) (a : Nat) (v : Word) : (s.setReg a v).lvlWas = s.lvlWas := rfl
@[simp] theorem State.setReg_used (s : State) (a : Nat) (v : Word) : (s.setReg a v).used = s.used := rfl
@[simp] theorem State.setReg_queues (s : State) (a : Nat) (v : Word) : (s.setReg a v).queues = s.queues := rfl
@[simp] theorem State.setReg_shapers (s : State) (a : Nat) (v : Word) : (s.setReg a v).shapers = s.shapers := rfl
@[simp] theorem State.setReg_policers (s : State) (a : Nat) (v : Word) : (s.setReg a v).policers = s.policers := rfl
@[simp] theorem State.setReg_punters (s : State) (a : Nat) (v : Word) : (s.setReg a v).punters = s.punters := rfl
@[simp] theorem State.setReg_tports (s : State) (a : Nat) (v : Word) : (s.setReg a v).tports = s.tports := rfl
@[simp] theorem State.setReg_tpl (s : State) (a : Nat) (v : Word) : (s.setReg a v).tpl = s.tpl := rfl
@[simp] theorem State.setReg_punts (s : State) (a : Nat) (v : Word) : (s.setReg a v).punts = s.punts := rfl
@[simp] theorem State.setReg_pauses (s : State) (a : Nat) (v : Word) : (s.setReg a v).pauses = s.pauses := rfl
@[simp] theorem State.setReg_xoffAt (s : State) (a : Nat) (v : Word) : (s.setReg a v).xoffAt = s.xoffAt := rfl
@[simp] theorem State.setReg_links (s : State) (a : Nat) (v : Word) : (s.setReg a v).links = s.links := rfl
@[simp] theorem State.setReg_portOff (s : State) (a : Nat) (v : Word) : (s.setReg a v).portOff = s.portOff := rfl
@[simp] theorem State.setReg_wlocks (s : State) (a : Nat) (v : Word) : (s.setReg a v).wlocks = s.wlocks := rfl
@[simp] theorem State.setReg_doms (s : State) (a : Nat) (v : Word) : (s.setReg a v).doms = s.doms := rfl
@[simp] theorem State.setReg_gen (s : State) (a : Nat) (v : Word) : (s.setReg a v).gen = s.gen := rfl
@[simp] theorem State.setReg_oldLive (s : State) (a : Nat) (v : Word) : (s.setReg a v).oldLive = s.oldLive := rfl
@[simp] theorem State.setReg_clearAt (s : State) (a : Nat) (v : Word) : (s.setReg a v).clearAt = s.clearAt := rfl
@[simp] theorem State.setReg_halted (s : State) (a : Nat) (v : Word) : (s.setReg a v).halted = s.halted := rfl
@[simp] theorem State.setReg_perst (s : State) (a : Nat) (v : Word) : (s.setReg a v).perst = s.perst := rfl
@[simp] theorem State.setReg_host (s : State) (a : Nat) (v : Word) : (s.setReg a v).host = s.host := rfl
@[simp] theorem State.setReg_repairs (s : State) (a : Nat) (v : Word) : (s.setReg a v).repairs = s.repairs := rfl
@[simp] theorem State.setReg_dbg (s : State) (a : Nat) (v : Word) : (s.setReg a v).dbg = s.dbg := rfl
@[simp] theorem State.setReg_capWr (s : State) (a : Nat) (v : Word) : (s.setReg a v).capWr = s.capWr := rfl
@[simp] theorem State.setReg_ctxWr (s : State) (a : Nat) (v : Word) : (s.setReg a v).ctxWr = s.ctxWr := rfl
@[simp] theorem State.setReg_epc (s : State) (a : Nat) (v : Word) : (s.setReg a v).epc = s.epc := rfl
@[simp] theorem State.setReg_fmg (s : State) (a : Nat) (v : Word) : (s.setReg a v).fmg = s.fmg := rfl
@[simp] theorem State.setReg_sec (s : State) (a : Nat) (v : Word) : (s.setReg a v).sec = s.sec := rfl
@[simp] theorem State.setReg_pwr (s : State) (a : Nat) (v : Word) : (s.setReg a v).pwr = s.pwr := rfl
@[simp] theorem State.setReg_flash (s : State) (a : Nat) (v : Word) : (s.setReg a v).flash = s.flash := rfl
@[simp] theorem State.setReg_tally (s : State) (a : Nat) (v : Word) : (s.setReg a v).tally = s.tally := rfl
@[simp] theorem State.setReg_tallyHi (s : State) (a : Nat) (v : Word) : (s.setReg a v).tallyHi = s.tallyHi := rfl
@[simp] theorem State.setReg_tallyAt (s : State) (a : Nat) (v : Word) : (s.setReg a v).tallyAt = s.tallyAt := rfl
@[simp] theorem State.setReg_mbxJob (s : State) (a : Nat) (v : Word) : (s.setReg a v).mbxJob = s.mbxJob := rfl
@[simp] theorem State.setReg_fills (s : State) (a : Nat) (v : Word) : (s.setReg a v).fills = s.fills := rfl
@[simp] theorem State.setReg_retire (s : State) (a : Nat) (v : Word) : (s.setReg a v).retire = s.retire := rfl
@[simp] theorem State.setReg_banks (s : State) (a : Nat) (v : Word) : (s.setReg a v).banks = s.banks := rfl
@[simp] theorem State.setReg_hstFill (s : State) (a : Nat) (v : Word) : (s.setReg a v).hstFill = s.hstFill := rfl
@[simp] theorem State.setReg_resync (s : State) (a : Nat) (v : Word) : (s.setReg a v).resync = s.resync := rfl
@[simp] theorem State.setReg_pulled (s : State) (a : Nat) (v : Word) : (s.setReg a v).pulled = s.pulled := rfl
@[simp] theorem State.setReg_dpairs (s : State) (a : Nat) (v : Word) : (s.setReg a v).dpairs = s.dpairs := rfl
@[simp] theorem State.setReg_tap (s : State) (a : Nat) (v : Word) : (s.setReg a v).tap = s.tap := rfl

/-! ## State.drawn -/

@[simp] theorem State.drawn_now (s : State) : (s.drawn).now = s.now := rfl
@[simp] theorem State.drawn_clk (s : State) : (s.drawn).clk = s.clk := rfl
@[simp] theorem State.drawn_tbNum (s : State) : (s.drawn).tbNum = s.tbNum := rfl
@[simp] theorem State.drawn_tbAt (s : State) : (s.drawn).tbAt = s.tbAt := rfl
@[simp] theorem State.drawn_tbPast (s : State) : (s.drawn).tbPast = s.tbPast := rfl
@[simp] theorem State.drawn_draw (s : State) : (s.drawn).draw = s.draw + 1 := rfl
@[simp] theorem State.drawn_pending (s : State) : (s.drawn).pending = s.pending := rfl
@[simp] theorem State.drawn_out (s : State) : (s.drawn).out = s.out := rfl
@[simp] theorem State.drawn_regs (s : State) : (s.drawn).regs = s.regs := rfl
@[simp] theorem State.drawn_hw (s : State) : (s.drawn).hw = s.hw := rfl
@[simp] theorem State.drawn_arrived (s : State) : (s.drawn).arrived = s.arrived := rfl
@[simp] theorem State.drawn_act (s : State) : (s.drawn).act = s.act := rfl
@[simp] theorem State.drawn_old (s : State) : (s.drawn).old = s.old := rfl
@[simp] theorem State.drawn_thr (s : State) : (s.drawn).thr = s.thr := rfl
@[simp] theorem State.drawn_clu (s : State) : (s.drawn).clu = s.clu := rfl
@[simp] theorem State.drawn_locks (s : State) : (s.drawn).locks = s.locks := rfl
@[simp] theorem State.drawn_chans (s : State) : (s.drawn).chans = s.chans := rfl
@[simp] theorem State.drawn_cops (s : State) : (s.drawn).cops = s.cops := rfl
@[simp] theorem State.drawn_lines (s : State) : (s.drawn).lines = s.lines := rfl
@[simp] theorem State.drawn_spm (s : State) : (s.drawn).spm = s.spm := rfl
@[simp] theorem State.drawn_spmBad (s : State) : (s.drawn).spmBad = s.spmBad := rfl
@[simp] theorem State.drawn_cmem (s : State) : (s.drawn).cmem = s.cmem := rfl
@[simp] theorem State.drawn_dram (s : State) : (s.drawn).dram = s.dram := rfl
@[simp] theorem State.drawn_linkErr (s : State) : (s.drawn).linkErr = s.linkErr := rfl
@[simp] theorem State.drawn_trackEnd (s : State) : (s.drawn).trackEnd = s.trackEnd := rfl
@[simp] theorem State.drawn_fmgq (s : State) : (s.drawn).fmgq = s.fmgq := rfl
@[simp] theorem State.drawn_flights (s : State) : (s.drawn).flights = s.flights := rfl
@[simp] theorem State.drawn_tcbs (s : State) : (s.drawn).tcbs = s.tcbs := rfl
@[simp] theorem State.drawn_tellers (s : State) : (s.drawn).tellers = s.tellers := rfl
@[simp] theorem State.drawn_events (s : State) : (s.drawn).events = s.events := rfl
@[simp] theorem State.drawn_pol (s : State) : (s.drawn).pol = s.pol := rfl
@[simp] theorem State.drawn_polBad (s : State) : (s.drawn).polBad = s.polBad := rfl
@[simp] theorem State.drawn_polWas (s : State) : (s.drawn).polWas = s.polWas := rfl
@[simp] theorem State.drawn_polCnt (s : State) : (s.drawn).polCnt = s.polCnt := rfl
@[simp] theorem State.drawn_cntAdds (s : State) : (s.drawn).cntAdds = s.cntAdds := rfl
@[simp] theorem State.drawn_gsa (s : State) : (s.drawn).gsa = s.gsa := rfl
@[simp] theorem State.drawn_prof (s : State) : (s.drawn).prof = s.prof := rfl
@[simp] theorem State.drawn_kek (s : State) : (s.drawn).kek = s.kek := rfl
@[simp] theorem State.drawn_vault (s : State) : (s.drawn).vault = s.vault := rfl
@[simp] theorem State.drawn_vltBad (s : State) : (s.drawn).vltBad = s.vltBad := rfl
@[simp] theorem State.drawn_rngAt (s : State) : (s.drawn).rngAt = s.rngAt := rfl
@[simp] theorem State.drawn_pdies (s : State) : (s.drawn).pdies = s.pdies := rfl
@[simp] theorem State.drawn_ft (s : State) : (s.drawn).ft = s.ft := rfl
@[simp] theorem State.drawn_ftBad (s : State) : (s.drawn).ftBad = s.ftBad := rfl
@[simp] theorem State.drawn_ftWas (s : State) : (s.drawn).ftWas = s.ftWas := rfl
@[simp] theorem State.drawn_ftHit (s : State) : (s.drawn).ftHit = s.ftHit := rfl
@[simp] theorem State.drawn_sat (s : State) : (s.drawn).sat = s.sat := rfl
@[simp] theorem State.drawn_satWas (s : State) : (s.drawn).satWas = s.satWas := rfl
@[simp] theorem State.drawn_vltWas (s : State) : (s.drawn).vltWas = s.vltWas := rfl
@[simp] theorem State.drawn_vltGone (s : State) : (s.drawn).vltGone = s.vltGone := rfl
@[simp] theorem State.drawn_pktMem (s : State) : (s.drawn).pktMem = s.pktMem := rfl
@[simp] theorem State.drawn_bufs (s : State) : (s.drawn).bufs = s.bufs := rfl
@[simp] theorem State.drawn_bufBad (s : State) : (s.drawn).bufBad = s.bufBad := rfl
@[simp] theorem State.drawn_pools (s : State) : (s.drawn).pools = s.pools := rfl
@[simp] theorem State.drawn_lvlWas (s : State) : (s.drawn).lvlWas = s.lvlWas := rfl
@[simp] theorem State.drawn_used (s : State) : (s.drawn).used = s.used := rfl
@[simp] theorem State.drawn_queues (s : State) : (s.drawn).queues = s.queues := rfl
@[simp] theorem State.drawn_shapers (s : State) : (s.drawn).shapers = s.shapers := rfl
@[simp] theorem State.drawn_policers (s : State) : (s.drawn).policers = s.policers := rfl
@[simp] theorem State.drawn_punters (s : State) : (s.drawn).punters = s.punters := rfl
@[simp] theorem State.drawn_tports (s : State) : (s.drawn).tports = s.tports := rfl
@[simp] theorem State.drawn_tpl (s : State) : (s.drawn).tpl = s.tpl := rfl
@[simp] theorem State.drawn_punts (s : State) : (s.drawn).punts = s.punts := rfl
@[simp] theorem State.drawn_pauses (s : State) : (s.drawn).pauses = s.pauses := rfl
@[simp] theorem State.drawn_xoffAt (s : State) : (s.drawn).xoffAt = s.xoffAt := rfl
@[simp] theorem State.drawn_links (s : State) : (s.drawn).links = s.links := rfl
@[simp] theorem State.drawn_portOff (s : State) : (s.drawn).portOff = s.portOff := rfl
@[simp] theorem State.drawn_wlocks (s : State) : (s.drawn).wlocks = s.wlocks := rfl
@[simp] theorem State.drawn_doms (s : State) : (s.drawn).doms = s.doms := rfl
@[simp] theorem State.drawn_gen (s : State) : (s.drawn).gen = s.gen := rfl
@[simp] theorem State.drawn_oldLive (s : State) : (s.drawn).oldLive = s.oldLive := rfl
@[simp] theorem State.drawn_clearAt (s : State) : (s.drawn).clearAt = s.clearAt := rfl
@[simp] theorem State.drawn_halted (s : State) : (s.drawn).halted = s.halted := rfl
@[simp] theorem State.drawn_perst (s : State) : (s.drawn).perst = s.perst := rfl
@[simp] theorem State.drawn_host (s : State) : (s.drawn).host = s.host := rfl
@[simp] theorem State.drawn_repairs (s : State) : (s.drawn).repairs = s.repairs := rfl
@[simp] theorem State.drawn_dbg (s : State) : (s.drawn).dbg = s.dbg := rfl
@[simp] theorem State.drawn_capWr (s : State) : (s.drawn).capWr = s.capWr := rfl
@[simp] theorem State.drawn_ctxWr (s : State) : (s.drawn).ctxWr = s.ctxWr := rfl
@[simp] theorem State.drawn_epc (s : State) : (s.drawn).epc = s.epc := rfl
@[simp] theorem State.drawn_fmg (s : State) : (s.drawn).fmg = s.fmg := rfl
@[simp] theorem State.drawn_sec (s : State) : (s.drawn).sec = s.sec := rfl
@[simp] theorem State.drawn_pwr (s : State) : (s.drawn).pwr = s.pwr := rfl
@[simp] theorem State.drawn_flash (s : State) : (s.drawn).flash = s.flash := rfl
@[simp] theorem State.drawn_tally (s : State) : (s.drawn).tally = s.tally := rfl
@[simp] theorem State.drawn_tallyHi (s : State) : (s.drawn).tallyHi = s.tallyHi := rfl
@[simp] theorem State.drawn_tallyAt (s : State) : (s.drawn).tallyAt = s.tallyAt := rfl
@[simp] theorem State.drawn_mbxJob (s : State) : (s.drawn).mbxJob = s.mbxJob := rfl
@[simp] theorem State.drawn_fills (s : State) : (s.drawn).fills = s.fills := rfl
@[simp] theorem State.drawn_retire (s : State) : (s.drawn).retire = s.retire := rfl
@[simp] theorem State.drawn_banks (s : State) : (s.drawn).banks = s.banks := rfl
@[simp] theorem State.drawn_hstFill (s : State) : (s.drawn).hstFill = s.hstFill := rfl
@[simp] theorem State.drawn_resync (s : State) : (s.drawn).resync = s.resync := rfl
@[simp] theorem State.drawn_pulled (s : State) : (s.drawn).pulled = s.pulled := rfl
@[simp] theorem State.drawn_dpairs (s : State) : (s.drawn).dpairs = s.dpairs := rfl
@[simp] theorem State.drawn_tap (s : State) : (s.drawn).tap = s.tap := rfl

/-! ## State.emit -/

@[simp] theorem State.emit_now (s : State) (o : Out) : (s.emit o).now = s.now := rfl
@[simp] theorem State.emit_clk (s : State) (o : Out) : (s.emit o).clk = s.clk := rfl
@[simp] theorem State.emit_tbNum (s : State) (o : Out) : (s.emit o).tbNum = s.tbNum := rfl
@[simp] theorem State.emit_tbAt (s : State) (o : Out) : (s.emit o).tbAt = s.tbAt := rfl
@[simp] theorem State.emit_tbPast (s : State) (o : Out) : (s.emit o).tbPast = s.tbPast := rfl
@[simp] theorem State.emit_draw (s : State) (o : Out) : (s.emit o).draw = s.draw := rfl
@[simp] theorem State.emit_pending (s : State) (o : Out) : (s.emit o).pending = s.pending := rfl
@[simp] theorem State.emit_out (s : State) (o : Out) : (s.emit o).out = o :: s.out := rfl
@[simp] theorem State.emit_regs (s : State) (o : Out) : (s.emit o).regs = s.regs := rfl
@[simp] theorem State.emit_hw (s : State) (o : Out) : (s.emit o).hw = s.hw := rfl
@[simp] theorem State.emit_arrived (s : State) (o : Out) : (s.emit o).arrived = s.arrived := rfl
@[simp] theorem State.emit_act (s : State) (o : Out) : (s.emit o).act = s.act := rfl
@[simp] theorem State.emit_old (s : State) (o : Out) : (s.emit o).old = s.old := rfl
@[simp] theorem State.emit_thr (s : State) (o : Out) : (s.emit o).thr = s.thr := rfl
@[simp] theorem State.emit_clu (s : State) (o : Out) : (s.emit o).clu = s.clu := rfl
@[simp] theorem State.emit_locks (s : State) (o : Out) : (s.emit o).locks = s.locks := rfl
@[simp] theorem State.emit_chans (s : State) (o : Out) : (s.emit o).chans = s.chans := rfl
@[simp] theorem State.emit_cops (s : State) (o : Out) : (s.emit o).cops = s.cops := rfl
@[simp] theorem State.emit_lines (s : State) (o : Out) : (s.emit o).lines = s.lines := rfl
@[simp] theorem State.emit_spm (s : State) (o : Out) : (s.emit o).spm = s.spm := rfl
@[simp] theorem State.emit_spmBad (s : State) (o : Out) : (s.emit o).spmBad = s.spmBad := rfl
@[simp] theorem State.emit_cmem (s : State) (o : Out) : (s.emit o).cmem = s.cmem := rfl
@[simp] theorem State.emit_dram (s : State) (o : Out) : (s.emit o).dram = s.dram := rfl
@[simp] theorem State.emit_linkErr (s : State) (o : Out) : (s.emit o).linkErr = s.linkErr := rfl
@[simp] theorem State.emit_trackEnd (s : State) (o : Out) : (s.emit o).trackEnd = s.trackEnd := rfl
@[simp] theorem State.emit_fmgq (s : State) (o : Out) : (s.emit o).fmgq = s.fmgq := rfl
@[simp] theorem State.emit_flights (s : State) (o : Out) : (s.emit o).flights = s.flights := rfl
@[simp] theorem State.emit_tcbs (s : State) (o : Out) : (s.emit o).tcbs = s.tcbs := rfl
@[simp] theorem State.emit_tellers (s : State) (o : Out) : (s.emit o).tellers = s.tellers := rfl
@[simp] theorem State.emit_events (s : State) (o : Out) : (s.emit o).events = s.events := rfl
@[simp] theorem State.emit_pol (s : State) (o : Out) : (s.emit o).pol = s.pol := rfl
@[simp] theorem State.emit_polBad (s : State) (o : Out) : (s.emit o).polBad = s.polBad := rfl
@[simp] theorem State.emit_polWas (s : State) (o : Out) : (s.emit o).polWas = s.polWas := rfl
@[simp] theorem State.emit_polCnt (s : State) (o : Out) : (s.emit o).polCnt = s.polCnt := rfl
@[simp] theorem State.emit_cntAdds (s : State) (o : Out) : (s.emit o).cntAdds = s.cntAdds := rfl
@[simp] theorem State.emit_gsa (s : State) (o : Out) : (s.emit o).gsa = s.gsa := rfl
@[simp] theorem State.emit_prof (s : State) (o : Out) : (s.emit o).prof = s.prof := rfl
@[simp] theorem State.emit_kek (s : State) (o : Out) : (s.emit o).kek = s.kek := rfl
@[simp] theorem State.emit_vault (s : State) (o : Out) : (s.emit o).vault = s.vault := rfl
@[simp] theorem State.emit_vltBad (s : State) (o : Out) : (s.emit o).vltBad = s.vltBad := rfl
@[simp] theorem State.emit_rngAt (s : State) (o : Out) : (s.emit o).rngAt = s.rngAt := rfl
@[simp] theorem State.emit_pdies (s : State) (o : Out) : (s.emit o).pdies = s.pdies := rfl
@[simp] theorem State.emit_ft (s : State) (o : Out) : (s.emit o).ft = s.ft := rfl
@[simp] theorem State.emit_ftBad (s : State) (o : Out) : (s.emit o).ftBad = s.ftBad := rfl
@[simp] theorem State.emit_ftWas (s : State) (o : Out) : (s.emit o).ftWas = s.ftWas := rfl
@[simp] theorem State.emit_ftHit (s : State) (o : Out) : (s.emit o).ftHit = s.ftHit := rfl
@[simp] theorem State.emit_sat (s : State) (o : Out) : (s.emit o).sat = s.sat := rfl
@[simp] theorem State.emit_satWas (s : State) (o : Out) : (s.emit o).satWas = s.satWas := rfl
@[simp] theorem State.emit_vltWas (s : State) (o : Out) : (s.emit o).vltWas = s.vltWas := rfl
@[simp] theorem State.emit_vltGone (s : State) (o : Out) : (s.emit o).vltGone = s.vltGone := rfl
@[simp] theorem State.emit_pktMem (s : State) (o : Out) : (s.emit o).pktMem = s.pktMem := rfl
@[simp] theorem State.emit_bufs (s : State) (o : Out) : (s.emit o).bufs = s.bufs := rfl
@[simp] theorem State.emit_bufBad (s : State) (o : Out) : (s.emit o).bufBad = s.bufBad := rfl
@[simp] theorem State.emit_pools (s : State) (o : Out) : (s.emit o).pools = s.pools := rfl
@[simp] theorem State.emit_lvlWas (s : State) (o : Out) : (s.emit o).lvlWas = s.lvlWas := rfl
@[simp] theorem State.emit_used (s : State) (o : Out) : (s.emit o).used = s.used := rfl
@[simp] theorem State.emit_queues (s : State) (o : Out) : (s.emit o).queues = s.queues := rfl
@[simp] theorem State.emit_shapers (s : State) (o : Out) : (s.emit o).shapers = s.shapers := rfl
@[simp] theorem State.emit_policers (s : State) (o : Out) : (s.emit o).policers = s.policers := rfl
@[simp] theorem State.emit_punters (s : State) (o : Out) : (s.emit o).punters = s.punters := rfl
@[simp] theorem State.emit_tports (s : State) (o : Out) : (s.emit o).tports = s.tports := rfl
@[simp] theorem State.emit_tpl (s : State) (o : Out) : (s.emit o).tpl = s.tpl := rfl
@[simp] theorem State.emit_punts (s : State) (o : Out) : (s.emit o).punts = s.punts := rfl
@[simp] theorem State.emit_pauses (s : State) (o : Out) : (s.emit o).pauses = s.pauses := rfl
@[simp] theorem State.emit_xoffAt (s : State) (o : Out) : (s.emit o).xoffAt = s.xoffAt := rfl
@[simp] theorem State.emit_links (s : State) (o : Out) : (s.emit o).links = s.links := rfl
@[simp] theorem State.emit_portOff (s : State) (o : Out) : (s.emit o).portOff = s.portOff := rfl
@[simp] theorem State.emit_wlocks (s : State) (o : Out) : (s.emit o).wlocks = s.wlocks := rfl
@[simp] theorem State.emit_doms (s : State) (o : Out) : (s.emit o).doms = s.doms := rfl
@[simp] theorem State.emit_gen (s : State) (o : Out) : (s.emit o).gen = s.gen := rfl
@[simp] theorem State.emit_oldLive (s : State) (o : Out) : (s.emit o).oldLive = s.oldLive := rfl
@[simp] theorem State.emit_clearAt (s : State) (o : Out) : (s.emit o).clearAt = s.clearAt := rfl
@[simp] theorem State.emit_halted (s : State) (o : Out) : (s.emit o).halted = s.halted := rfl
@[simp] theorem State.emit_perst (s : State) (o : Out) : (s.emit o).perst = s.perst := rfl
@[simp] theorem State.emit_host (s : State) (o : Out) : (s.emit o).host = s.host := rfl
@[simp] theorem State.emit_repairs (s : State) (o : Out) : (s.emit o).repairs = s.repairs := rfl
@[simp] theorem State.emit_dbg (s : State) (o : Out) : (s.emit o).dbg = s.dbg := rfl
@[simp] theorem State.emit_capWr (s : State) (o : Out) : (s.emit o).capWr = s.capWr := rfl
@[simp] theorem State.emit_ctxWr (s : State) (o : Out) : (s.emit o).ctxWr = s.ctxWr := rfl
@[simp] theorem State.emit_epc (s : State) (o : Out) : (s.emit o).epc = s.epc := rfl
@[simp] theorem State.emit_fmg (s : State) (o : Out) : (s.emit o).fmg = s.fmg := rfl
@[simp] theorem State.emit_sec (s : State) (o : Out) : (s.emit o).sec = s.sec := rfl
@[simp] theorem State.emit_pwr (s : State) (o : Out) : (s.emit o).pwr = s.pwr := rfl
@[simp] theorem State.emit_flash (s : State) (o : Out) : (s.emit o).flash = s.flash := rfl
@[simp] theorem State.emit_tally (s : State) (o : Out) : (s.emit o).tally = s.tally := rfl
@[simp] theorem State.emit_tallyHi (s : State) (o : Out) : (s.emit o).tallyHi = s.tallyHi := rfl
@[simp] theorem State.emit_tallyAt (s : State) (o : Out) : (s.emit o).tallyAt = s.tallyAt := rfl
@[simp] theorem State.emit_mbxJob (s : State) (o : Out) : (s.emit o).mbxJob = s.mbxJob := rfl
@[simp] theorem State.emit_fills (s : State) (o : Out) : (s.emit o).fills = s.fills := rfl
@[simp] theorem State.emit_retire (s : State) (o : Out) : (s.emit o).retire = s.retire := rfl
@[simp] theorem State.emit_banks (s : State) (o : Out) : (s.emit o).banks = s.banks := rfl
@[simp] theorem State.emit_hstFill (s : State) (o : Out) : (s.emit o).hstFill = s.hstFill := rfl
@[simp] theorem State.emit_resync (s : State) (o : Out) : (s.emit o).resync = s.resync := rfl
@[simp] theorem State.emit_pulled (s : State) (o : Out) : (s.emit o).pulled = s.pulled := rfl
@[simp] theorem State.emit_dpairs (s : State) (o : Out) : (s.emit o).dpairs = s.dpairs := rfl
@[simp] theorem State.emit_tap (s : State) (o : Out) : (s.emit o).tap = s.tap := rfl

/-! ## State.modPd -/

@[simp] theorem State.modPd_now (s : State) (d : Nat) (f : PDieState → PDieState) : (s.modPd d f).now = s.now := rfl
@[simp] theorem State.modPd_clk (s : State) (d : Nat) (f : PDieState → PDieState) : (s.modPd d f).clk = s.clk := rfl
@[simp] theorem State.modPd_tbNum (s : State) (d : Nat) (f : PDieState → PDieState) : (s.modPd d f).tbNum = s.tbNum := rfl
@[simp] theorem State.modPd_tbAt (s : State) (d : Nat) (f : PDieState → PDieState) : (s.modPd d f).tbAt = s.tbAt := rfl
@[simp] theorem State.modPd_tbPast (s : State) (d : Nat) (f : PDieState → PDieState) : (s.modPd d f).tbPast = s.tbPast := rfl
@[simp] theorem State.modPd_draw (s : State) (d : Nat) (f : PDieState → PDieState) : (s.modPd d f).draw = s.draw := rfl
@[simp] theorem State.modPd_pending (s : State) (d : Nat) (f : PDieState → PDieState) : (s.modPd d f).pending = s.pending := rfl
@[simp] theorem State.modPd_out (s : State) (d : Nat) (f : PDieState → PDieState) : (s.modPd d f).out = s.out := rfl
@[simp] theorem State.modPd_regs (s : State) (d : Nat) (f : PDieState → PDieState) : (s.modPd d f).regs = s.regs := rfl
@[simp] theorem State.modPd_hw (s : State) (d : Nat) (f : PDieState → PDieState) : (s.modPd d f).hw = s.hw := rfl
@[simp] theorem State.modPd_arrived (s : State) (d : Nat) (f : PDieState → PDieState) : (s.modPd d f).arrived = s.arrived := rfl
@[simp] theorem State.modPd_act (s : State) (d : Nat) (f : PDieState → PDieState) : (s.modPd d f).act = s.act := rfl
@[simp] theorem State.modPd_old (s : State) (d : Nat) (f : PDieState → PDieState) : (s.modPd d f).old = s.old := rfl
@[simp] theorem State.modPd_thr (s : State) (d : Nat) (f : PDieState → PDieState) : (s.modPd d f).thr = s.thr := rfl
@[simp] theorem State.modPd_clu (s : State) (d : Nat) (f : PDieState → PDieState) : (s.modPd d f).clu = s.clu := rfl
@[simp] theorem State.modPd_locks (s : State) (d : Nat) (f : PDieState → PDieState) : (s.modPd d f).locks = s.locks := rfl
@[simp] theorem State.modPd_chans (s : State) (d : Nat) (f : PDieState → PDieState) : (s.modPd d f).chans = s.chans := rfl
@[simp] theorem State.modPd_cops (s : State) (d : Nat) (f : PDieState → PDieState) : (s.modPd d f).cops = s.cops := rfl
@[simp] theorem State.modPd_lines (s : State) (d : Nat) (f : PDieState → PDieState) : (s.modPd d f).lines = s.lines := rfl
@[simp] theorem State.modPd_spm (s : State) (d : Nat) (f : PDieState → PDieState) : (s.modPd d f).spm = s.spm := rfl
@[simp] theorem State.modPd_spmBad (s : State) (d : Nat) (f : PDieState → PDieState) : (s.modPd d f).spmBad = s.spmBad := rfl
@[simp] theorem State.modPd_cmem (s : State) (d : Nat) (f : PDieState → PDieState) : (s.modPd d f).cmem = s.cmem := rfl
@[simp] theorem State.modPd_dram (s : State) (d : Nat) (f : PDieState → PDieState) : (s.modPd d f).dram = s.dram := rfl
@[simp] theorem State.modPd_linkErr (s : State) (d : Nat) (f : PDieState → PDieState) : (s.modPd d f).linkErr = s.linkErr := rfl
@[simp] theorem State.modPd_trackEnd (s : State) (d : Nat) (f : PDieState → PDieState) : (s.modPd d f).trackEnd = s.trackEnd := rfl
@[simp] theorem State.modPd_fmgq (s : State) (d : Nat) (f : PDieState → PDieState) : (s.modPd d f).fmgq = s.fmgq := rfl
@[simp] theorem State.modPd_flights (s : State) (d : Nat) (f : PDieState → PDieState) : (s.modPd d f).flights = s.flights := rfl
@[simp] theorem State.modPd_tcbs (s : State) (d : Nat) (f : PDieState → PDieState) : (s.modPd d f).tcbs = s.tcbs := rfl
@[simp] theorem State.modPd_tellers (s : State) (d : Nat) (f : PDieState → PDieState) : (s.modPd d f).tellers = s.tellers := rfl
@[simp] theorem State.modPd_events (s : State) (d : Nat) (f : PDieState → PDieState) : (s.modPd d f).events = s.events := rfl
@[simp] theorem State.modPd_pol (s : State) (d : Nat) (f : PDieState → PDieState) : (s.modPd d f).pol = s.pol := rfl
@[simp] theorem State.modPd_polBad (s : State) (d : Nat) (f : PDieState → PDieState) : (s.modPd d f).polBad = s.polBad := rfl
@[simp] theorem State.modPd_polWas (s : State) (d : Nat) (f : PDieState → PDieState) : (s.modPd d f).polWas = s.polWas := rfl
@[simp] theorem State.modPd_polCnt (s : State) (d : Nat) (f : PDieState → PDieState) : (s.modPd d f).polCnt = s.polCnt := rfl
@[simp] theorem State.modPd_cntAdds (s : State) (d : Nat) (f : PDieState → PDieState) : (s.modPd d f).cntAdds = s.cntAdds := rfl
@[simp] theorem State.modPd_gsa (s : State) (d : Nat) (f : PDieState → PDieState) : (s.modPd d f).gsa = s.gsa := rfl
@[simp] theorem State.modPd_prof (s : State) (d : Nat) (f : PDieState → PDieState) : (s.modPd d f).prof = s.prof := rfl
@[simp] theorem State.modPd_kek (s : State) (d : Nat) (f : PDieState → PDieState) : (s.modPd d f).kek = s.kek := rfl
@[simp] theorem State.modPd_vault (s : State) (d : Nat) (f : PDieState → PDieState) : (s.modPd d f).vault = s.vault := rfl
@[simp] theorem State.modPd_vltBad (s : State) (d : Nat) (f : PDieState → PDieState) : (s.modPd d f).vltBad = s.vltBad := rfl
@[simp] theorem State.modPd_rngAt (s : State) (d : Nat) (f : PDieState → PDieState) : (s.modPd d f).rngAt = s.rngAt := rfl
@[simp] theorem State.modPd_pdies (s : State) (d : Nat) (f : PDieState → PDieState) : (s.modPd d f).pdies = tUpd (fun _ => PDieState.empty) s.pdies d f := rfl
@[simp] theorem State.modPd_ft (s : State) (d : Nat) (f : PDieState → PDieState) : (s.modPd d f).ft = s.ft := rfl
@[simp] theorem State.modPd_ftBad (s : State) (d : Nat) (f : PDieState → PDieState) : (s.modPd d f).ftBad = s.ftBad := rfl
@[simp] theorem State.modPd_ftWas (s : State) (d : Nat) (f : PDieState → PDieState) : (s.modPd d f).ftWas = s.ftWas := rfl
@[simp] theorem State.modPd_ftHit (s : State) (d : Nat) (f : PDieState → PDieState) : (s.modPd d f).ftHit = s.ftHit := rfl
@[simp] theorem State.modPd_sat (s : State) (d : Nat) (f : PDieState → PDieState) : (s.modPd d f).sat = s.sat := rfl
@[simp] theorem State.modPd_satWas (s : State) (d : Nat) (f : PDieState → PDieState) : (s.modPd d f).satWas = s.satWas := rfl
@[simp] theorem State.modPd_vltWas (s : State) (d : Nat) (f : PDieState → PDieState) : (s.modPd d f).vltWas = s.vltWas := rfl
@[simp] theorem State.modPd_vltGone (s : State) (d : Nat) (f : PDieState → PDieState) : (s.modPd d f).vltGone = s.vltGone := rfl
@[simp] theorem State.modPd_pktMem (s : State) (d : Nat) (f : PDieState → PDieState) : (s.modPd d f).pktMem = s.pktMem := rfl
@[simp] theorem State.modPd_bufs (s : State) (d : Nat) (f : PDieState → PDieState) : (s.modPd d f).bufs = s.bufs := rfl
@[simp] theorem State.modPd_bufBad (s : State) (d : Nat) (f : PDieState → PDieState) : (s.modPd d f).bufBad = s.bufBad := rfl
@[simp] theorem State.modPd_pools (s : State) (d : Nat) (f : PDieState → PDieState) : (s.modPd d f).pools = s.pools := rfl
@[simp] theorem State.modPd_lvlWas (s : State) (d : Nat) (f : PDieState → PDieState) : (s.modPd d f).lvlWas = s.lvlWas := rfl
@[simp] theorem State.modPd_used (s : State) (d : Nat) (f : PDieState → PDieState) : (s.modPd d f).used = s.used := rfl
@[simp] theorem State.modPd_queues (s : State) (d : Nat) (f : PDieState → PDieState) : (s.modPd d f).queues = s.queues := rfl
@[simp] theorem State.modPd_shapers (s : State) (d : Nat) (f : PDieState → PDieState) : (s.modPd d f).shapers = s.shapers := rfl
@[simp] theorem State.modPd_policers (s : State) (d : Nat) (f : PDieState → PDieState) : (s.modPd d f).policers = s.policers := rfl
@[simp] theorem State.modPd_punters (s : State) (d : Nat) (f : PDieState → PDieState) : (s.modPd d f).punters = s.punters := rfl
@[simp] theorem State.modPd_tports (s : State) (d : Nat) (f : PDieState → PDieState) : (s.modPd d f).tports = s.tports := rfl
@[simp] theorem State.modPd_tpl (s : State) (d : Nat) (f : PDieState → PDieState) : (s.modPd d f).tpl = s.tpl := rfl
@[simp] theorem State.modPd_punts (s : State) (d : Nat) (f : PDieState → PDieState) : (s.modPd d f).punts = s.punts := rfl
@[simp] theorem State.modPd_pauses (s : State) (d : Nat) (f : PDieState → PDieState) : (s.modPd d f).pauses = s.pauses := rfl
@[simp] theorem State.modPd_xoffAt (s : State) (d : Nat) (f : PDieState → PDieState) : (s.modPd d f).xoffAt = s.xoffAt := rfl
@[simp] theorem State.modPd_links (s : State) (d : Nat) (f : PDieState → PDieState) : (s.modPd d f).links = s.links := rfl
@[simp] theorem State.modPd_portOff (s : State) (d : Nat) (f : PDieState → PDieState) : (s.modPd d f).portOff = s.portOff := rfl
@[simp] theorem State.modPd_wlocks (s : State) (d : Nat) (f : PDieState → PDieState) : (s.modPd d f).wlocks = s.wlocks := rfl
@[simp] theorem State.modPd_doms (s : State) (d : Nat) (f : PDieState → PDieState) : (s.modPd d f).doms = s.doms := rfl
@[simp] theorem State.modPd_gen (s : State) (d : Nat) (f : PDieState → PDieState) : (s.modPd d f).gen = s.gen := rfl
@[simp] theorem State.modPd_oldLive (s : State) (d : Nat) (f : PDieState → PDieState) : (s.modPd d f).oldLive = s.oldLive := rfl
@[simp] theorem State.modPd_clearAt (s : State) (d : Nat) (f : PDieState → PDieState) : (s.modPd d f).clearAt = s.clearAt := rfl
@[simp] theorem State.modPd_halted (s : State) (d : Nat) (f : PDieState → PDieState) : (s.modPd d f).halted = s.halted := rfl
@[simp] theorem State.modPd_perst (s : State) (d : Nat) (f : PDieState → PDieState) : (s.modPd d f).perst = s.perst := rfl
@[simp] theorem State.modPd_host (s : State) (d : Nat) (f : PDieState → PDieState) : (s.modPd d f).host = s.host := rfl
@[simp] theorem State.modPd_repairs (s : State) (d : Nat) (f : PDieState → PDieState) : (s.modPd d f).repairs = s.repairs := rfl
@[simp] theorem State.modPd_dbg (s : State) (d : Nat) (f : PDieState → PDieState) : (s.modPd d f).dbg = s.dbg := rfl
@[simp] theorem State.modPd_capWr (s : State) (d : Nat) (f : PDieState → PDieState) : (s.modPd d f).capWr = s.capWr := rfl
@[simp] theorem State.modPd_ctxWr (s : State) (d : Nat) (f : PDieState → PDieState) : (s.modPd d f).ctxWr = s.ctxWr := rfl
@[simp] theorem State.modPd_epc (s : State) (d : Nat) (f : PDieState → PDieState) : (s.modPd d f).epc = s.epc := rfl
@[simp] theorem State.modPd_fmg (s : State) (d : Nat) (f : PDieState → PDieState) : (s.modPd d f).fmg = s.fmg := rfl
@[simp] theorem State.modPd_sec (s : State) (d : Nat) (f : PDieState → PDieState) : (s.modPd d f).sec = s.sec := rfl
@[simp] theorem State.modPd_pwr (s : State) (d : Nat) (f : PDieState → PDieState) : (s.modPd d f).pwr = s.pwr := rfl
@[simp] theorem State.modPd_flash (s : State) (d : Nat) (f : PDieState → PDieState) : (s.modPd d f).flash = s.flash := rfl
@[simp] theorem State.modPd_tally (s : State) (d : Nat) (f : PDieState → PDieState) : (s.modPd d f).tally = s.tally := rfl
@[simp] theorem State.modPd_tallyHi (s : State) (d : Nat) (f : PDieState → PDieState) : (s.modPd d f).tallyHi = s.tallyHi := rfl
@[simp] theorem State.modPd_tallyAt (s : State) (d : Nat) (f : PDieState → PDieState) : (s.modPd d f).tallyAt = s.tallyAt := rfl
@[simp] theorem State.modPd_mbxJob (s : State) (d : Nat) (f : PDieState → PDieState) : (s.modPd d f).mbxJob = s.mbxJob := rfl
@[simp] theorem State.modPd_fills (s : State) (d : Nat) (f : PDieState → PDieState) : (s.modPd d f).fills = s.fills := rfl
@[simp] theorem State.modPd_retire (s : State) (d : Nat) (f : PDieState → PDieState) : (s.modPd d f).retire = s.retire := rfl
@[simp] theorem State.modPd_banks (s : State) (d : Nat) (f : PDieState → PDieState) : (s.modPd d f).banks = s.banks := rfl
@[simp] theorem State.modPd_hstFill (s : State) (d : Nat) (f : PDieState → PDieState) : (s.modPd d f).hstFill = s.hstFill := rfl
@[simp] theorem State.modPd_resync (s : State) (d : Nat) (f : PDieState → PDieState) : (s.modPd d f).resync = s.resync := rfl
@[simp] theorem State.modPd_pulled (s : State) (d : Nat) (f : PDieState → PDieState) : (s.modPd d f).pulled = s.pulled := rfl
@[simp] theorem State.modPd_dpairs (s : State) (d : Nat) (f : PDieState → PDieState) : (s.modPd d f).dpairs = s.dpairs := rfl
@[simp] theorem State.modPd_tap (s : State) (d : Nat) (f : PDieState → PDieState) : (s.modPd d f).tap = s.tap := rfl

/-! ## State.modPool -/

@[simp] theorem State.modPool_now (s : State) (d p : Nat) (f : Pool → Pool) : (s.modPool d p f).now = s.now := rfl
@[simp] theorem State.modPool_clk (s : State) (d p : Nat) (f : Pool → Pool) : (s.modPool d p f).clk = s.clk := rfl
@[simp] theorem State.modPool_tbNum (s : State) (d p : Nat) (f : Pool → Pool) : (s.modPool d p f).tbNum = s.tbNum := rfl
@[simp] theorem State.modPool_tbAt (s : State) (d p : Nat) (f : Pool → Pool) : (s.modPool d p f).tbAt = s.tbAt := rfl
@[simp] theorem State.modPool_tbPast (s : State) (d p : Nat) (f : Pool → Pool) : (s.modPool d p f).tbPast = s.tbPast := rfl
@[simp] theorem State.modPool_draw (s : State) (d p : Nat) (f : Pool → Pool) : (s.modPool d p f).draw = s.draw := rfl
@[simp] theorem State.modPool_pending (s : State) (d p : Nat) (f : Pool → Pool) : (s.modPool d p f).pending = s.pending := rfl
@[simp] theorem State.modPool_out (s : State) (d p : Nat) (f : Pool → Pool) : (s.modPool d p f).out = s.out := rfl
@[simp] theorem State.modPool_regs (s : State) (d p : Nat) (f : Pool → Pool) : (s.modPool d p f).regs = s.regs := rfl
@[simp] theorem State.modPool_hw (s : State) (d p : Nat) (f : Pool → Pool) : (s.modPool d p f).hw = s.hw := rfl
@[simp] theorem State.modPool_arrived (s : State) (d p : Nat) (f : Pool → Pool) : (s.modPool d p f).arrived = s.arrived := rfl
@[simp] theorem State.modPool_act (s : State) (d p : Nat) (f : Pool → Pool) : (s.modPool d p f).act = s.act := rfl
@[simp] theorem State.modPool_old (s : State) (d p : Nat) (f : Pool → Pool) : (s.modPool d p f).old = s.old := rfl
@[simp] theorem State.modPool_thr (s : State) (d p : Nat) (f : Pool → Pool) : (s.modPool d p f).thr = s.thr := rfl
@[simp] theorem State.modPool_clu (s : State) (d p : Nat) (f : Pool → Pool) : (s.modPool d p f).clu = s.clu := rfl
@[simp] theorem State.modPool_locks (s : State) (d p : Nat) (f : Pool → Pool) : (s.modPool d p f).locks = s.locks := rfl
@[simp] theorem State.modPool_chans (s : State) (d p : Nat) (f : Pool → Pool) : (s.modPool d p f).chans = s.chans := rfl
@[simp] theorem State.modPool_cops (s : State) (d p : Nat) (f : Pool → Pool) : (s.modPool d p f).cops = s.cops := rfl
@[simp] theorem State.modPool_lines (s : State) (d p : Nat) (f : Pool → Pool) : (s.modPool d p f).lines = s.lines := rfl
@[simp] theorem State.modPool_spm (s : State) (d p : Nat) (f : Pool → Pool) : (s.modPool d p f).spm = s.spm := rfl
@[simp] theorem State.modPool_spmBad (s : State) (d p : Nat) (f : Pool → Pool) : (s.modPool d p f).spmBad = s.spmBad := rfl
@[simp] theorem State.modPool_cmem (s : State) (d p : Nat) (f : Pool → Pool) : (s.modPool d p f).cmem = s.cmem := rfl
@[simp] theorem State.modPool_dram (s : State) (d p : Nat) (f : Pool → Pool) : (s.modPool d p f).dram = s.dram := rfl
@[simp] theorem State.modPool_linkErr (s : State) (d p : Nat) (f : Pool → Pool) : (s.modPool d p f).linkErr = s.linkErr := rfl
@[simp] theorem State.modPool_trackEnd (s : State) (d p : Nat) (f : Pool → Pool) : (s.modPool d p f).trackEnd = s.trackEnd := rfl
@[simp] theorem State.modPool_fmgq (s : State) (d p : Nat) (f : Pool → Pool) : (s.modPool d p f).fmgq = s.fmgq := rfl
@[simp] theorem State.modPool_flights (s : State) (d p : Nat) (f : Pool → Pool) : (s.modPool d p f).flights = s.flights := rfl
@[simp] theorem State.modPool_tcbs (s : State) (d p : Nat) (f : Pool → Pool) : (s.modPool d p f).tcbs = s.tcbs := rfl
@[simp] theorem State.modPool_tellers (s : State) (d p : Nat) (f : Pool → Pool) : (s.modPool d p f).tellers = s.tellers := rfl
@[simp] theorem State.modPool_events (s : State) (d p : Nat) (f : Pool → Pool) : (s.modPool d p f).events = s.events := rfl
@[simp] theorem State.modPool_pol (s : State) (d p : Nat) (f : Pool → Pool) : (s.modPool d p f).pol = s.pol := rfl
@[simp] theorem State.modPool_polBad (s : State) (d p : Nat) (f : Pool → Pool) : (s.modPool d p f).polBad = s.polBad := rfl
@[simp] theorem State.modPool_polWas (s : State) (d p : Nat) (f : Pool → Pool) : (s.modPool d p f).polWas = s.polWas := rfl
@[simp] theorem State.modPool_polCnt (s : State) (d p : Nat) (f : Pool → Pool) : (s.modPool d p f).polCnt = s.polCnt := rfl
@[simp] theorem State.modPool_cntAdds (s : State) (d p : Nat) (f : Pool → Pool) : (s.modPool d p f).cntAdds = s.cntAdds := rfl
@[simp] theorem State.modPool_gsa (s : State) (d p : Nat) (f : Pool → Pool) : (s.modPool d p f).gsa = s.gsa := rfl
@[simp] theorem State.modPool_prof (s : State) (d p : Nat) (f : Pool → Pool) : (s.modPool d p f).prof = s.prof := rfl
@[simp] theorem State.modPool_kek (s : State) (d p : Nat) (f : Pool → Pool) : (s.modPool d p f).kek = s.kek := rfl
@[simp] theorem State.modPool_vault (s : State) (d p : Nat) (f : Pool → Pool) : (s.modPool d p f).vault = s.vault := rfl
@[simp] theorem State.modPool_vltBad (s : State) (d p : Nat) (f : Pool → Pool) : (s.modPool d p f).vltBad = s.vltBad := rfl
@[simp] theorem State.modPool_rngAt (s : State) (d p : Nat) (f : Pool → Pool) : (s.modPool d p f).rngAt = s.rngAt := rfl
@[simp] theorem State.modPool_pdies (s : State) (d p : Nat) (f : Pool → Pool) : (s.modPool d p f).pdies = s.pdies := rfl
@[simp] theorem State.modPool_ft (s : State) (d p : Nat) (f : Pool → Pool) : (s.modPool d p f).ft = s.ft := rfl
@[simp] theorem State.modPool_ftBad (s : State) (d p : Nat) (f : Pool → Pool) : (s.modPool d p f).ftBad = s.ftBad := rfl
@[simp] theorem State.modPool_ftWas (s : State) (d p : Nat) (f : Pool → Pool) : (s.modPool d p f).ftWas = s.ftWas := rfl
@[simp] theorem State.modPool_ftHit (s : State) (d p : Nat) (f : Pool → Pool) : (s.modPool d p f).ftHit = s.ftHit := rfl
@[simp] theorem State.modPool_sat (s : State) (d p : Nat) (f : Pool → Pool) : (s.modPool d p f).sat = s.sat := rfl
@[simp] theorem State.modPool_satWas (s : State) (d p : Nat) (f : Pool → Pool) : (s.modPool d p f).satWas = s.satWas := rfl
@[simp] theorem State.modPool_vltWas (s : State) (d p : Nat) (f : Pool → Pool) : (s.modPool d p f).vltWas = s.vltWas := rfl
@[simp] theorem State.modPool_vltGone (s : State) (d p : Nat) (f : Pool → Pool) : (s.modPool d p f).vltGone = s.vltGone := rfl
@[simp] theorem State.modPool_pktMem (s : State) (d p : Nat) (f : Pool → Pool) : (s.modPool d p f).pktMem = s.pktMem := rfl
@[simp] theorem State.modPool_bufs (s : State) (d p : Nat) (f : Pool → Pool) : (s.modPool d p f).bufs = s.bufs := rfl
@[simp] theorem State.modPool_bufBad (s : State) (d p : Nat) (f : Pool → Pool) : (s.modPool d p f).bufBad = s.bufBad := rfl
@[simp] theorem State.modPool_pools (s : State) (d p : Nat) (f : Pool → Pool) : (s.modPool d p f).pools = tUpd (fun _ => Pool.empty) s.pools (d * 64 + p) f := rfl
@[simp] theorem State.modPool_lvlWas (s : State) (d p : Nat) (f : Pool → Pool) : (s.modPool d p f).lvlWas = s.lvlWas := rfl
@[simp] theorem State.modPool_used (s : State) (d p : Nat) (f : Pool → Pool) : (s.modPool d p f).used = s.used := rfl
@[simp] theorem State.modPool_queues (s : State) (d p : Nat) (f : Pool → Pool) : (s.modPool d p f).queues = s.queues := rfl
@[simp] theorem State.modPool_shapers (s : State) (d p : Nat) (f : Pool → Pool) : (s.modPool d p f).shapers = s.shapers := rfl
@[simp] theorem State.modPool_policers (s : State) (d p : Nat) (f : Pool → Pool) : (s.modPool d p f).policers = s.policers := rfl
@[simp] theorem State.modPool_punters (s : State) (d p : Nat) (f : Pool → Pool) : (s.modPool d p f).punters = s.punters := rfl
@[simp] theorem State.modPool_tports (s : State) (d p : Nat) (f : Pool → Pool) : (s.modPool d p f).tports = s.tports := rfl
@[simp] theorem State.modPool_tpl (s : State) (d p : Nat) (f : Pool → Pool) : (s.modPool d p f).tpl = s.tpl := rfl
@[simp] theorem State.modPool_punts (s : State) (d p : Nat) (f : Pool → Pool) : (s.modPool d p f).punts = s.punts := rfl
@[simp] theorem State.modPool_pauses (s : State) (d p : Nat) (f : Pool → Pool) : (s.modPool d p f).pauses = s.pauses := rfl
@[simp] theorem State.modPool_xoffAt (s : State) (d p : Nat) (f : Pool → Pool) : (s.modPool d p f).xoffAt = s.xoffAt := rfl
@[simp] theorem State.modPool_links (s : State) (d p : Nat) (f : Pool → Pool) : (s.modPool d p f).links = s.links := rfl
@[simp] theorem State.modPool_portOff (s : State) (d p : Nat) (f : Pool → Pool) : (s.modPool d p f).portOff = s.portOff := rfl
@[simp] theorem State.modPool_wlocks (s : State) (d p : Nat) (f : Pool → Pool) : (s.modPool d p f).wlocks = s.wlocks := rfl
@[simp] theorem State.modPool_doms (s : State) (d p : Nat) (f : Pool → Pool) : (s.modPool d p f).doms = s.doms := rfl
@[simp] theorem State.modPool_gen (s : State) (d p : Nat) (f : Pool → Pool) : (s.modPool d p f).gen = s.gen := rfl
@[simp] theorem State.modPool_oldLive (s : State) (d p : Nat) (f : Pool → Pool) : (s.modPool d p f).oldLive = s.oldLive := rfl
@[simp] theorem State.modPool_clearAt (s : State) (d p : Nat) (f : Pool → Pool) : (s.modPool d p f).clearAt = s.clearAt := rfl
@[simp] theorem State.modPool_halted (s : State) (d p : Nat) (f : Pool → Pool) : (s.modPool d p f).halted = s.halted := rfl
@[simp] theorem State.modPool_perst (s : State) (d p : Nat) (f : Pool → Pool) : (s.modPool d p f).perst = s.perst := rfl
@[simp] theorem State.modPool_host (s : State) (d p : Nat) (f : Pool → Pool) : (s.modPool d p f).host = s.host := rfl
@[simp] theorem State.modPool_repairs (s : State) (d p : Nat) (f : Pool → Pool) : (s.modPool d p f).repairs = s.repairs := rfl
@[simp] theorem State.modPool_dbg (s : State) (d p : Nat) (f : Pool → Pool) : (s.modPool d p f).dbg = s.dbg := rfl
@[simp] theorem State.modPool_capWr (s : State) (d p : Nat) (f : Pool → Pool) : (s.modPool d p f).capWr = s.capWr := rfl
@[simp] theorem State.modPool_ctxWr (s : State) (d p : Nat) (f : Pool → Pool) : (s.modPool d p f).ctxWr = s.ctxWr := rfl
@[simp] theorem State.modPool_epc (s : State) (d p : Nat) (f : Pool → Pool) : (s.modPool d p f).epc = s.epc := rfl
@[simp] theorem State.modPool_fmg (s : State) (d p : Nat) (f : Pool → Pool) : (s.modPool d p f).fmg = s.fmg := rfl
@[simp] theorem State.modPool_sec (s : State) (d p : Nat) (f : Pool → Pool) : (s.modPool d p f).sec = s.sec := rfl
@[simp] theorem State.modPool_pwr (s : State) (d p : Nat) (f : Pool → Pool) : (s.modPool d p f).pwr = s.pwr := rfl
@[simp] theorem State.modPool_flash (s : State) (d p : Nat) (f : Pool → Pool) : (s.modPool d p f).flash = s.flash := rfl
@[simp] theorem State.modPool_tally (s : State) (d p : Nat) (f : Pool → Pool) : (s.modPool d p f).tally = s.tally := rfl
@[simp] theorem State.modPool_tallyHi (s : State) (d p : Nat) (f : Pool → Pool) : (s.modPool d p f).tallyHi = s.tallyHi := rfl
@[simp] theorem State.modPool_tallyAt (s : State) (d p : Nat) (f : Pool → Pool) : (s.modPool d p f).tallyAt = s.tallyAt := rfl
@[simp] theorem State.modPool_mbxJob (s : State) (d p : Nat) (f : Pool → Pool) : (s.modPool d p f).mbxJob = s.mbxJob := rfl
@[simp] theorem State.modPool_fills (s : State) (d p : Nat) (f : Pool → Pool) : (s.modPool d p f).fills = s.fills := rfl
@[simp] theorem State.modPool_retire (s : State) (d p : Nat) (f : Pool → Pool) : (s.modPool d p f).retire = s.retire := rfl
@[simp] theorem State.modPool_banks (s : State) (d p : Nat) (f : Pool → Pool) : (s.modPool d p f).banks = s.banks := rfl
@[simp] theorem State.modPool_hstFill (s : State) (d p : Nat) (f : Pool → Pool) : (s.modPool d p f).hstFill = s.hstFill := rfl
@[simp] theorem State.modPool_resync (s : State) (d p : Nat) (f : Pool → Pool) : (s.modPool d p f).resync = s.resync := rfl
@[simp] theorem State.modPool_pulled (s : State) (d p : Nat) (f : Pool → Pool) : (s.modPool d p f).pulled = s.pulled := rfl
@[simp] theorem State.modPool_dpairs (s : State) (d p : Nat) (f : Pool → Pool) : (s.modPool d p f).dpairs = s.dpairs := rfl
@[simp] theorem State.modPool_tap (s : State) (d p : Nat) (f : Pool → Pool) : (s.modPool d p f).tap = s.tap := rfl

/-! ## State.putBuf -/

@[simp] theorem State.putBuf_now (s : State) (d c : Nat) (b : Buf) : (s.putBuf d c b).now = s.now := rfl
@[simp] theorem State.putBuf_clk (s : State) (d c : Nat) (b : Buf) : (s.putBuf d c b).clk = s.clk := rfl
@[simp] theorem State.putBuf_tbNum (s : State) (d c : Nat) (b : Buf) : (s.putBuf d c b).tbNum = s.tbNum := rfl
@[simp] theorem State.putBuf_tbAt (s : State) (d c : Nat) (b : Buf) : (s.putBuf d c b).tbAt = s.tbAt := rfl
@[simp] theorem State.putBuf_tbPast (s : State) (d c : Nat) (b : Buf) : (s.putBuf d c b).tbPast = s.tbPast := rfl
@[simp] theorem State.putBuf_draw (s : State) (d c : Nat) (b : Buf) : (s.putBuf d c b).draw = s.draw := rfl
@[simp] theorem State.putBuf_pending (s : State) (d c : Nat) (b : Buf) : (s.putBuf d c b).pending = s.pending := rfl
@[simp] theorem State.putBuf_out (s : State) (d c : Nat) (b : Buf) : (s.putBuf d c b).out = s.out := rfl
@[simp] theorem State.putBuf_regs (s : State) (d c : Nat) (b : Buf) : (s.putBuf d c b).regs = s.regs := rfl
@[simp] theorem State.putBuf_hw (s : State) (d c : Nat) (b : Buf) : (s.putBuf d c b).hw = s.hw := rfl
@[simp] theorem State.putBuf_arrived (s : State) (d c : Nat) (b : Buf) : (s.putBuf d c b).arrived = s.arrived := rfl
@[simp] theorem State.putBuf_act (s : State) (d c : Nat) (b : Buf) : (s.putBuf d c b).act = s.act := rfl
@[simp] theorem State.putBuf_old (s : State) (d c : Nat) (b : Buf) : (s.putBuf d c b).old = s.old := rfl
@[simp] theorem State.putBuf_thr (s : State) (d c : Nat) (b : Buf) : (s.putBuf d c b).thr = s.thr := rfl
@[simp] theorem State.putBuf_clu (s : State) (d c : Nat) (b : Buf) : (s.putBuf d c b).clu = s.clu := rfl
@[simp] theorem State.putBuf_locks (s : State) (d c : Nat) (b : Buf) : (s.putBuf d c b).locks = s.locks := rfl
@[simp] theorem State.putBuf_chans (s : State) (d c : Nat) (b : Buf) : (s.putBuf d c b).chans = s.chans := rfl
@[simp] theorem State.putBuf_cops (s : State) (d c : Nat) (b : Buf) : (s.putBuf d c b).cops = s.cops := rfl
@[simp] theorem State.putBuf_lines (s : State) (d c : Nat) (b : Buf) : (s.putBuf d c b).lines = s.lines := rfl
@[simp] theorem State.putBuf_spm (s : State) (d c : Nat) (b : Buf) : (s.putBuf d c b).spm = s.spm := rfl
@[simp] theorem State.putBuf_spmBad (s : State) (d c : Nat) (b : Buf) : (s.putBuf d c b).spmBad = s.spmBad := rfl
@[simp] theorem State.putBuf_cmem (s : State) (d c : Nat) (b : Buf) : (s.putBuf d c b).cmem = s.cmem := rfl
@[simp] theorem State.putBuf_dram (s : State) (d c : Nat) (b : Buf) : (s.putBuf d c b).dram = s.dram := rfl
@[simp] theorem State.putBuf_linkErr (s : State) (d c : Nat) (b : Buf) : (s.putBuf d c b).linkErr = s.linkErr := rfl
@[simp] theorem State.putBuf_trackEnd (s : State) (d c : Nat) (b : Buf) : (s.putBuf d c b).trackEnd = s.trackEnd := rfl
@[simp] theorem State.putBuf_fmgq (s : State) (d c : Nat) (b : Buf) : (s.putBuf d c b).fmgq = s.fmgq := rfl
@[simp] theorem State.putBuf_flights (s : State) (d c : Nat) (b : Buf) : (s.putBuf d c b).flights = s.flights := rfl
@[simp] theorem State.putBuf_tcbs (s : State) (d c : Nat) (b : Buf) : (s.putBuf d c b).tcbs = s.tcbs := rfl
@[simp] theorem State.putBuf_tellers (s : State) (d c : Nat) (b : Buf) : (s.putBuf d c b).tellers = s.tellers := rfl
@[simp] theorem State.putBuf_events (s : State) (d c : Nat) (b : Buf) : (s.putBuf d c b).events = s.events := rfl
@[simp] theorem State.putBuf_pol (s : State) (d c : Nat) (b : Buf) : (s.putBuf d c b).pol = s.pol := rfl
@[simp] theorem State.putBuf_polBad (s : State) (d c : Nat) (b : Buf) : (s.putBuf d c b).polBad = s.polBad := rfl
@[simp] theorem State.putBuf_polWas (s : State) (d c : Nat) (b : Buf) : (s.putBuf d c b).polWas = s.polWas := rfl
@[simp] theorem State.putBuf_polCnt (s : State) (d c : Nat) (b : Buf) : (s.putBuf d c b).polCnt = s.polCnt := rfl
@[simp] theorem State.putBuf_cntAdds (s : State) (d c : Nat) (b : Buf) : (s.putBuf d c b).cntAdds = s.cntAdds := rfl
@[simp] theorem State.putBuf_gsa (s : State) (d c : Nat) (b : Buf) : (s.putBuf d c b).gsa = s.gsa := rfl
@[simp] theorem State.putBuf_prof (s : State) (d c : Nat) (b : Buf) : (s.putBuf d c b).prof = s.prof := rfl
@[simp] theorem State.putBuf_kek (s : State) (d c : Nat) (b : Buf) : (s.putBuf d c b).kek = s.kek := rfl
@[simp] theorem State.putBuf_vault (s : State) (d c : Nat) (b : Buf) : (s.putBuf d c b).vault = s.vault := rfl
@[simp] theorem State.putBuf_vltBad (s : State) (d c : Nat) (b : Buf) : (s.putBuf d c b).vltBad = s.vltBad := rfl
@[simp] theorem State.putBuf_rngAt (s : State) (d c : Nat) (b : Buf) : (s.putBuf d c b).rngAt = s.rngAt := rfl
@[simp] theorem State.putBuf_pdies (s : State) (d c : Nat) (b : Buf) : (s.putBuf d c b).pdies = s.pdies := rfl
@[simp] theorem State.putBuf_ft (s : State) (d c : Nat) (b : Buf) : (s.putBuf d c b).ft = s.ft := rfl
@[simp] theorem State.putBuf_ftBad (s : State) (d c : Nat) (b : Buf) : (s.putBuf d c b).ftBad = s.ftBad := rfl
@[simp] theorem State.putBuf_ftWas (s : State) (d c : Nat) (b : Buf) : (s.putBuf d c b).ftWas = s.ftWas := rfl
@[simp] theorem State.putBuf_ftHit (s : State) (d c : Nat) (b : Buf) : (s.putBuf d c b).ftHit = s.ftHit := rfl
@[simp] theorem State.putBuf_sat (s : State) (d c : Nat) (b : Buf) : (s.putBuf d c b).sat = s.sat := rfl
@[simp] theorem State.putBuf_satWas (s : State) (d c : Nat) (b : Buf) : (s.putBuf d c b).satWas = s.satWas := rfl
@[simp] theorem State.putBuf_vltWas (s : State) (d c : Nat) (b : Buf) : (s.putBuf d c b).vltWas = s.vltWas := rfl
@[simp] theorem State.putBuf_vltGone (s : State) (d c : Nat) (b : Buf) : (s.putBuf d c b).vltGone = s.vltGone := rfl
@[simp] theorem State.putBuf_pktMem (s : State) (d c : Nat) (b : Buf) : (s.putBuf d c b).pktMem = s.pktMem := rfl
@[simp] theorem State.putBuf_bufs (s : State) (d c : Nat) (b : Buf) : (s.putBuf d c b).bufs = tPut s.bufs (bufKey d c) b := rfl
@[simp] theorem State.putBuf_bufBad (s : State) (d c : Nat) (b : Buf) : (s.putBuf d c b).bufBad = tDel s.bufBad (bufKey d c) := rfl
@[simp] theorem State.putBuf_pools (s : State) (d c : Nat) (b : Buf) : (s.putBuf d c b).pools = s.pools := rfl
@[simp] theorem State.putBuf_lvlWas (s : State) (d c : Nat) (b : Buf) : (s.putBuf d c b).lvlWas = s.lvlWas := rfl
@[simp] theorem State.putBuf_used (s : State) (d c : Nat) (b : Buf) : (s.putBuf d c b).used = s.used := rfl
@[simp] theorem State.putBuf_queues (s : State) (d c : Nat) (b : Buf) : (s.putBuf d c b).queues = s.queues := rfl
@[simp] theorem State.putBuf_shapers (s : State) (d c : Nat) (b : Buf) : (s.putBuf d c b).shapers = s.shapers := rfl
@[simp] theorem State.putBuf_policers (s : State) (d c : Nat) (b : Buf) : (s.putBuf d c b).policers = s.policers := rfl
@[simp] theorem State.putBuf_punters (s : State) (d c : Nat) (b : Buf) : (s.putBuf d c b).punters = s.punters := rfl
@[simp] theorem State.putBuf_tports (s : State) (d c : Nat) (b : Buf) : (s.putBuf d c b).tports = s.tports := rfl
@[simp] theorem State.putBuf_tpl (s : State) (d c : Nat) (b : Buf) : (s.putBuf d c b).tpl = s.tpl := rfl
@[simp] theorem State.putBuf_punts (s : State) (d c : Nat) (b : Buf) : (s.putBuf d c b).punts = s.punts := rfl
@[simp] theorem State.putBuf_pauses (s : State) (d c : Nat) (b : Buf) : (s.putBuf d c b).pauses = s.pauses := rfl
@[simp] theorem State.putBuf_xoffAt (s : State) (d c : Nat) (b : Buf) : (s.putBuf d c b).xoffAt = s.xoffAt := rfl
@[simp] theorem State.putBuf_links (s : State) (d c : Nat) (b : Buf) : (s.putBuf d c b).links = s.links := rfl
@[simp] theorem State.putBuf_portOff (s : State) (d c : Nat) (b : Buf) : (s.putBuf d c b).portOff = s.portOff := rfl
@[simp] theorem State.putBuf_wlocks (s : State) (d c : Nat) (b : Buf) : (s.putBuf d c b).wlocks = s.wlocks := rfl
@[simp] theorem State.putBuf_doms (s : State) (d c : Nat) (b : Buf) : (s.putBuf d c b).doms = s.doms := rfl
@[simp] theorem State.putBuf_gen (s : State) (d c : Nat) (b : Buf) : (s.putBuf d c b).gen = s.gen := rfl
@[simp] theorem State.putBuf_oldLive (s : State) (d c : Nat) (b : Buf) : (s.putBuf d c b).oldLive = s.oldLive := rfl
@[simp] theorem State.putBuf_clearAt (s : State) (d c : Nat) (b : Buf) : (s.putBuf d c b).clearAt = s.clearAt := rfl
@[simp] theorem State.putBuf_halted (s : State) (d c : Nat) (b : Buf) : (s.putBuf d c b).halted = s.halted := rfl
@[simp] theorem State.putBuf_perst (s : State) (d c : Nat) (b : Buf) : (s.putBuf d c b).perst = s.perst := rfl
@[simp] theorem State.putBuf_host (s : State) (d c : Nat) (b : Buf) : (s.putBuf d c b).host = s.host := rfl
@[simp] theorem State.putBuf_repairs (s : State) (d c : Nat) (b : Buf) : (s.putBuf d c b).repairs = s.repairs := rfl
@[simp] theorem State.putBuf_dbg (s : State) (d c : Nat) (b : Buf) : (s.putBuf d c b).dbg = s.dbg := rfl
@[simp] theorem State.putBuf_capWr (s : State) (d c : Nat) (b : Buf) : (s.putBuf d c b).capWr = s.capWr := rfl
@[simp] theorem State.putBuf_ctxWr (s : State) (d c : Nat) (b : Buf) : (s.putBuf d c b).ctxWr = s.ctxWr := rfl
@[simp] theorem State.putBuf_epc (s : State) (d c : Nat) (b : Buf) : (s.putBuf d c b).epc = s.epc := rfl
@[simp] theorem State.putBuf_fmg (s : State) (d c : Nat) (b : Buf) : (s.putBuf d c b).fmg = s.fmg := rfl
@[simp] theorem State.putBuf_sec (s : State) (d c : Nat) (b : Buf) : (s.putBuf d c b).sec = s.sec := rfl
@[simp] theorem State.putBuf_pwr (s : State) (d c : Nat) (b : Buf) : (s.putBuf d c b).pwr = s.pwr := rfl
@[simp] theorem State.putBuf_flash (s : State) (d c : Nat) (b : Buf) : (s.putBuf d c b).flash = s.flash := rfl
@[simp] theorem State.putBuf_tally (s : State) (d c : Nat) (b : Buf) : (s.putBuf d c b).tally = s.tally := rfl
@[simp] theorem State.putBuf_tallyHi (s : State) (d c : Nat) (b : Buf) : (s.putBuf d c b).tallyHi = s.tallyHi := rfl
@[simp] theorem State.putBuf_tallyAt (s : State) (d c : Nat) (b : Buf) : (s.putBuf d c b).tallyAt = s.tallyAt := rfl
@[simp] theorem State.putBuf_mbxJob (s : State) (d c : Nat) (b : Buf) : (s.putBuf d c b).mbxJob = s.mbxJob := rfl
@[simp] theorem State.putBuf_fills (s : State) (d c : Nat) (b : Buf) : (s.putBuf d c b).fills = s.fills := rfl
@[simp] theorem State.putBuf_retire (s : State) (d c : Nat) (b : Buf) : (s.putBuf d c b).retire = s.retire := rfl
@[simp] theorem State.putBuf_banks (s : State) (d c : Nat) (b : Buf) : (s.putBuf d c b).banks = s.banks := rfl
@[simp] theorem State.putBuf_hstFill (s : State) (d c : Nat) (b : Buf) : (s.putBuf d c b).hstFill = s.hstFill := rfl
@[simp] theorem State.putBuf_resync (s : State) (d c : Nat) (b : Buf) : (s.putBuf d c b).resync = s.resync := rfl
@[simp] theorem State.putBuf_pulled (s : State) (d c : Nat) (b : Buf) : (s.putBuf d c b).pulled = s.pulled := rfl
@[simp] theorem State.putBuf_dpairs (s : State) (d c : Nat) (b : Buf) : (s.putBuf d c b).dpairs = s.dpairs := rfl
@[simp] theorem State.putBuf_tap (s : State) (d c : Nat) (b : Buf) : (s.putBuf d c b).tap = s.tap := rfl

/-! ## State.setClu -/

@[simp] theorem State.setClu_now (s : State) (c : Nat) (f : Cluster → Cluster) : (s.setClu c f).now = s.now := rfl
@[simp] theorem State.setClu_clk (s : State) (c : Nat) (f : Cluster → Cluster) : (s.setClu c f).clk = s.clk := rfl
@[simp] theorem State.setClu_tbNum (s : State) (c : Nat) (f : Cluster → Cluster) : (s.setClu c f).tbNum = s.tbNum := rfl
@[simp] theorem State.setClu_tbAt (s : State) (c : Nat) (f : Cluster → Cluster) : (s.setClu c f).tbAt = s.tbAt := rfl
@[simp] theorem State.setClu_tbPast (s : State) (c : Nat) (f : Cluster → Cluster) : (s.setClu c f).tbPast = s.tbPast := rfl
@[simp] theorem State.setClu_draw (s : State) (c : Nat) (f : Cluster → Cluster) : (s.setClu c f).draw = s.draw := rfl
@[simp] theorem State.setClu_pending (s : State) (c : Nat) (f : Cluster → Cluster) : (s.setClu c f).pending = s.pending := rfl
@[simp] theorem State.setClu_out (s : State) (c : Nat) (f : Cluster → Cluster) : (s.setClu c f).out = s.out := rfl
@[simp] theorem State.setClu_regs (s : State) (c : Nat) (f : Cluster → Cluster) : (s.setClu c f).regs = s.regs := rfl
@[simp] theorem State.setClu_hw (s : State) (c : Nat) (f : Cluster → Cluster) : (s.setClu c f).hw = s.hw := rfl
@[simp] theorem State.setClu_arrived (s : State) (c : Nat) (f : Cluster → Cluster) : (s.setClu c f).arrived = s.arrived := rfl
@[simp] theorem State.setClu_act (s : State) (c : Nat) (f : Cluster → Cluster) : (s.setClu c f).act = s.act := rfl
@[simp] theorem State.setClu_old (s : State) (c : Nat) (f : Cluster → Cluster) : (s.setClu c f).old = s.old := rfl
@[simp] theorem State.setClu_thr (s : State) (c : Nat) (f : Cluster → Cluster) : (s.setClu c f).thr = s.thr := rfl
@[simp] theorem State.setClu_clu (s : State) (c : Nat) (f : Cluster → Cluster) : (s.setClu c f).clu = tUpd (fun _ => Cluster.fresh) s.clu c f := rfl
@[simp] theorem State.setClu_locks (s : State) (c : Nat) (f : Cluster → Cluster) : (s.setClu c f).locks = s.locks := rfl
@[simp] theorem State.setClu_chans (s : State) (c : Nat) (f : Cluster → Cluster) : (s.setClu c f).chans = s.chans := rfl
@[simp] theorem State.setClu_cops (s : State) (c : Nat) (f : Cluster → Cluster) : (s.setClu c f).cops = s.cops := rfl
@[simp] theorem State.setClu_lines (s : State) (c : Nat) (f : Cluster → Cluster) : (s.setClu c f).lines = s.lines := rfl
@[simp] theorem State.setClu_spm (s : State) (c : Nat) (f : Cluster → Cluster) : (s.setClu c f).spm = s.spm := rfl
@[simp] theorem State.setClu_spmBad (s : State) (c : Nat) (f : Cluster → Cluster) : (s.setClu c f).spmBad = s.spmBad := rfl
@[simp] theorem State.setClu_cmem (s : State) (c : Nat) (f : Cluster → Cluster) : (s.setClu c f).cmem = s.cmem := rfl
@[simp] theorem State.setClu_dram (s : State) (c : Nat) (f : Cluster → Cluster) : (s.setClu c f).dram = s.dram := rfl
@[simp] theorem State.setClu_linkErr (s : State) (c : Nat) (f : Cluster → Cluster) : (s.setClu c f).linkErr = s.linkErr := rfl
@[simp] theorem State.setClu_trackEnd (s : State) (c : Nat) (f : Cluster → Cluster) : (s.setClu c f).trackEnd = s.trackEnd := rfl
@[simp] theorem State.setClu_fmgq (s : State) (c : Nat) (f : Cluster → Cluster) : (s.setClu c f).fmgq = s.fmgq := rfl
@[simp] theorem State.setClu_flights (s : State) (c : Nat) (f : Cluster → Cluster) : (s.setClu c f).flights = s.flights := rfl
@[simp] theorem State.setClu_tcbs (s : State) (c : Nat) (f : Cluster → Cluster) : (s.setClu c f).tcbs = s.tcbs := rfl
@[simp] theorem State.setClu_tellers (s : State) (c : Nat) (f : Cluster → Cluster) : (s.setClu c f).tellers = s.tellers := rfl
@[simp] theorem State.setClu_events (s : State) (c : Nat) (f : Cluster → Cluster) : (s.setClu c f).events = s.events := rfl
@[simp] theorem State.setClu_pol (s : State) (c : Nat) (f : Cluster → Cluster) : (s.setClu c f).pol = s.pol := rfl
@[simp] theorem State.setClu_polBad (s : State) (c : Nat) (f : Cluster → Cluster) : (s.setClu c f).polBad = s.polBad := rfl
@[simp] theorem State.setClu_polWas (s : State) (c : Nat) (f : Cluster → Cluster) : (s.setClu c f).polWas = s.polWas := rfl
@[simp] theorem State.setClu_polCnt (s : State) (c : Nat) (f : Cluster → Cluster) : (s.setClu c f).polCnt = s.polCnt := rfl
@[simp] theorem State.setClu_cntAdds (s : State) (c : Nat) (f : Cluster → Cluster) : (s.setClu c f).cntAdds = s.cntAdds := rfl
@[simp] theorem State.setClu_gsa (s : State) (c : Nat) (f : Cluster → Cluster) : (s.setClu c f).gsa = s.gsa := rfl
@[simp] theorem State.setClu_prof (s : State) (c : Nat) (f : Cluster → Cluster) : (s.setClu c f).prof = s.prof := rfl
@[simp] theorem State.setClu_kek (s : State) (c : Nat) (f : Cluster → Cluster) : (s.setClu c f).kek = s.kek := rfl
@[simp] theorem State.setClu_vault (s : State) (c : Nat) (f : Cluster → Cluster) : (s.setClu c f).vault = s.vault := rfl
@[simp] theorem State.setClu_vltBad (s : State) (c : Nat) (f : Cluster → Cluster) : (s.setClu c f).vltBad = s.vltBad := rfl
@[simp] theorem State.setClu_rngAt (s : State) (c : Nat) (f : Cluster → Cluster) : (s.setClu c f).rngAt = s.rngAt := rfl
@[simp] theorem State.setClu_pdies (s : State) (c : Nat) (f : Cluster → Cluster) : (s.setClu c f).pdies = s.pdies := rfl
@[simp] theorem State.setClu_ft (s : State) (c : Nat) (f : Cluster → Cluster) : (s.setClu c f).ft = s.ft := rfl
@[simp] theorem State.setClu_ftBad (s : State) (c : Nat) (f : Cluster → Cluster) : (s.setClu c f).ftBad = s.ftBad := rfl
@[simp] theorem State.setClu_ftWas (s : State) (c : Nat) (f : Cluster → Cluster) : (s.setClu c f).ftWas = s.ftWas := rfl
@[simp] theorem State.setClu_ftHit (s : State) (c : Nat) (f : Cluster → Cluster) : (s.setClu c f).ftHit = s.ftHit := rfl
@[simp] theorem State.setClu_sat (s : State) (c : Nat) (f : Cluster → Cluster) : (s.setClu c f).sat = s.sat := rfl
@[simp] theorem State.setClu_satWas (s : State) (c : Nat) (f : Cluster → Cluster) : (s.setClu c f).satWas = s.satWas := rfl
@[simp] theorem State.setClu_vltWas (s : State) (c : Nat) (f : Cluster → Cluster) : (s.setClu c f).vltWas = s.vltWas := rfl
@[simp] theorem State.setClu_vltGone (s : State) (c : Nat) (f : Cluster → Cluster) : (s.setClu c f).vltGone = s.vltGone := rfl
@[simp] theorem State.setClu_pktMem (s : State) (c : Nat) (f : Cluster → Cluster) : (s.setClu c f).pktMem = s.pktMem := rfl
@[simp] theorem State.setClu_bufs (s : State) (c : Nat) (f : Cluster → Cluster) : (s.setClu c f).bufs = s.bufs := rfl
@[simp] theorem State.setClu_bufBad (s : State) (c : Nat) (f : Cluster → Cluster) : (s.setClu c f).bufBad = s.bufBad := rfl
@[simp] theorem State.setClu_pools (s : State) (c : Nat) (f : Cluster → Cluster) : (s.setClu c f).pools = s.pools := rfl
@[simp] theorem State.setClu_lvlWas (s : State) (c : Nat) (f : Cluster → Cluster) : (s.setClu c f).lvlWas = s.lvlWas := rfl
@[simp] theorem State.setClu_used (s : State) (c : Nat) (f : Cluster → Cluster) : (s.setClu c f).used = s.used := rfl
@[simp] theorem State.setClu_queues (s : State) (c : Nat) (f : Cluster → Cluster) : (s.setClu c f).queues = s.queues := rfl
@[simp] theorem State.setClu_shapers (s : State) (c : Nat) (f : Cluster → Cluster) : (s.setClu c f).shapers = s.shapers := rfl
@[simp] theorem State.setClu_policers (s : State) (c : Nat) (f : Cluster → Cluster) : (s.setClu c f).policers = s.policers := rfl
@[simp] theorem State.setClu_punters (s : State) (c : Nat) (f : Cluster → Cluster) : (s.setClu c f).punters = s.punters := rfl
@[simp] theorem State.setClu_tports (s : State) (c : Nat) (f : Cluster → Cluster) : (s.setClu c f).tports = s.tports := rfl
@[simp] theorem State.setClu_tpl (s : State) (c : Nat) (f : Cluster → Cluster) : (s.setClu c f).tpl = s.tpl := rfl
@[simp] theorem State.setClu_punts (s : State) (c : Nat) (f : Cluster → Cluster) : (s.setClu c f).punts = s.punts := rfl
@[simp] theorem State.setClu_pauses (s : State) (c : Nat) (f : Cluster → Cluster) : (s.setClu c f).pauses = s.pauses := rfl
@[simp] theorem State.setClu_xoffAt (s : State) (c : Nat) (f : Cluster → Cluster) : (s.setClu c f).xoffAt = s.xoffAt := rfl
@[simp] theorem State.setClu_links (s : State) (c : Nat) (f : Cluster → Cluster) : (s.setClu c f).links = s.links := rfl
@[simp] theorem State.setClu_portOff (s : State) (c : Nat) (f : Cluster → Cluster) : (s.setClu c f).portOff = s.portOff := rfl
@[simp] theorem State.setClu_wlocks (s : State) (c : Nat) (f : Cluster → Cluster) : (s.setClu c f).wlocks = s.wlocks := rfl
@[simp] theorem State.setClu_doms (s : State) (c : Nat) (f : Cluster → Cluster) : (s.setClu c f).doms = s.doms := rfl
@[simp] theorem State.setClu_gen (s : State) (c : Nat) (f : Cluster → Cluster) : (s.setClu c f).gen = s.gen := rfl
@[simp] theorem State.setClu_oldLive (s : State) (c : Nat) (f : Cluster → Cluster) : (s.setClu c f).oldLive = s.oldLive := rfl
@[simp] theorem State.setClu_clearAt (s : State) (c : Nat) (f : Cluster → Cluster) : (s.setClu c f).clearAt = s.clearAt := rfl
@[simp] theorem State.setClu_halted (s : State) (c : Nat) (f : Cluster → Cluster) : (s.setClu c f).halted = s.halted := rfl
@[simp] theorem State.setClu_perst (s : State) (c : Nat) (f : Cluster → Cluster) : (s.setClu c f).perst = s.perst := rfl
@[simp] theorem State.setClu_host (s : State) (c : Nat) (f : Cluster → Cluster) : (s.setClu c f).host = s.host := rfl
@[simp] theorem State.setClu_repairs (s : State) (c : Nat) (f : Cluster → Cluster) : (s.setClu c f).repairs = s.repairs := rfl
@[simp] theorem State.setClu_dbg (s : State) (c : Nat) (f : Cluster → Cluster) : (s.setClu c f).dbg = s.dbg := rfl
@[simp] theorem State.setClu_capWr (s : State) (c : Nat) (f : Cluster → Cluster) : (s.setClu c f).capWr = s.capWr := rfl
@[simp] theorem State.setClu_ctxWr (s : State) (c : Nat) (f : Cluster → Cluster) : (s.setClu c f).ctxWr = s.ctxWr := rfl
@[simp] theorem State.setClu_epc (s : State) (c : Nat) (f : Cluster → Cluster) : (s.setClu c f).epc = s.epc := rfl
@[simp] theorem State.setClu_fmg (s : State) (c : Nat) (f : Cluster → Cluster) : (s.setClu c f).fmg = s.fmg := rfl
@[simp] theorem State.setClu_sec (s : State) (c : Nat) (f : Cluster → Cluster) : (s.setClu c f).sec = s.sec := rfl
@[simp] theorem State.setClu_pwr (s : State) (c : Nat) (f : Cluster → Cluster) : (s.setClu c f).pwr = s.pwr := rfl
@[simp] theorem State.setClu_flash (s : State) (c : Nat) (f : Cluster → Cluster) : (s.setClu c f).flash = s.flash := rfl
@[simp] theorem State.setClu_tally (s : State) (c : Nat) (f : Cluster → Cluster) : (s.setClu c f).tally = s.tally := rfl
@[simp] theorem State.setClu_tallyHi (s : State) (c : Nat) (f : Cluster → Cluster) : (s.setClu c f).tallyHi = s.tallyHi := rfl
@[simp] theorem State.setClu_tallyAt (s : State) (c : Nat) (f : Cluster → Cluster) : (s.setClu c f).tallyAt = s.tallyAt := rfl
@[simp] theorem State.setClu_mbxJob (s : State) (c : Nat) (f : Cluster → Cluster) : (s.setClu c f).mbxJob = s.mbxJob := rfl
@[simp] theorem State.setClu_fills (s : State) (c : Nat) (f : Cluster → Cluster) : (s.setClu c f).fills = s.fills := rfl
@[simp] theorem State.setClu_retire (s : State) (c : Nat) (f : Cluster → Cluster) : (s.setClu c f).retire = s.retire := rfl
@[simp] theorem State.setClu_banks (s : State) (c : Nat) (f : Cluster → Cluster) : (s.setClu c f).banks = s.banks := rfl
@[simp] theorem State.setClu_hstFill (s : State) (c : Nat) (f : Cluster → Cluster) : (s.setClu c f).hstFill = s.hstFill := rfl
@[simp] theorem State.setClu_resync (s : State) (c : Nat) (f : Cluster → Cluster) : (s.setClu c f).resync = s.resync := rfl
@[simp] theorem State.setClu_pulled (s : State) (c : Nat) (f : Cluster → Cluster) : (s.setClu c f).pulled = s.pulled := rfl
@[simp] theorem State.setClu_dpairs (s : State) (c : Nat) (f : Cluster → Cluster) : (s.setClu c f).dpairs = s.dpairs := rfl
@[simp] theorem State.setClu_tap (s : State) (c : Nat) (f : Cluster → Cluster) : (s.setClu c f).tap = s.tap := rfl

/-! ## State.putTh -/

@[simp] theorem State.putTh_now (s : State) (t : Nat) (x : Thread) : (s.putTh t x).now = s.now := rfl
@[simp] theorem State.putTh_clk (s : State) (t : Nat) (x : Thread) : (s.putTh t x).clk = s.clk := rfl
@[simp] theorem State.putTh_tbNum (s : State) (t : Nat) (x : Thread) : (s.putTh t x).tbNum = s.tbNum := rfl
@[simp] theorem State.putTh_tbAt (s : State) (t : Nat) (x : Thread) : (s.putTh t x).tbAt = s.tbAt := rfl
@[simp] theorem State.putTh_tbPast (s : State) (t : Nat) (x : Thread) : (s.putTh t x).tbPast = s.tbPast := rfl
@[simp] theorem State.putTh_draw (s : State) (t : Nat) (x : Thread) : (s.putTh t x).draw = s.draw := rfl
@[simp] theorem State.putTh_pending (s : State) (t : Nat) (x : Thread) : (s.putTh t x).pending = s.pending := rfl
@[simp] theorem State.putTh_out (s : State) (t : Nat) (x : Thread) : (s.putTh t x).out = s.out := rfl
@[simp] theorem State.putTh_regs (s : State) (t : Nat) (x : Thread) : (s.putTh t x).regs = s.regs := rfl
@[simp] theorem State.putTh_hw (s : State) (t : Nat) (x : Thread) : (s.putTh t x).hw = s.hw := rfl
@[simp] theorem State.putTh_arrived (s : State) (t : Nat) (x : Thread) : (s.putTh t x).arrived = s.arrived := rfl
@[simp] theorem State.putTh_act (s : State) (t : Nat) (x : Thread) : (s.putTh t x).act = s.act := rfl
@[simp] theorem State.putTh_old (s : State) (t : Nat) (x : Thread) : (s.putTh t x).old = s.old := rfl
@[simp] theorem State.putTh_thr (s : State) (t : Nat) (x : Thread) : (s.putTh t x).thr = tSet (fun _ => Thread.fresh) s.thr t x := rfl
@[simp] theorem State.putTh_clu (s : State) (t : Nat) (x : Thread) : (s.putTh t x).clu = s.clu := rfl
@[simp] theorem State.putTh_locks (s : State) (t : Nat) (x : Thread) : (s.putTh t x).locks = s.locks := rfl
@[simp] theorem State.putTh_chans (s : State) (t : Nat) (x : Thread) : (s.putTh t x).chans = s.chans := rfl
@[simp] theorem State.putTh_cops (s : State) (t : Nat) (x : Thread) : (s.putTh t x).cops = s.cops := rfl
@[simp] theorem State.putTh_lines (s : State) (t : Nat) (x : Thread) : (s.putTh t x).lines = s.lines := rfl
@[simp] theorem State.putTh_spm (s : State) (t : Nat) (x : Thread) : (s.putTh t x).spm = s.spm := rfl
@[simp] theorem State.putTh_spmBad (s : State) (t : Nat) (x : Thread) : (s.putTh t x).spmBad = s.spmBad := rfl
@[simp] theorem State.putTh_cmem (s : State) (t : Nat) (x : Thread) : (s.putTh t x).cmem = s.cmem := rfl
@[simp] theorem State.putTh_dram (s : State) (t : Nat) (x : Thread) : (s.putTh t x).dram = s.dram := rfl
@[simp] theorem State.putTh_linkErr (s : State) (t : Nat) (x : Thread) : (s.putTh t x).linkErr = s.linkErr := rfl
@[simp] theorem State.putTh_trackEnd (s : State) (t : Nat) (x : Thread) : (s.putTh t x).trackEnd = s.trackEnd := rfl
@[simp] theorem State.putTh_fmgq (s : State) (t : Nat) (x : Thread) : (s.putTh t x).fmgq = s.fmgq := rfl
@[simp] theorem State.putTh_flights (s : State) (t : Nat) (x : Thread) : (s.putTh t x).flights = s.flights := rfl
@[simp] theorem State.putTh_tcbs (s : State) (t : Nat) (x : Thread) : (s.putTh t x).tcbs = s.tcbs := rfl
@[simp] theorem State.putTh_tellers (s : State) (t : Nat) (x : Thread) : (s.putTh t x).tellers = s.tellers := rfl
@[simp] theorem State.putTh_events (s : State) (t : Nat) (x : Thread) : (s.putTh t x).events = s.events := rfl
@[simp] theorem State.putTh_pol (s : State) (t : Nat) (x : Thread) : (s.putTh t x).pol = s.pol := rfl
@[simp] theorem State.putTh_polBad (s : State) (t : Nat) (x : Thread) : (s.putTh t x).polBad = s.polBad := rfl
@[simp] theorem State.putTh_polWas (s : State) (t : Nat) (x : Thread) : (s.putTh t x).polWas = s.polWas := rfl
@[simp] theorem State.putTh_polCnt (s : State) (t : Nat) (x : Thread) : (s.putTh t x).polCnt = s.polCnt := rfl
@[simp] theorem State.putTh_cntAdds (s : State) (t : Nat) (x : Thread) : (s.putTh t x).cntAdds = s.cntAdds := rfl
@[simp] theorem State.putTh_gsa (s : State) (t : Nat) (x : Thread) : (s.putTh t x).gsa = s.gsa := rfl
@[simp] theorem State.putTh_prof (s : State) (t : Nat) (x : Thread) : (s.putTh t x).prof = s.prof := rfl
@[simp] theorem State.putTh_kek (s : State) (t : Nat) (x : Thread) : (s.putTh t x).kek = s.kek := rfl
@[simp] theorem State.putTh_vault (s : State) (t : Nat) (x : Thread) : (s.putTh t x).vault = s.vault := rfl
@[simp] theorem State.putTh_vltBad (s : State) (t : Nat) (x : Thread) : (s.putTh t x).vltBad = s.vltBad := rfl
@[simp] theorem State.putTh_rngAt (s : State) (t : Nat) (x : Thread) : (s.putTh t x).rngAt = s.rngAt := rfl
@[simp] theorem State.putTh_pdies (s : State) (t : Nat) (x : Thread) : (s.putTh t x).pdies = s.pdies := rfl
@[simp] theorem State.putTh_ft (s : State) (t : Nat) (x : Thread) : (s.putTh t x).ft = s.ft := rfl
@[simp] theorem State.putTh_ftBad (s : State) (t : Nat) (x : Thread) : (s.putTh t x).ftBad = s.ftBad := rfl
@[simp] theorem State.putTh_ftWas (s : State) (t : Nat) (x : Thread) : (s.putTh t x).ftWas = s.ftWas := rfl
@[simp] theorem State.putTh_ftHit (s : State) (t : Nat) (x : Thread) : (s.putTh t x).ftHit = s.ftHit := rfl
@[simp] theorem State.putTh_sat (s : State) (t : Nat) (x : Thread) : (s.putTh t x).sat = s.sat := rfl
@[simp] theorem State.putTh_satWas (s : State) (t : Nat) (x : Thread) : (s.putTh t x).satWas = s.satWas := rfl
@[simp] theorem State.putTh_vltWas (s : State) (t : Nat) (x : Thread) : (s.putTh t x).vltWas = s.vltWas := rfl
@[simp] theorem State.putTh_vltGone (s : State) (t : Nat) (x : Thread) : (s.putTh t x).vltGone = s.vltGone := rfl
@[simp] theorem State.putTh_pktMem (s : State) (t : Nat) (x : Thread) : (s.putTh t x).pktMem = s.pktMem := rfl
@[simp] theorem State.putTh_bufs (s : State) (t : Nat) (x : Thread) : (s.putTh t x).bufs = s.bufs := rfl
@[simp] theorem State.putTh_bufBad (s : State) (t : Nat) (x : Thread) : (s.putTh t x).bufBad = s.bufBad := rfl
@[simp] theorem State.putTh_pools (s : State) (t : Nat) (x : Thread) : (s.putTh t x).pools = s.pools := rfl
@[simp] theorem State.putTh_lvlWas (s : State) (t : Nat) (x : Thread) : (s.putTh t x).lvlWas = s.lvlWas := rfl
@[simp] theorem State.putTh_used (s : State) (t : Nat) (x : Thread) : (s.putTh t x).used = s.used := rfl
@[simp] theorem State.putTh_queues (s : State) (t : Nat) (x : Thread) : (s.putTh t x).queues = s.queues := rfl
@[simp] theorem State.putTh_shapers (s : State) (t : Nat) (x : Thread) : (s.putTh t x).shapers = s.shapers := rfl
@[simp] theorem State.putTh_policers (s : State) (t : Nat) (x : Thread) : (s.putTh t x).policers = s.policers := rfl
@[simp] theorem State.putTh_punters (s : State) (t : Nat) (x : Thread) : (s.putTh t x).punters = s.punters := rfl
@[simp] theorem State.putTh_tports (s : State) (t : Nat) (x : Thread) : (s.putTh t x).tports = s.tports := rfl
@[simp] theorem State.putTh_tpl (s : State) (t : Nat) (x : Thread) : (s.putTh t x).tpl = s.tpl := rfl
@[simp] theorem State.putTh_punts (s : State) (t : Nat) (x : Thread) : (s.putTh t x).punts = s.punts := rfl
@[simp] theorem State.putTh_pauses (s : State) (t : Nat) (x : Thread) : (s.putTh t x).pauses = s.pauses := rfl
@[simp] theorem State.putTh_xoffAt (s : State) (t : Nat) (x : Thread) : (s.putTh t x).xoffAt = s.xoffAt := rfl
@[simp] theorem State.putTh_links (s : State) (t : Nat) (x : Thread) : (s.putTh t x).links = s.links := rfl
@[simp] theorem State.putTh_portOff (s : State) (t : Nat) (x : Thread) : (s.putTh t x).portOff = s.portOff := rfl
@[simp] theorem State.putTh_wlocks (s : State) (t : Nat) (x : Thread) : (s.putTh t x).wlocks = s.wlocks := rfl
@[simp] theorem State.putTh_doms (s : State) (t : Nat) (x : Thread) : (s.putTh t x).doms = s.doms := rfl
@[simp] theorem State.putTh_gen (s : State) (t : Nat) (x : Thread) : (s.putTh t x).gen = s.gen := rfl
@[simp] theorem State.putTh_oldLive (s : State) (t : Nat) (x : Thread) : (s.putTh t x).oldLive = s.oldLive := rfl
@[simp] theorem State.putTh_clearAt (s : State) (t : Nat) (x : Thread) : (s.putTh t x).clearAt = s.clearAt := rfl
@[simp] theorem State.putTh_halted (s : State) (t : Nat) (x : Thread) : (s.putTh t x).halted = s.halted := rfl
@[simp] theorem State.putTh_perst (s : State) (t : Nat) (x : Thread) : (s.putTh t x).perst = s.perst := rfl
@[simp] theorem State.putTh_host (s : State) (t : Nat) (x : Thread) : (s.putTh t x).host = s.host := rfl
@[simp] theorem State.putTh_repairs (s : State) (t : Nat) (x : Thread) : (s.putTh t x).repairs = s.repairs := rfl
@[simp] theorem State.putTh_dbg (s : State) (t : Nat) (x : Thread) : (s.putTh t x).dbg = s.dbg := rfl
@[simp] theorem State.putTh_capWr (s : State) (t : Nat) (x : Thread) : (s.putTh t x).capWr = s.capWr := rfl
@[simp] theorem State.putTh_ctxWr (s : State) (t : Nat) (x : Thread) : (s.putTh t x).ctxWr = s.ctxWr := rfl
@[simp] theorem State.putTh_epc (s : State) (t : Nat) (x : Thread) : (s.putTh t x).epc = s.epc := rfl
@[simp] theorem State.putTh_fmg (s : State) (t : Nat) (x : Thread) : (s.putTh t x).fmg = s.fmg := rfl
@[simp] theorem State.putTh_sec (s : State) (t : Nat) (x : Thread) : (s.putTh t x).sec = s.sec := rfl
@[simp] theorem State.putTh_pwr (s : State) (t : Nat) (x : Thread) : (s.putTh t x).pwr = s.pwr := rfl
@[simp] theorem State.putTh_flash (s : State) (t : Nat) (x : Thread) : (s.putTh t x).flash = s.flash := rfl
@[simp] theorem State.putTh_tally (s : State) (t : Nat) (x : Thread) : (s.putTh t x).tally = s.tally := rfl
@[simp] theorem State.putTh_tallyHi (s : State) (t : Nat) (x : Thread) : (s.putTh t x).tallyHi = s.tallyHi := rfl
@[simp] theorem State.putTh_tallyAt (s : State) (t : Nat) (x : Thread) : (s.putTh t x).tallyAt = s.tallyAt := rfl
@[simp] theorem State.putTh_mbxJob (s : State) (t : Nat) (x : Thread) : (s.putTh t x).mbxJob = s.mbxJob := rfl
@[simp] theorem State.putTh_fills (s : State) (t : Nat) (x : Thread) : (s.putTh t x).fills = s.fills := rfl
@[simp] theorem State.putTh_retire (s : State) (t : Nat) (x : Thread) : (s.putTh t x).retire = s.retire := rfl
@[simp] theorem State.putTh_banks (s : State) (t : Nat) (x : Thread) : (s.putTh t x).banks = s.banks := rfl
@[simp] theorem State.putTh_hstFill (s : State) (t : Nat) (x : Thread) : (s.putTh t x).hstFill = s.hstFill := rfl
@[simp] theorem State.putTh_resync (s : State) (t : Nat) (x : Thread) : (s.putTh t x).resync = s.resync := rfl
@[simp] theorem State.putTh_pulled (s : State) (t : Nat) (x : Thread) : (s.putTh t x).pulled = s.pulled := rfl
@[simp] theorem State.putTh_dpairs (s : State) (t : Nat) (x : Thread) : (s.putTh t x).dpairs = s.dpairs := rfl
@[simp] theorem State.putTh_tap (s : State) (t : Nat) (x : Thread) : (s.putTh t x).tap = s.tap := rfl

/-! ## State.putLock -/

@[simp] theorem State.putLock_now (s : State) (k : Nat) (l : Lock) : (s.putLock k l).now = s.now := rfl
@[simp] theorem State.putLock_clk (s : State) (k : Nat) (l : Lock) : (s.putLock k l).clk = s.clk := rfl
@[simp] theorem State.putLock_tbNum (s : State) (k : Nat) (l : Lock) : (s.putLock k l).tbNum = s.tbNum := rfl
@[simp] theorem State.putLock_tbAt (s : State) (k : Nat) (l : Lock) : (s.putLock k l).tbAt = s.tbAt := rfl
@[simp] theorem State.putLock_tbPast (s : State) (k : Nat) (l : Lock) : (s.putLock k l).tbPast = s.tbPast := rfl
@[simp] theorem State.putLock_draw (s : State) (k : Nat) (l : Lock) : (s.putLock k l).draw = s.draw := rfl
@[simp] theorem State.putLock_pending (s : State) (k : Nat) (l : Lock) : (s.putLock k l).pending = s.pending := rfl
@[simp] theorem State.putLock_out (s : State) (k : Nat) (l : Lock) : (s.putLock k l).out = s.out := rfl
@[simp] theorem State.putLock_regs (s : State) (k : Nat) (l : Lock) : (s.putLock k l).regs = s.regs := rfl
@[simp] theorem State.putLock_hw (s : State) (k : Nat) (l : Lock) : (s.putLock k l).hw = s.hw := rfl
@[simp] theorem State.putLock_arrived (s : State) (k : Nat) (l : Lock) : (s.putLock k l).arrived = s.arrived := rfl
@[simp] theorem State.putLock_act (s : State) (k : Nat) (l : Lock) : (s.putLock k l).act = s.act := rfl
@[simp] theorem State.putLock_old (s : State) (k : Nat) (l : Lock) : (s.putLock k l).old = s.old := rfl
@[simp] theorem State.putLock_thr (s : State) (k : Nat) (l : Lock) : (s.putLock k l).thr = s.thr := rfl
@[simp] theorem State.putLock_clu (s : State) (k : Nat) (l : Lock) : (s.putLock k l).clu = s.clu := rfl
@[simp] theorem State.putLock_locks (s : State) (k : Nat) (l : Lock) : (s.putLock k l).locks = tSet (fun _ => Lock.free) s.locks k l := rfl
@[simp] theorem State.putLock_chans (s : State) (k : Nat) (l : Lock) : (s.putLock k l).chans = s.chans := rfl
@[simp] theorem State.putLock_cops (s : State) (k : Nat) (l : Lock) : (s.putLock k l).cops = s.cops := rfl
@[simp] theorem State.putLock_lines (s : State) (k : Nat) (l : Lock) : (s.putLock k l).lines = s.lines := rfl
@[simp] theorem State.putLock_spm (s : State) (k : Nat) (l : Lock) : (s.putLock k l).spm = s.spm := rfl
@[simp] theorem State.putLock_spmBad (s : State) (k : Nat) (l : Lock) : (s.putLock k l).spmBad = s.spmBad := rfl
@[simp] theorem State.putLock_cmem (s : State) (k : Nat) (l : Lock) : (s.putLock k l).cmem = s.cmem := rfl
@[simp] theorem State.putLock_dram (s : State) (k : Nat) (l : Lock) : (s.putLock k l).dram = s.dram := rfl
@[simp] theorem State.putLock_linkErr (s : State) (k : Nat) (l : Lock) : (s.putLock k l).linkErr = s.linkErr := rfl
@[simp] theorem State.putLock_trackEnd (s : State) (k : Nat) (l : Lock) : (s.putLock k l).trackEnd = s.trackEnd := rfl
@[simp] theorem State.putLock_fmgq (s : State) (k : Nat) (l : Lock) : (s.putLock k l).fmgq = s.fmgq := rfl
@[simp] theorem State.putLock_flights (s : State) (k : Nat) (l : Lock) : (s.putLock k l).flights = s.flights := rfl
@[simp] theorem State.putLock_tcbs (s : State) (k : Nat) (l : Lock) : (s.putLock k l).tcbs = s.tcbs := rfl
@[simp] theorem State.putLock_tellers (s : State) (k : Nat) (l : Lock) : (s.putLock k l).tellers = s.tellers := rfl
@[simp] theorem State.putLock_events (s : State) (k : Nat) (l : Lock) : (s.putLock k l).events = s.events := rfl
@[simp] theorem State.putLock_pol (s : State) (k : Nat) (l : Lock) : (s.putLock k l).pol = s.pol := rfl
@[simp] theorem State.putLock_polBad (s : State) (k : Nat) (l : Lock) : (s.putLock k l).polBad = s.polBad := rfl
@[simp] theorem State.putLock_polWas (s : State) (k : Nat) (l : Lock) : (s.putLock k l).polWas = s.polWas := rfl
@[simp] theorem State.putLock_polCnt (s : State) (k : Nat) (l : Lock) : (s.putLock k l).polCnt = s.polCnt := rfl
@[simp] theorem State.putLock_cntAdds (s : State) (k : Nat) (l : Lock) : (s.putLock k l).cntAdds = s.cntAdds := rfl
@[simp] theorem State.putLock_gsa (s : State) (k : Nat) (l : Lock) : (s.putLock k l).gsa = s.gsa := rfl
@[simp] theorem State.putLock_prof (s : State) (k : Nat) (l : Lock) : (s.putLock k l).prof = s.prof := rfl
@[simp] theorem State.putLock_kek (s : State) (k : Nat) (l : Lock) : (s.putLock k l).kek = s.kek := rfl
@[simp] theorem State.putLock_vault (s : State) (k : Nat) (l : Lock) : (s.putLock k l).vault = s.vault := rfl
@[simp] theorem State.putLock_vltBad (s : State) (k : Nat) (l : Lock) : (s.putLock k l).vltBad = s.vltBad := rfl
@[simp] theorem State.putLock_rngAt (s : State) (k : Nat) (l : Lock) : (s.putLock k l).rngAt = s.rngAt := rfl
@[simp] theorem State.putLock_pdies (s : State) (k : Nat) (l : Lock) : (s.putLock k l).pdies = s.pdies := rfl
@[simp] theorem State.putLock_ft (s : State) (k : Nat) (l : Lock) : (s.putLock k l).ft = s.ft := rfl
@[simp] theorem State.putLock_ftBad (s : State) (k : Nat) (l : Lock) : (s.putLock k l).ftBad = s.ftBad := rfl
@[simp] theorem State.putLock_ftWas (s : State) (k : Nat) (l : Lock) : (s.putLock k l).ftWas = s.ftWas := rfl
@[simp] theorem State.putLock_ftHit (s : State) (k : Nat) (l : Lock) : (s.putLock k l).ftHit = s.ftHit := rfl
@[simp] theorem State.putLock_sat (s : State) (k : Nat) (l : Lock) : (s.putLock k l).sat = s.sat := rfl
@[simp] theorem State.putLock_satWas (s : State) (k : Nat) (l : Lock) : (s.putLock k l).satWas = s.satWas := rfl
@[simp] theorem State.putLock_vltWas (s : State) (k : Nat) (l : Lock) : (s.putLock k l).vltWas = s.vltWas := rfl
@[simp] theorem State.putLock_vltGone (s : State) (k : Nat) (l : Lock) : (s.putLock k l).vltGone = s.vltGone := rfl
@[simp] theorem State.putLock_pktMem (s : State) (k : Nat) (l : Lock) : (s.putLock k l).pktMem = s.pktMem := rfl
@[simp] theorem State.putLock_bufs (s : State) (k : Nat) (l : Lock) : (s.putLock k l).bufs = s.bufs := rfl
@[simp] theorem State.putLock_bufBad (s : State) (k : Nat) (l : Lock) : (s.putLock k l).bufBad = s.bufBad := rfl
@[simp] theorem State.putLock_pools (s : State) (k : Nat) (l : Lock) : (s.putLock k l).pools = s.pools := rfl
@[simp] theorem State.putLock_lvlWas (s : State) (k : Nat) (l : Lock) : (s.putLock k l).lvlWas = s.lvlWas := rfl
@[simp] theorem State.putLock_used (s : State) (k : Nat) (l : Lock) : (s.putLock k l).used = s.used := rfl
@[simp] theorem State.putLock_queues (s : State) (k : Nat) (l : Lock) : (s.putLock k l).queues = s.queues := rfl
@[simp] theorem State.putLock_shapers (s : State) (k : Nat) (l : Lock) : (s.putLock k l).shapers = s.shapers := rfl
@[simp] theorem State.putLock_policers (s : State) (k : Nat) (l : Lock) : (s.putLock k l).policers = s.policers := rfl
@[simp] theorem State.putLock_punters (s : State) (k : Nat) (l : Lock) : (s.putLock k l).punters = s.punters := rfl
@[simp] theorem State.putLock_tports (s : State) (k : Nat) (l : Lock) : (s.putLock k l).tports = s.tports := rfl
@[simp] theorem State.putLock_tpl (s : State) (k : Nat) (l : Lock) : (s.putLock k l).tpl = s.tpl := rfl
@[simp] theorem State.putLock_punts (s : State) (k : Nat) (l : Lock) : (s.putLock k l).punts = s.punts := rfl
@[simp] theorem State.putLock_pauses (s : State) (k : Nat) (l : Lock) : (s.putLock k l).pauses = s.pauses := rfl
@[simp] theorem State.putLock_xoffAt (s : State) (k : Nat) (l : Lock) : (s.putLock k l).xoffAt = s.xoffAt := rfl
@[simp] theorem State.putLock_links (s : State) (k : Nat) (l : Lock) : (s.putLock k l).links = s.links := rfl
@[simp] theorem State.putLock_portOff (s : State) (k : Nat) (l : Lock) : (s.putLock k l).portOff = s.portOff := rfl
@[simp] theorem State.putLock_wlocks (s : State) (k : Nat) (l : Lock) : (s.putLock k l).wlocks = s.wlocks := rfl
@[simp] theorem State.putLock_doms (s : State) (k : Nat) (l : Lock) : (s.putLock k l).doms = s.doms := rfl
@[simp] theorem State.putLock_gen (s : State) (k : Nat) (l : Lock) : (s.putLock k l).gen = s.gen := rfl
@[simp] theorem State.putLock_oldLive (s : State) (k : Nat) (l : Lock) : (s.putLock k l).oldLive = s.oldLive := rfl
@[simp] theorem State.putLock_clearAt (s : State) (k : Nat) (l : Lock) : (s.putLock k l).clearAt = s.clearAt := rfl
@[simp] theorem State.putLock_halted (s : State) (k : Nat) (l : Lock) : (s.putLock k l).halted = s.halted := rfl
@[simp] theorem State.putLock_perst (s : State) (k : Nat) (l : Lock) : (s.putLock k l).perst = s.perst := rfl
@[simp] theorem State.putLock_host (s : State) (k : Nat) (l : Lock) : (s.putLock k l).host = s.host := rfl
@[simp] theorem State.putLock_repairs (s : State) (k : Nat) (l : Lock) : (s.putLock k l).repairs = s.repairs := rfl
@[simp] theorem State.putLock_dbg (s : State) (k : Nat) (l : Lock) : (s.putLock k l).dbg = s.dbg := rfl
@[simp] theorem State.putLock_capWr (s : State) (k : Nat) (l : Lock) : (s.putLock k l).capWr = s.capWr := rfl
@[simp] theorem State.putLock_ctxWr (s : State) (k : Nat) (l : Lock) : (s.putLock k l).ctxWr = s.ctxWr := rfl
@[simp] theorem State.putLock_epc (s : State) (k : Nat) (l : Lock) : (s.putLock k l).epc = s.epc := rfl
@[simp] theorem State.putLock_fmg (s : State) (k : Nat) (l : Lock) : (s.putLock k l).fmg = s.fmg := rfl
@[simp] theorem State.putLock_sec (s : State) (k : Nat) (l : Lock) : (s.putLock k l).sec = s.sec := rfl
@[simp] theorem State.putLock_pwr (s : State) (k : Nat) (l : Lock) : (s.putLock k l).pwr = s.pwr := rfl
@[simp] theorem State.putLock_flash (s : State) (k : Nat) (l : Lock) : (s.putLock k l).flash = s.flash := rfl
@[simp] theorem State.putLock_tally (s : State) (k : Nat) (l : Lock) : (s.putLock k l).tally = s.tally := rfl
@[simp] theorem State.putLock_tallyHi (s : State) (k : Nat) (l : Lock) : (s.putLock k l).tallyHi = s.tallyHi := rfl
@[simp] theorem State.putLock_tallyAt (s : State) (k : Nat) (l : Lock) : (s.putLock k l).tallyAt = s.tallyAt := rfl
@[simp] theorem State.putLock_mbxJob (s : State) (k : Nat) (l : Lock) : (s.putLock k l).mbxJob = s.mbxJob := rfl
@[simp] theorem State.putLock_fills (s : State) (k : Nat) (l : Lock) : (s.putLock k l).fills = s.fills := rfl
@[simp] theorem State.putLock_retire (s : State) (k : Nat) (l : Lock) : (s.putLock k l).retire = s.retire := rfl
@[simp] theorem State.putLock_banks (s : State) (k : Nat) (l : Lock) : (s.putLock k l).banks = s.banks := rfl
@[simp] theorem State.putLock_hstFill (s : State) (k : Nat) (l : Lock) : (s.putLock k l).hstFill = s.hstFill := rfl
@[simp] theorem State.putLock_resync (s : State) (k : Nat) (l : Lock) : (s.putLock k l).resync = s.resync := rfl
@[simp] theorem State.putLock_pulled (s : State) (k : Nat) (l : Lock) : (s.putLock k l).pulled = s.pulled := rfl
@[simp] theorem State.putLock_dpairs (s : State) (k : Nat) (l : Lock) : (s.putLock k l).dpairs = s.dpairs := rfl
@[simp] theorem State.putLock_tap (s : State) (k : Nat) (l : Lock) : (s.putLock k l).tap = s.tap := rfl

/-! ## State.putChan -/

@[simp] theorem State.putChan_now (s : State) (c n : Nat) (x : Chan) : (s.putChan c n x).now = s.now := rfl
@[simp] theorem State.putChan_clk (s : State) (c n : Nat) (x : Chan) : (s.putChan c n x).clk = s.clk := rfl
@[simp] theorem State.putChan_tbNum (s : State) (c n : Nat) (x : Chan) : (s.putChan c n x).tbNum = s.tbNum := rfl
@[simp] theorem State.putChan_tbAt (s : State) (c n : Nat) (x : Chan) : (s.putChan c n x).tbAt = s.tbAt := rfl
@[simp] theorem State.putChan_tbPast (s : State) (c n : Nat) (x : Chan) : (s.putChan c n x).tbPast = s.tbPast := rfl
@[simp] theorem State.putChan_draw (s : State) (c n : Nat) (x : Chan) : (s.putChan c n x).draw = s.draw := rfl
@[simp] theorem State.putChan_pending (s : State) (c n : Nat) (x : Chan) : (s.putChan c n x).pending = s.pending := rfl
@[simp] theorem State.putChan_out (s : State) (c n : Nat) (x : Chan) : (s.putChan c n x).out = s.out := rfl
@[simp] theorem State.putChan_regs (s : State) (c n : Nat) (x : Chan) : (s.putChan c n x).regs = s.regs := rfl
@[simp] theorem State.putChan_hw (s : State) (c n : Nat) (x : Chan) : (s.putChan c n x).hw = s.hw := rfl
@[simp] theorem State.putChan_arrived (s : State) (c n : Nat) (x : Chan) : (s.putChan c n x).arrived = s.arrived := rfl
@[simp] theorem State.putChan_act (s : State) (c n : Nat) (x : Chan) : (s.putChan c n x).act = s.act := rfl
@[simp] theorem State.putChan_old (s : State) (c n : Nat) (x : Chan) : (s.putChan c n x).old = s.old := rfl
@[simp] theorem State.putChan_thr (s : State) (c n : Nat) (x : Chan) : (s.putChan c n x).thr = s.thr := rfl
@[simp] theorem State.putChan_clu (s : State) (c n : Nat) (x : Chan) : (s.putChan c n x).clu = s.clu := rfl
@[simp] theorem State.putChan_locks (s : State) (c n : Nat) (x : Chan) : (s.putChan c n x).locks = s.locks := rfl
@[simp] theorem State.putChan_chans (s : State) (c n : Nat) (x : Chan) : (s.putChan c n x).chans = tSet (fun _ => Chan.empty) s.chans (c * 32 + n) x := rfl
@[simp] theorem State.putChan_cops (s : State) (c n : Nat) (x : Chan) : (s.putChan c n x).cops = s.cops := rfl
@[simp] theorem State.putChan_lines (s : State) (c n : Nat) (x : Chan) : (s.putChan c n x).lines = s.lines := rfl
@[simp] theorem State.putChan_spm (s : State) (c n : Nat) (x : Chan) : (s.putChan c n x).spm = s.spm := rfl
@[simp] theorem State.putChan_spmBad (s : State) (c n : Nat) (x : Chan) : (s.putChan c n x).spmBad = s.spmBad := rfl
@[simp] theorem State.putChan_cmem (s : State) (c n : Nat) (x : Chan) : (s.putChan c n x).cmem = s.cmem := rfl
@[simp] theorem State.putChan_dram (s : State) (c n : Nat) (x : Chan) : (s.putChan c n x).dram = s.dram := rfl
@[simp] theorem State.putChan_linkErr (s : State) (c n : Nat) (x : Chan) : (s.putChan c n x).linkErr = s.linkErr := rfl
@[simp] theorem State.putChan_trackEnd (s : State) (c n : Nat) (x : Chan) : (s.putChan c n x).trackEnd = s.trackEnd := rfl
@[simp] theorem State.putChan_fmgq (s : State) (c n : Nat) (x : Chan) : (s.putChan c n x).fmgq = s.fmgq := rfl
@[simp] theorem State.putChan_flights (s : State) (c n : Nat) (x : Chan) : (s.putChan c n x).flights = s.flights := rfl
@[simp] theorem State.putChan_tcbs (s : State) (c n : Nat) (x : Chan) : (s.putChan c n x).tcbs = s.tcbs := rfl
@[simp] theorem State.putChan_tellers (s : State) (c n : Nat) (x : Chan) : (s.putChan c n x).tellers = s.tellers := rfl
@[simp] theorem State.putChan_events (s : State) (c n : Nat) (x : Chan) : (s.putChan c n x).events = s.events := rfl
@[simp] theorem State.putChan_pol (s : State) (c n : Nat) (x : Chan) : (s.putChan c n x).pol = s.pol := rfl
@[simp] theorem State.putChan_polBad (s : State) (c n : Nat) (x : Chan) : (s.putChan c n x).polBad = s.polBad := rfl
@[simp] theorem State.putChan_polWas (s : State) (c n : Nat) (x : Chan) : (s.putChan c n x).polWas = s.polWas := rfl
@[simp] theorem State.putChan_polCnt (s : State) (c n : Nat) (x : Chan) : (s.putChan c n x).polCnt = s.polCnt := rfl
@[simp] theorem State.putChan_cntAdds (s : State) (c n : Nat) (x : Chan) : (s.putChan c n x).cntAdds = s.cntAdds := rfl
@[simp] theorem State.putChan_gsa (s : State) (c n : Nat) (x : Chan) : (s.putChan c n x).gsa = s.gsa := rfl
@[simp] theorem State.putChan_prof (s : State) (c n : Nat) (x : Chan) : (s.putChan c n x).prof = s.prof := rfl
@[simp] theorem State.putChan_kek (s : State) (c n : Nat) (x : Chan) : (s.putChan c n x).kek = s.kek := rfl
@[simp] theorem State.putChan_vault (s : State) (c n : Nat) (x : Chan) : (s.putChan c n x).vault = s.vault := rfl
@[simp] theorem State.putChan_vltBad (s : State) (c n : Nat) (x : Chan) : (s.putChan c n x).vltBad = s.vltBad := rfl
@[simp] theorem State.putChan_rngAt (s : State) (c n : Nat) (x : Chan) : (s.putChan c n x).rngAt = s.rngAt := rfl
@[simp] theorem State.putChan_pdies (s : State) (c n : Nat) (x : Chan) : (s.putChan c n x).pdies = s.pdies := rfl
@[simp] theorem State.putChan_ft (s : State) (c n : Nat) (x : Chan) : (s.putChan c n x).ft = s.ft := rfl
@[simp] theorem State.putChan_ftBad (s : State) (c n : Nat) (x : Chan) : (s.putChan c n x).ftBad = s.ftBad := rfl
@[simp] theorem State.putChan_ftWas (s : State) (c n : Nat) (x : Chan) : (s.putChan c n x).ftWas = s.ftWas := rfl
@[simp] theorem State.putChan_ftHit (s : State) (c n : Nat) (x : Chan) : (s.putChan c n x).ftHit = s.ftHit := rfl
@[simp] theorem State.putChan_sat (s : State) (c n : Nat) (x : Chan) : (s.putChan c n x).sat = s.sat := rfl
@[simp] theorem State.putChan_satWas (s : State) (c n : Nat) (x : Chan) : (s.putChan c n x).satWas = s.satWas := rfl
@[simp] theorem State.putChan_vltWas (s : State) (c n : Nat) (x : Chan) : (s.putChan c n x).vltWas = s.vltWas := rfl
@[simp] theorem State.putChan_vltGone (s : State) (c n : Nat) (x : Chan) : (s.putChan c n x).vltGone = s.vltGone := rfl
@[simp] theorem State.putChan_pktMem (s : State) (c n : Nat) (x : Chan) : (s.putChan c n x).pktMem = s.pktMem := rfl
@[simp] theorem State.putChan_bufs (s : State) (c n : Nat) (x : Chan) : (s.putChan c n x).bufs = s.bufs := rfl
@[simp] theorem State.putChan_bufBad (s : State) (c n : Nat) (x : Chan) : (s.putChan c n x).bufBad = s.bufBad := rfl
@[simp] theorem State.putChan_pools (s : State) (c n : Nat) (x : Chan) : (s.putChan c n x).pools = s.pools := rfl
@[simp] theorem State.putChan_lvlWas (s : State) (c n : Nat) (x : Chan) : (s.putChan c n x).lvlWas = s.lvlWas := rfl
@[simp] theorem State.putChan_used (s : State) (c n : Nat) (x : Chan) : (s.putChan c n x).used = s.used := rfl
@[simp] theorem State.putChan_queues (s : State) (c n : Nat) (x : Chan) : (s.putChan c n x).queues = s.queues := rfl
@[simp] theorem State.putChan_shapers (s : State) (c n : Nat) (x : Chan) : (s.putChan c n x).shapers = s.shapers := rfl
@[simp] theorem State.putChan_policers (s : State) (c n : Nat) (x : Chan) : (s.putChan c n x).policers = s.policers := rfl
@[simp] theorem State.putChan_punters (s : State) (c n : Nat) (x : Chan) : (s.putChan c n x).punters = s.punters := rfl
@[simp] theorem State.putChan_tports (s : State) (c n : Nat) (x : Chan) : (s.putChan c n x).tports = s.tports := rfl
@[simp] theorem State.putChan_tpl (s : State) (c n : Nat) (x : Chan) : (s.putChan c n x).tpl = s.tpl := rfl
@[simp] theorem State.putChan_punts (s : State) (c n : Nat) (x : Chan) : (s.putChan c n x).punts = s.punts := rfl
@[simp] theorem State.putChan_pauses (s : State) (c n : Nat) (x : Chan) : (s.putChan c n x).pauses = s.pauses := rfl
@[simp] theorem State.putChan_xoffAt (s : State) (c n : Nat) (x : Chan) : (s.putChan c n x).xoffAt = s.xoffAt := rfl
@[simp] theorem State.putChan_links (s : State) (c n : Nat) (x : Chan) : (s.putChan c n x).links = s.links := rfl
@[simp] theorem State.putChan_portOff (s : State) (c n : Nat) (x : Chan) : (s.putChan c n x).portOff = s.portOff := rfl
@[simp] theorem State.putChan_wlocks (s : State) (c n : Nat) (x : Chan) : (s.putChan c n x).wlocks = s.wlocks := rfl
@[simp] theorem State.putChan_doms (s : State) (c n : Nat) (x : Chan) : (s.putChan c n x).doms = s.doms := rfl
@[simp] theorem State.putChan_gen (s : State) (c n : Nat) (x : Chan) : (s.putChan c n x).gen = s.gen := rfl
@[simp] theorem State.putChan_oldLive (s : State) (c n : Nat) (x : Chan) : (s.putChan c n x).oldLive = s.oldLive := rfl
@[simp] theorem State.putChan_clearAt (s : State) (c n : Nat) (x : Chan) : (s.putChan c n x).clearAt = s.clearAt := rfl
@[simp] theorem State.putChan_halted (s : State) (c n : Nat) (x : Chan) : (s.putChan c n x).halted = s.halted := rfl
@[simp] theorem State.putChan_perst (s : State) (c n : Nat) (x : Chan) : (s.putChan c n x).perst = s.perst := rfl
@[simp] theorem State.putChan_host (s : State) (c n : Nat) (x : Chan) : (s.putChan c n x).host = s.host := rfl
@[simp] theorem State.putChan_repairs (s : State) (c n : Nat) (x : Chan) : (s.putChan c n x).repairs = s.repairs := rfl
@[simp] theorem State.putChan_dbg (s : State) (c n : Nat) (x : Chan) : (s.putChan c n x).dbg = s.dbg := rfl
@[simp] theorem State.putChan_capWr (s : State) (c n : Nat) (x : Chan) : (s.putChan c n x).capWr = s.capWr := rfl
@[simp] theorem State.putChan_ctxWr (s : State) (c n : Nat) (x : Chan) : (s.putChan c n x).ctxWr = s.ctxWr := rfl
@[simp] theorem State.putChan_epc (s : State) (c n : Nat) (x : Chan) : (s.putChan c n x).epc = s.epc := rfl
@[simp] theorem State.putChan_fmg (s : State) (c n : Nat) (x : Chan) : (s.putChan c n x).fmg = s.fmg := rfl
@[simp] theorem State.putChan_sec (s : State) (c n : Nat) (x : Chan) : (s.putChan c n x).sec = s.sec := rfl
@[simp] theorem State.putChan_pwr (s : State) (c n : Nat) (x : Chan) : (s.putChan c n x).pwr = s.pwr := rfl
@[simp] theorem State.putChan_flash (s : State) (c n : Nat) (x : Chan) : (s.putChan c n x).flash = s.flash := rfl
@[simp] theorem State.putChan_tally (s : State) (c n : Nat) (x : Chan) : (s.putChan c n x).tally = s.tally := rfl
@[simp] theorem State.putChan_tallyHi (s : State) (c n : Nat) (x : Chan) : (s.putChan c n x).tallyHi = s.tallyHi := rfl
@[simp] theorem State.putChan_tallyAt (s : State) (c n : Nat) (x : Chan) : (s.putChan c n x).tallyAt = s.tallyAt := rfl
@[simp] theorem State.putChan_mbxJob (s : State) (c n : Nat) (x : Chan) : (s.putChan c n x).mbxJob = s.mbxJob := rfl
@[simp] theorem State.putChan_fills (s : State) (c n : Nat) (x : Chan) : (s.putChan c n x).fills = s.fills := rfl
@[simp] theorem State.putChan_retire (s : State) (c n : Nat) (x : Chan) : (s.putChan c n x).retire = s.retire := rfl
@[simp] theorem State.putChan_banks (s : State) (c n : Nat) (x : Chan) : (s.putChan c n x).banks = s.banks := rfl
@[simp] theorem State.putChan_hstFill (s : State) (c n : Nat) (x : Chan) : (s.putChan c n x).hstFill = s.hstFill := rfl
@[simp] theorem State.putChan_resync (s : State) (c n : Nat) (x : Chan) : (s.putChan c n x).resync = s.resync := rfl
@[simp] theorem State.putChan_pulled (s : State) (c n : Nat) (x : Chan) : (s.putChan c n x).pulled = s.pulled := rfl
@[simp] theorem State.putChan_dpairs (s : State) (c n : Nat) (x : Chan) : (s.putChan c n x).dpairs = s.dpairs := rfl
@[simp] theorem State.putChan_tap (s : State) (c n : Nat) (x : Chan) : (s.putChan c n x).tap = s.tap := rfl

/-! ## State.putCop -/

@[simp] theorem State.putCop_now (s : State) (c n : Nat) (x : Cop) : (s.putCop c n x).now = s.now := rfl
@[simp] theorem State.putCop_clk (s : State) (c n : Nat) (x : Cop) : (s.putCop c n x).clk = s.clk := rfl
@[simp] theorem State.putCop_tbNum (s : State) (c n : Nat) (x : Cop) : (s.putCop c n x).tbNum = s.tbNum := rfl
@[simp] theorem State.putCop_tbAt (s : State) (c n : Nat) (x : Cop) : (s.putCop c n x).tbAt = s.tbAt := rfl
@[simp] theorem State.putCop_tbPast (s : State) (c n : Nat) (x : Cop) : (s.putCop c n x).tbPast = s.tbPast := rfl
@[simp] theorem State.putCop_draw (s : State) (c n : Nat) (x : Cop) : (s.putCop c n x).draw = s.draw := rfl
@[simp] theorem State.putCop_pending (s : State) (c n : Nat) (x : Cop) : (s.putCop c n x).pending = s.pending := rfl
@[simp] theorem State.putCop_out (s : State) (c n : Nat) (x : Cop) : (s.putCop c n x).out = s.out := rfl
@[simp] theorem State.putCop_regs (s : State) (c n : Nat) (x : Cop) : (s.putCop c n x).regs = s.regs := rfl
@[simp] theorem State.putCop_hw (s : State) (c n : Nat) (x : Cop) : (s.putCop c n x).hw = s.hw := rfl
@[simp] theorem State.putCop_arrived (s : State) (c n : Nat) (x : Cop) : (s.putCop c n x).arrived = s.arrived := rfl
@[simp] theorem State.putCop_act (s : State) (c n : Nat) (x : Cop) : (s.putCop c n x).act = s.act := rfl
@[simp] theorem State.putCop_old (s : State) (c n : Nat) (x : Cop) : (s.putCop c n x).old = s.old := rfl
@[simp] theorem State.putCop_thr (s : State) (c n : Nat) (x : Cop) : (s.putCop c n x).thr = s.thr := rfl
@[simp] theorem State.putCop_clu (s : State) (c n : Nat) (x : Cop) : (s.putCop c n x).clu = s.clu := rfl
@[simp] theorem State.putCop_locks (s : State) (c n : Nat) (x : Cop) : (s.putCop c n x).locks = s.locks := rfl
@[simp] theorem State.putCop_chans (s : State) (c n : Nat) (x : Cop) : (s.putCop c n x).chans = s.chans := rfl
@[simp] theorem State.putCop_cops (s : State) (c n : Nat) (x : Cop) : (s.putCop c n x).cops = tSet (fun _ => Cop.idle) s.cops (c * 4 + n) x := rfl
@[simp] theorem State.putCop_lines (s : State) (c n : Nat) (x : Cop) : (s.putCop c n x).lines = s.lines := rfl
@[simp] theorem State.putCop_spm (s : State) (c n : Nat) (x : Cop) : (s.putCop c n x).spm = s.spm := rfl
@[simp] theorem State.putCop_spmBad (s : State) (c n : Nat) (x : Cop) : (s.putCop c n x).spmBad = s.spmBad := rfl
@[simp] theorem State.putCop_cmem (s : State) (c n : Nat) (x : Cop) : (s.putCop c n x).cmem = s.cmem := rfl
@[simp] theorem State.putCop_dram (s : State) (c n : Nat) (x : Cop) : (s.putCop c n x).dram = s.dram := rfl
@[simp] theorem State.putCop_linkErr (s : State) (c n : Nat) (x : Cop) : (s.putCop c n x).linkErr = s.linkErr := rfl
@[simp] theorem State.putCop_trackEnd (s : State) (c n : Nat) (x : Cop) : (s.putCop c n x).trackEnd = s.trackEnd := rfl
@[simp] theorem State.putCop_fmgq (s : State) (c n : Nat) (x : Cop) : (s.putCop c n x).fmgq = s.fmgq := rfl
@[simp] theorem State.putCop_flights (s : State) (c n : Nat) (x : Cop) : (s.putCop c n x).flights = s.flights := rfl
@[simp] theorem State.putCop_tcbs (s : State) (c n : Nat) (x : Cop) : (s.putCop c n x).tcbs = s.tcbs := rfl
@[simp] theorem State.putCop_tellers (s : State) (c n : Nat) (x : Cop) : (s.putCop c n x).tellers = s.tellers := rfl
@[simp] theorem State.putCop_events (s : State) (c n : Nat) (x : Cop) : (s.putCop c n x).events = s.events := rfl
@[simp] theorem State.putCop_pol (s : State) (c n : Nat) (x : Cop) : (s.putCop c n x).pol = s.pol := rfl
@[simp] theorem State.putCop_polBad (s : State) (c n : Nat) (x : Cop) : (s.putCop c n x).polBad = s.polBad := rfl
@[simp] theorem State.putCop_polWas (s : State) (c n : Nat) (x : Cop) : (s.putCop c n x).polWas = s.polWas := rfl
@[simp] theorem State.putCop_polCnt (s : State) (c n : Nat) (x : Cop) : (s.putCop c n x).polCnt = s.polCnt := rfl
@[simp] theorem State.putCop_cntAdds (s : State) (c n : Nat) (x : Cop) : (s.putCop c n x).cntAdds = s.cntAdds := rfl
@[simp] theorem State.putCop_gsa (s : State) (c n : Nat) (x : Cop) : (s.putCop c n x).gsa = s.gsa := rfl
@[simp] theorem State.putCop_prof (s : State) (c n : Nat) (x : Cop) : (s.putCop c n x).prof = s.prof := rfl
@[simp] theorem State.putCop_kek (s : State) (c n : Nat) (x : Cop) : (s.putCop c n x).kek = s.kek := rfl
@[simp] theorem State.putCop_vault (s : State) (c n : Nat) (x : Cop) : (s.putCop c n x).vault = s.vault := rfl
@[simp] theorem State.putCop_vltBad (s : State) (c n : Nat) (x : Cop) : (s.putCop c n x).vltBad = s.vltBad := rfl
@[simp] theorem State.putCop_rngAt (s : State) (c n : Nat) (x : Cop) : (s.putCop c n x).rngAt = s.rngAt := rfl
@[simp] theorem State.putCop_pdies (s : State) (c n : Nat) (x : Cop) : (s.putCop c n x).pdies = s.pdies := rfl
@[simp] theorem State.putCop_ft (s : State) (c n : Nat) (x : Cop) : (s.putCop c n x).ft = s.ft := rfl
@[simp] theorem State.putCop_ftBad (s : State) (c n : Nat) (x : Cop) : (s.putCop c n x).ftBad = s.ftBad := rfl
@[simp] theorem State.putCop_ftWas (s : State) (c n : Nat) (x : Cop) : (s.putCop c n x).ftWas = s.ftWas := rfl
@[simp] theorem State.putCop_ftHit (s : State) (c n : Nat) (x : Cop) : (s.putCop c n x).ftHit = s.ftHit := rfl
@[simp] theorem State.putCop_sat (s : State) (c n : Nat) (x : Cop) : (s.putCop c n x).sat = s.sat := rfl
@[simp] theorem State.putCop_satWas (s : State) (c n : Nat) (x : Cop) : (s.putCop c n x).satWas = s.satWas := rfl
@[simp] theorem State.putCop_vltWas (s : State) (c n : Nat) (x : Cop) : (s.putCop c n x).vltWas = s.vltWas := rfl
@[simp] theorem State.putCop_vltGone (s : State) (c n : Nat) (x : Cop) : (s.putCop c n x).vltGone = s.vltGone := rfl
@[simp] theorem State.putCop_pktMem (s : State) (c n : Nat) (x : Cop) : (s.putCop c n x).pktMem = s.pktMem := rfl
@[simp] theorem State.putCop_bufs (s : State) (c n : Nat) (x : Cop) : (s.putCop c n x).bufs = s.bufs := rfl
@[simp] theorem State.putCop_bufBad (s : State) (c n : Nat) (x : Cop) : (s.putCop c n x).bufBad = s.bufBad := rfl
@[simp] theorem State.putCop_pools (s : State) (c n : Nat) (x : Cop) : (s.putCop c n x).pools = s.pools := rfl
@[simp] theorem State.putCop_lvlWas (s : State) (c n : Nat) (x : Cop) : (s.putCop c n x).lvlWas = s.lvlWas := rfl
@[simp] theorem State.putCop_used (s : State) (c n : Nat) (x : Cop) : (s.putCop c n x).used = s.used := rfl
@[simp] theorem State.putCop_queues (s : State) (c n : Nat) (x : Cop) : (s.putCop c n x).queues = s.queues := rfl
@[simp] theorem State.putCop_shapers (s : State) (c n : Nat) (x : Cop) : (s.putCop c n x).shapers = s.shapers := rfl
@[simp] theorem State.putCop_policers (s : State) (c n : Nat) (x : Cop) : (s.putCop c n x).policers = s.policers := rfl
@[simp] theorem State.putCop_punters (s : State) (c n : Nat) (x : Cop) : (s.putCop c n x).punters = s.punters := rfl
@[simp] theorem State.putCop_tports (s : State) (c n : Nat) (x : Cop) : (s.putCop c n x).tports = s.tports := rfl
@[simp] theorem State.putCop_tpl (s : State) (c n : Nat) (x : Cop) : (s.putCop c n x).tpl = s.tpl := rfl
@[simp] theorem State.putCop_punts (s : State) (c n : Nat) (x : Cop) : (s.putCop c n x).punts = s.punts := rfl
@[simp] theorem State.putCop_pauses (s : State) (c n : Nat) (x : Cop) : (s.putCop c n x).pauses = s.pauses := rfl
@[simp] theorem State.putCop_xoffAt (s : State) (c n : Nat) (x : Cop) : (s.putCop c n x).xoffAt = s.xoffAt := rfl
@[simp] theorem State.putCop_links (s : State) (c n : Nat) (x : Cop) : (s.putCop c n x).links = s.links := rfl
@[simp] theorem State.putCop_portOff (s : State) (c n : Nat) (x : Cop) : (s.putCop c n x).portOff = s.portOff := rfl
@[simp] theorem State.putCop_wlocks (s : State) (c n : Nat) (x : Cop) : (s.putCop c n x).wlocks = s.wlocks := rfl
@[simp] theorem State.putCop_doms (s : State) (c n : Nat) (x : Cop) : (s.putCop c n x).doms = s.doms := rfl
@[simp] theorem State.putCop_gen (s : State) (c n : Nat) (x : Cop) : (s.putCop c n x).gen = s.gen := rfl
@[simp] theorem State.putCop_oldLive (s : State) (c n : Nat) (x : Cop) : (s.putCop c n x).oldLive = s.oldLive := rfl
@[simp] theorem State.putCop_clearAt (s : State) (c n : Nat) (x : Cop) : (s.putCop c n x).clearAt = s.clearAt := rfl
@[simp] theorem State.putCop_halted (s : State) (c n : Nat) (x : Cop) : (s.putCop c n x).halted = s.halted := rfl
@[simp] theorem State.putCop_perst (s : State) (c n : Nat) (x : Cop) : (s.putCop c n x).perst = s.perst := rfl
@[simp] theorem State.putCop_host (s : State) (c n : Nat) (x : Cop) : (s.putCop c n x).host = s.host := rfl
@[simp] theorem State.putCop_repairs (s : State) (c n : Nat) (x : Cop) : (s.putCop c n x).repairs = s.repairs := rfl
@[simp] theorem State.putCop_dbg (s : State) (c n : Nat) (x : Cop) : (s.putCop c n x).dbg = s.dbg := rfl
@[simp] theorem State.putCop_capWr (s : State) (c n : Nat) (x : Cop) : (s.putCop c n x).capWr = s.capWr := rfl
@[simp] theorem State.putCop_ctxWr (s : State) (c n : Nat) (x : Cop) : (s.putCop c n x).ctxWr = s.ctxWr := rfl
@[simp] theorem State.putCop_epc (s : State) (c n : Nat) (x : Cop) : (s.putCop c n x).epc = s.epc := rfl
@[simp] theorem State.putCop_fmg (s : State) (c n : Nat) (x : Cop) : (s.putCop c n x).fmg = s.fmg := rfl
@[simp] theorem State.putCop_sec (s : State) (c n : Nat) (x : Cop) : (s.putCop c n x).sec = s.sec := rfl
@[simp] theorem State.putCop_pwr (s : State) (c n : Nat) (x : Cop) : (s.putCop c n x).pwr = s.pwr := rfl
@[simp] theorem State.putCop_flash (s : State) (c n : Nat) (x : Cop) : (s.putCop c n x).flash = s.flash := rfl
@[simp] theorem State.putCop_tally (s : State) (c n : Nat) (x : Cop) : (s.putCop c n x).tally = s.tally := rfl
@[simp] theorem State.putCop_tallyHi (s : State) (c n : Nat) (x : Cop) : (s.putCop c n x).tallyHi = s.tallyHi := rfl
@[simp] theorem State.putCop_tallyAt (s : State) (c n : Nat) (x : Cop) : (s.putCop c n x).tallyAt = s.tallyAt := rfl
@[simp] theorem State.putCop_mbxJob (s : State) (c n : Nat) (x : Cop) : (s.putCop c n x).mbxJob = s.mbxJob := rfl
@[simp] theorem State.putCop_fills (s : State) (c n : Nat) (x : Cop) : (s.putCop c n x).fills = s.fills := rfl
@[simp] theorem State.putCop_retire (s : State) (c n : Nat) (x : Cop) : (s.putCop c n x).retire = s.retire := rfl
@[simp] theorem State.putCop_banks (s : State) (c n : Nat) (x : Cop) : (s.putCop c n x).banks = s.banks := rfl
@[simp] theorem State.putCop_hstFill (s : State) (c n : Nat) (x : Cop) : (s.putCop c n x).hstFill = s.hstFill := rfl
@[simp] theorem State.putCop_resync (s : State) (c n : Nat) (x : Cop) : (s.putCop c n x).resync = s.resync := rfl
@[simp] theorem State.putCop_pulled (s : State) (c n : Nat) (x : Cop) : (s.putCop c n x).pulled = s.pulled := rfl
@[simp] theorem State.putCop_dpairs (s : State) (c n : Nat) (x : Cop) : (s.putCop c n x).dpairs = s.dpairs := rfl
@[simp] theorem State.putCop_tap (s : State) (c n : Nat) (x : Cop) : (s.putCop c n x).tap = s.tap := rfl

/-! ## State.setTeller -/

@[simp] theorem State.setTeller_now (s : State) (r : Nat) (f : Teller → Teller) : (s.setTeller r f).now = s.now := rfl
@[simp] theorem State.setTeller_clk (s : State) (r : Nat) (f : Teller → Teller) : (s.setTeller r f).clk = s.clk := rfl
@[simp] theorem State.setTeller_tbNum (s : State) (r : Nat) (f : Teller → Teller) : (s.setTeller r f).tbNum = s.tbNum := rfl
@[simp] theorem State.setTeller_tbAt (s : State) (r : Nat) (f : Teller → Teller) : (s.setTeller r f).tbAt = s.tbAt := rfl
@[simp] theorem State.setTeller_tbPast (s : State) (r : Nat) (f : Teller → Teller) : (s.setTeller r f).tbPast = s.tbPast := rfl
@[simp] theorem State.setTeller_draw (s : State) (r : Nat) (f : Teller → Teller) : (s.setTeller r f).draw = s.draw := rfl
@[simp] theorem State.setTeller_pending (s : State) (r : Nat) (f : Teller → Teller) : (s.setTeller r f).pending = s.pending := rfl
@[simp] theorem State.setTeller_out (s : State) (r : Nat) (f : Teller → Teller) : (s.setTeller r f).out = s.out := rfl
@[simp] theorem State.setTeller_regs (s : State) (r : Nat) (f : Teller → Teller) : (s.setTeller r f).regs = s.regs := rfl
@[simp] theorem State.setTeller_hw (s : State) (r : Nat) (f : Teller → Teller) : (s.setTeller r f).hw = s.hw := rfl
@[simp] theorem State.setTeller_arrived (s : State) (r : Nat) (f : Teller → Teller) : (s.setTeller r f).arrived = s.arrived := rfl
@[simp] theorem State.setTeller_act (s : State) (r : Nat) (f : Teller → Teller) : (s.setTeller r f).act = s.act := rfl
@[simp] theorem State.setTeller_old (s : State) (r : Nat) (f : Teller → Teller) : (s.setTeller r f).old = s.old := rfl
@[simp] theorem State.setTeller_thr (s : State) (r : Nat) (f : Teller → Teller) : (s.setTeller r f).thr = s.thr := rfl
@[simp] theorem State.setTeller_clu (s : State) (r : Nat) (f : Teller → Teller) : (s.setTeller r f).clu = s.clu := rfl
@[simp] theorem State.setTeller_locks (s : State) (r : Nat) (f : Teller → Teller) : (s.setTeller r f).locks = s.locks := rfl
@[simp] theorem State.setTeller_chans (s : State) (r : Nat) (f : Teller → Teller) : (s.setTeller r f).chans = s.chans := rfl
@[simp] theorem State.setTeller_cops (s : State) (r : Nat) (f : Teller → Teller) : (s.setTeller r f).cops = s.cops := rfl
@[simp] theorem State.setTeller_lines (s : State) (r : Nat) (f : Teller → Teller) : (s.setTeller r f).lines = s.lines := rfl
@[simp] theorem State.setTeller_spm (s : State) (r : Nat) (f : Teller → Teller) : (s.setTeller r f).spm = s.spm := rfl
@[simp] theorem State.setTeller_spmBad (s : State) (r : Nat) (f : Teller → Teller) : (s.setTeller r f).spmBad = s.spmBad := rfl
@[simp] theorem State.setTeller_cmem (s : State) (r : Nat) (f : Teller → Teller) : (s.setTeller r f).cmem = s.cmem := rfl
@[simp] theorem State.setTeller_dram (s : State) (r : Nat) (f : Teller → Teller) : (s.setTeller r f).dram = s.dram := rfl
@[simp] theorem State.setTeller_linkErr (s : State) (r : Nat) (f : Teller → Teller) : (s.setTeller r f).linkErr = s.linkErr := rfl
@[simp] theorem State.setTeller_trackEnd (s : State) (r : Nat) (f : Teller → Teller) : (s.setTeller r f).trackEnd = s.trackEnd := rfl
@[simp] theorem State.setTeller_fmgq (s : State) (r : Nat) (f : Teller → Teller) : (s.setTeller r f).fmgq = s.fmgq := rfl
@[simp] theorem State.setTeller_flights (s : State) (r : Nat) (f : Teller → Teller) : (s.setTeller r f).flights = s.flights := rfl
@[simp] theorem State.setTeller_tcbs (s : State) (r : Nat) (f : Teller → Teller) : (s.setTeller r f).tcbs = s.tcbs := rfl
@[simp] theorem State.setTeller_tellers (s : State) (r : Nat) (f : Teller → Teller) : (s.setTeller r f).tellers = tUpd (fun _ => Teller.empty) s.tellers r f := rfl
@[simp] theorem State.setTeller_events (s : State) (r : Nat) (f : Teller → Teller) : (s.setTeller r f).events = s.events := rfl
@[simp] theorem State.setTeller_pol (s : State) (r : Nat) (f : Teller → Teller) : (s.setTeller r f).pol = s.pol := rfl
@[simp] theorem State.setTeller_polBad (s : State) (r : Nat) (f : Teller → Teller) : (s.setTeller r f).polBad = s.polBad := rfl
@[simp] theorem State.setTeller_polWas (s : State) (r : Nat) (f : Teller → Teller) : (s.setTeller r f).polWas = s.polWas := rfl
@[simp] theorem State.setTeller_polCnt (s : State) (r : Nat) (f : Teller → Teller) : (s.setTeller r f).polCnt = s.polCnt := rfl
@[simp] theorem State.setTeller_cntAdds (s : State) (r : Nat) (f : Teller → Teller) : (s.setTeller r f).cntAdds = s.cntAdds := rfl
@[simp] theorem State.setTeller_gsa (s : State) (r : Nat) (f : Teller → Teller) : (s.setTeller r f).gsa = s.gsa := rfl
@[simp] theorem State.setTeller_prof (s : State) (r : Nat) (f : Teller → Teller) : (s.setTeller r f).prof = s.prof := rfl
@[simp] theorem State.setTeller_kek (s : State) (r : Nat) (f : Teller → Teller) : (s.setTeller r f).kek = s.kek := rfl
@[simp] theorem State.setTeller_vault (s : State) (r : Nat) (f : Teller → Teller) : (s.setTeller r f).vault = s.vault := rfl
@[simp] theorem State.setTeller_vltBad (s : State) (r : Nat) (f : Teller → Teller) : (s.setTeller r f).vltBad = s.vltBad := rfl
@[simp] theorem State.setTeller_rngAt (s : State) (r : Nat) (f : Teller → Teller) : (s.setTeller r f).rngAt = s.rngAt := rfl
@[simp] theorem State.setTeller_pdies (s : State) (r : Nat) (f : Teller → Teller) : (s.setTeller r f).pdies = s.pdies := rfl
@[simp] theorem State.setTeller_ft (s : State) (r : Nat) (f : Teller → Teller) : (s.setTeller r f).ft = s.ft := rfl
@[simp] theorem State.setTeller_ftBad (s : State) (r : Nat) (f : Teller → Teller) : (s.setTeller r f).ftBad = s.ftBad := rfl
@[simp] theorem State.setTeller_ftWas (s : State) (r : Nat) (f : Teller → Teller) : (s.setTeller r f).ftWas = s.ftWas := rfl
@[simp] theorem State.setTeller_ftHit (s : State) (r : Nat) (f : Teller → Teller) : (s.setTeller r f).ftHit = s.ftHit := rfl
@[simp] theorem State.setTeller_sat (s : State) (r : Nat) (f : Teller → Teller) : (s.setTeller r f).sat = s.sat := rfl
@[simp] theorem State.setTeller_satWas (s : State) (r : Nat) (f : Teller → Teller) : (s.setTeller r f).satWas = s.satWas := rfl
@[simp] theorem State.setTeller_vltWas (s : State) (r : Nat) (f : Teller → Teller) : (s.setTeller r f).vltWas = s.vltWas := rfl
@[simp] theorem State.setTeller_vltGone (s : State) (r : Nat) (f : Teller → Teller) : (s.setTeller r f).vltGone = s.vltGone := rfl
@[simp] theorem State.setTeller_pktMem (s : State) (r : Nat) (f : Teller → Teller) : (s.setTeller r f).pktMem = s.pktMem := rfl
@[simp] theorem State.setTeller_bufs (s : State) (r : Nat) (f : Teller → Teller) : (s.setTeller r f).bufs = s.bufs := rfl
@[simp] theorem State.setTeller_bufBad (s : State) (r : Nat) (f : Teller → Teller) : (s.setTeller r f).bufBad = s.bufBad := rfl
@[simp] theorem State.setTeller_pools (s : State) (r : Nat) (f : Teller → Teller) : (s.setTeller r f).pools = s.pools := rfl
@[simp] theorem State.setTeller_lvlWas (s : State) (r : Nat) (f : Teller → Teller) : (s.setTeller r f).lvlWas = s.lvlWas := rfl
@[simp] theorem State.setTeller_used (s : State) (r : Nat) (f : Teller → Teller) : (s.setTeller r f).used = s.used := rfl
@[simp] theorem State.setTeller_queues (s : State) (r : Nat) (f : Teller → Teller) : (s.setTeller r f).queues = s.queues := rfl
@[simp] theorem State.setTeller_shapers (s : State) (r : Nat) (f : Teller → Teller) : (s.setTeller r f).shapers = s.shapers := rfl
@[simp] theorem State.setTeller_policers (s : State) (r : Nat) (f : Teller → Teller) : (s.setTeller r f).policers = s.policers := rfl
@[simp] theorem State.setTeller_punters (s : State) (r : Nat) (f : Teller → Teller) : (s.setTeller r f).punters = s.punters := rfl
@[simp] theorem State.setTeller_tports (s : State) (r : Nat) (f : Teller → Teller) : (s.setTeller r f).tports = s.tports := rfl
@[simp] theorem State.setTeller_tpl (s : State) (r : Nat) (f : Teller → Teller) : (s.setTeller r f).tpl = s.tpl := rfl
@[simp] theorem State.setTeller_punts (s : State) (r : Nat) (f : Teller → Teller) : (s.setTeller r f).punts = s.punts := rfl
@[simp] theorem State.setTeller_pauses (s : State) (r : Nat) (f : Teller → Teller) : (s.setTeller r f).pauses = s.pauses := rfl
@[simp] theorem State.setTeller_xoffAt (s : State) (r : Nat) (f : Teller → Teller) : (s.setTeller r f).xoffAt = s.xoffAt := rfl
@[simp] theorem State.setTeller_links (s : State) (r : Nat) (f : Teller → Teller) : (s.setTeller r f).links = s.links := rfl
@[simp] theorem State.setTeller_portOff (s : State) (r : Nat) (f : Teller → Teller) : (s.setTeller r f).portOff = s.portOff := rfl
@[simp] theorem State.setTeller_wlocks (s : State) (r : Nat) (f : Teller → Teller) : (s.setTeller r f).wlocks = s.wlocks := rfl
@[simp] theorem State.setTeller_doms (s : State) (r : Nat) (f : Teller → Teller) : (s.setTeller r f).doms = s.doms := rfl
@[simp] theorem State.setTeller_gen (s : State) (r : Nat) (f : Teller → Teller) : (s.setTeller r f).gen = s.gen := rfl
@[simp] theorem State.setTeller_oldLive (s : State) (r : Nat) (f : Teller → Teller) : (s.setTeller r f).oldLive = s.oldLive := rfl
@[simp] theorem State.setTeller_clearAt (s : State) (r : Nat) (f : Teller → Teller) : (s.setTeller r f).clearAt = s.clearAt := rfl
@[simp] theorem State.setTeller_halted (s : State) (r : Nat) (f : Teller → Teller) : (s.setTeller r f).halted = s.halted := rfl
@[simp] theorem State.setTeller_perst (s : State) (r : Nat) (f : Teller → Teller) : (s.setTeller r f).perst = s.perst := rfl
@[simp] theorem State.setTeller_host (s : State) (r : Nat) (f : Teller → Teller) : (s.setTeller r f).host = s.host := rfl
@[simp] theorem State.setTeller_repairs (s : State) (r : Nat) (f : Teller → Teller) : (s.setTeller r f).repairs = s.repairs := rfl
@[simp] theorem State.setTeller_dbg (s : State) (r : Nat) (f : Teller → Teller) : (s.setTeller r f).dbg = s.dbg := rfl
@[simp] theorem State.setTeller_capWr (s : State) (r : Nat) (f : Teller → Teller) : (s.setTeller r f).capWr = s.capWr := rfl
@[simp] theorem State.setTeller_ctxWr (s : State) (r : Nat) (f : Teller → Teller) : (s.setTeller r f).ctxWr = s.ctxWr := rfl
@[simp] theorem State.setTeller_epc (s : State) (r : Nat) (f : Teller → Teller) : (s.setTeller r f).epc = s.epc := rfl
@[simp] theorem State.setTeller_fmg (s : State) (r : Nat) (f : Teller → Teller) : (s.setTeller r f).fmg = s.fmg := rfl
@[simp] theorem State.setTeller_sec (s : State) (r : Nat) (f : Teller → Teller) : (s.setTeller r f).sec = s.sec := rfl
@[simp] theorem State.setTeller_pwr (s : State) (r : Nat) (f : Teller → Teller) : (s.setTeller r f).pwr = s.pwr := rfl
@[simp] theorem State.setTeller_flash (s : State) (r : Nat) (f : Teller → Teller) : (s.setTeller r f).flash = s.flash := rfl
@[simp] theorem State.setTeller_tally (s : State) (r : Nat) (f : Teller → Teller) : (s.setTeller r f).tally = s.tally := rfl
@[simp] theorem State.setTeller_tallyHi (s : State) (r : Nat) (f : Teller → Teller) : (s.setTeller r f).tallyHi = s.tallyHi := rfl
@[simp] theorem State.setTeller_tallyAt (s : State) (r : Nat) (f : Teller → Teller) : (s.setTeller r f).tallyAt = s.tallyAt := rfl
@[simp] theorem State.setTeller_mbxJob (s : State) (r : Nat) (f : Teller → Teller) : (s.setTeller r f).mbxJob = s.mbxJob := rfl
@[simp] theorem State.setTeller_fills (s : State) (r : Nat) (f : Teller → Teller) : (s.setTeller r f).fills = s.fills := rfl
@[simp] theorem State.setTeller_retire (s : State) (r : Nat) (f : Teller → Teller) : (s.setTeller r f).retire = s.retire := rfl
@[simp] theorem State.setTeller_banks (s : State) (r : Nat) (f : Teller → Teller) : (s.setTeller r f).banks = s.banks := rfl
@[simp] theorem State.setTeller_hstFill (s : State) (r : Nat) (f : Teller → Teller) : (s.setTeller r f).hstFill = s.hstFill := rfl
@[simp] theorem State.setTeller_resync (s : State) (r : Nat) (f : Teller → Teller) : (s.setTeller r f).resync = s.resync := rfl
@[simp] theorem State.setTeller_pulled (s : State) (r : Nat) (f : Teller → Teller) : (s.setTeller r f).pulled = s.pulled := rfl
@[simp] theorem State.setTeller_dpairs (s : State) (r : Nat) (f : Teller → Teller) : (s.setTeller r f).dpairs = s.dpairs := rfl
@[simp] theorem State.setTeller_tap (s : State) (r : Nat) (f : Teller → Teller) : (s.setTeller r f).tap = s.tap := rfl

/-! ## State.putQueue -/

@[simp] theorem State.putQueue_now (s : State) (d q : Nat) (x : TmQueue) : (s.putQueue d q x).now = s.now := rfl
@[simp] theorem State.putQueue_clk (s : State) (d q : Nat) (x : TmQueue) : (s.putQueue d q x).clk = s.clk := rfl
@[simp] theorem State.putQueue_tbNum (s : State) (d q : Nat) (x : TmQueue) : (s.putQueue d q x).tbNum = s.tbNum := rfl
@[simp] theorem State.putQueue_tbAt (s : State) (d q : Nat) (x : TmQueue) : (s.putQueue d q x).tbAt = s.tbAt := rfl
@[simp] theorem State.putQueue_tbPast (s : State) (d q : Nat) (x : TmQueue) : (s.putQueue d q x).tbPast = s.tbPast := rfl
@[simp] theorem State.putQueue_draw (s : State) (d q : Nat) (x : TmQueue) : (s.putQueue d q x).draw = s.draw := rfl
@[simp] theorem State.putQueue_pending (s : State) (d q : Nat) (x : TmQueue) : (s.putQueue d q x).pending = s.pending := rfl
@[simp] theorem State.putQueue_out (s : State) (d q : Nat) (x : TmQueue) : (s.putQueue d q x).out = s.out := rfl
@[simp] theorem State.putQueue_regs (s : State) (d q : Nat) (x : TmQueue) : (s.putQueue d q x).regs = s.regs := rfl
@[simp] theorem State.putQueue_hw (s : State) (d q : Nat) (x : TmQueue) : (s.putQueue d q x).hw = s.hw := rfl
@[simp] theorem State.putQueue_arrived (s : State) (d q : Nat) (x : TmQueue) : (s.putQueue d q x).arrived = s.arrived := rfl
@[simp] theorem State.putQueue_act (s : State) (d q : Nat) (x : TmQueue) : (s.putQueue d q x).act = s.act := rfl
@[simp] theorem State.putQueue_old (s : State) (d q : Nat) (x : TmQueue) : (s.putQueue d q x).old = s.old := rfl
@[simp] theorem State.putQueue_thr (s : State) (d q : Nat) (x : TmQueue) : (s.putQueue d q x).thr = s.thr := rfl
@[simp] theorem State.putQueue_clu (s : State) (d q : Nat) (x : TmQueue) : (s.putQueue d q x).clu = s.clu := rfl
@[simp] theorem State.putQueue_locks (s : State) (d q : Nat) (x : TmQueue) : (s.putQueue d q x).locks = s.locks := rfl
@[simp] theorem State.putQueue_chans (s : State) (d q : Nat) (x : TmQueue) : (s.putQueue d q x).chans = s.chans := rfl
@[simp] theorem State.putQueue_cops (s : State) (d q : Nat) (x : TmQueue) : (s.putQueue d q x).cops = s.cops := rfl
@[simp] theorem State.putQueue_lines (s : State) (d q : Nat) (x : TmQueue) : (s.putQueue d q x).lines = s.lines := rfl
@[simp] theorem State.putQueue_spm (s : State) (d q : Nat) (x : TmQueue) : (s.putQueue d q x).spm = s.spm := rfl
@[simp] theorem State.putQueue_spmBad (s : State) (d q : Nat) (x : TmQueue) : (s.putQueue d q x).spmBad = s.spmBad := rfl
@[simp] theorem State.putQueue_cmem (s : State) (d q : Nat) (x : TmQueue) : (s.putQueue d q x).cmem = s.cmem := rfl
@[simp] theorem State.putQueue_dram (s : State) (d q : Nat) (x : TmQueue) : (s.putQueue d q x).dram = s.dram := rfl
@[simp] theorem State.putQueue_linkErr (s : State) (d q : Nat) (x : TmQueue) : (s.putQueue d q x).linkErr = s.linkErr := rfl
@[simp] theorem State.putQueue_trackEnd (s : State) (d q : Nat) (x : TmQueue) : (s.putQueue d q x).trackEnd = s.trackEnd := rfl
@[simp] theorem State.putQueue_fmgq (s : State) (d q : Nat) (x : TmQueue) : (s.putQueue d q x).fmgq = s.fmgq := rfl
@[simp] theorem State.putQueue_flights (s : State) (d q : Nat) (x : TmQueue) : (s.putQueue d q x).flights = s.flights := rfl
@[simp] theorem State.putQueue_tcbs (s : State) (d q : Nat) (x : TmQueue) : (s.putQueue d q x).tcbs = s.tcbs := rfl
@[simp] theorem State.putQueue_tellers (s : State) (d q : Nat) (x : TmQueue) : (s.putQueue d q x).tellers = s.tellers := rfl
@[simp] theorem State.putQueue_events (s : State) (d q : Nat) (x : TmQueue) : (s.putQueue d q x).events = s.events := rfl
@[simp] theorem State.putQueue_pol (s : State) (d q : Nat) (x : TmQueue) : (s.putQueue d q x).pol = s.pol := rfl
@[simp] theorem State.putQueue_polBad (s : State) (d q : Nat) (x : TmQueue) : (s.putQueue d q x).polBad = s.polBad := rfl
@[simp] theorem State.putQueue_polWas (s : State) (d q : Nat) (x : TmQueue) : (s.putQueue d q x).polWas = s.polWas := rfl
@[simp] theorem State.putQueue_polCnt (s : State) (d q : Nat) (x : TmQueue) : (s.putQueue d q x).polCnt = s.polCnt := rfl
@[simp] theorem State.putQueue_cntAdds (s : State) (d q : Nat) (x : TmQueue) : (s.putQueue d q x).cntAdds = s.cntAdds := rfl
@[simp] theorem State.putQueue_gsa (s : State) (d q : Nat) (x : TmQueue) : (s.putQueue d q x).gsa = s.gsa := rfl
@[simp] theorem State.putQueue_prof (s : State) (d q : Nat) (x : TmQueue) : (s.putQueue d q x).prof = s.prof := rfl
@[simp] theorem State.putQueue_kek (s : State) (d q : Nat) (x : TmQueue) : (s.putQueue d q x).kek = s.kek := rfl
@[simp] theorem State.putQueue_vault (s : State) (d q : Nat) (x : TmQueue) : (s.putQueue d q x).vault = s.vault := rfl
@[simp] theorem State.putQueue_vltBad (s : State) (d q : Nat) (x : TmQueue) : (s.putQueue d q x).vltBad = s.vltBad := rfl
@[simp] theorem State.putQueue_rngAt (s : State) (d q : Nat) (x : TmQueue) : (s.putQueue d q x).rngAt = s.rngAt := rfl
@[simp] theorem State.putQueue_pdies (s : State) (d q : Nat) (x : TmQueue) : (s.putQueue d q x).pdies = s.pdies := rfl
@[simp] theorem State.putQueue_ft (s : State) (d q : Nat) (x : TmQueue) : (s.putQueue d q x).ft = s.ft := rfl
@[simp] theorem State.putQueue_ftBad (s : State) (d q : Nat) (x : TmQueue) : (s.putQueue d q x).ftBad = s.ftBad := rfl
@[simp] theorem State.putQueue_ftWas (s : State) (d q : Nat) (x : TmQueue) : (s.putQueue d q x).ftWas = s.ftWas := rfl
@[simp] theorem State.putQueue_ftHit (s : State) (d q : Nat) (x : TmQueue) : (s.putQueue d q x).ftHit = s.ftHit := rfl
@[simp] theorem State.putQueue_sat (s : State) (d q : Nat) (x : TmQueue) : (s.putQueue d q x).sat = s.sat := rfl
@[simp] theorem State.putQueue_satWas (s : State) (d q : Nat) (x : TmQueue) : (s.putQueue d q x).satWas = s.satWas := rfl
@[simp] theorem State.putQueue_vltWas (s : State) (d q : Nat) (x : TmQueue) : (s.putQueue d q x).vltWas = s.vltWas := rfl
@[simp] theorem State.putQueue_vltGone (s : State) (d q : Nat) (x : TmQueue) : (s.putQueue d q x).vltGone = s.vltGone := rfl
@[simp] theorem State.putQueue_pktMem (s : State) (d q : Nat) (x : TmQueue) : (s.putQueue d q x).pktMem = s.pktMem := rfl
@[simp] theorem State.putQueue_bufs (s : State) (d q : Nat) (x : TmQueue) : (s.putQueue d q x).bufs = s.bufs := rfl
@[simp] theorem State.putQueue_bufBad (s : State) (d q : Nat) (x : TmQueue) : (s.putQueue d q x).bufBad = s.bufBad := rfl
@[simp] theorem State.putQueue_pools (s : State) (d q : Nat) (x : TmQueue) : (s.putQueue d q x).pools = s.pools := rfl
@[simp] theorem State.putQueue_lvlWas (s : State) (d q : Nat) (x : TmQueue) : (s.putQueue d q x).lvlWas = s.lvlWas := rfl
@[simp] theorem State.putQueue_used (s : State) (d q : Nat) (x : TmQueue) : (s.putQueue d q x).used = s.used := rfl
@[simp] theorem State.putQueue_queues (s : State) (d q : Nat) (x : TmQueue) : (s.putQueue d q x).queues = tSet (fun _ => TmQueue.fresh) s.queues (d * 32768 + q) x := rfl
@[simp] theorem State.putQueue_shapers (s : State) (d q : Nat) (x : TmQueue) : (s.putQueue d q x).shapers = s.shapers := rfl
@[simp] theorem State.putQueue_policers (s : State) (d q : Nat) (x : TmQueue) : (s.putQueue d q x).policers = s.policers := rfl
@[simp] theorem State.putQueue_punters (s : State) (d q : Nat) (x : TmQueue) : (s.putQueue d q x).punters = s.punters := rfl
@[simp] theorem State.putQueue_tports (s : State) (d q : Nat) (x : TmQueue) : (s.putQueue d q x).tports = s.tports := rfl
@[simp] theorem State.putQueue_tpl (s : State) (d q : Nat) (x : TmQueue) : (s.putQueue d q x).tpl = s.tpl := rfl
@[simp] theorem State.putQueue_punts (s : State) (d q : Nat) (x : TmQueue) : (s.putQueue d q x).punts = s.punts := rfl
@[simp] theorem State.putQueue_pauses (s : State) (d q : Nat) (x : TmQueue) : (s.putQueue d q x).pauses = s.pauses := rfl
@[simp] theorem State.putQueue_xoffAt (s : State) (d q : Nat) (x : TmQueue) : (s.putQueue d q x).xoffAt = s.xoffAt := rfl
@[simp] theorem State.putQueue_links (s : State) (d q : Nat) (x : TmQueue) : (s.putQueue d q x).links = s.links := rfl
@[simp] theorem State.putQueue_portOff (s : State) (d q : Nat) (x : TmQueue) : (s.putQueue d q x).portOff = s.portOff := rfl
@[simp] theorem State.putQueue_wlocks (s : State) (d q : Nat) (x : TmQueue) : (s.putQueue d q x).wlocks = s.wlocks := rfl
@[simp] theorem State.putQueue_doms (s : State) (d q : Nat) (x : TmQueue) : (s.putQueue d q x).doms = s.doms := rfl
@[simp] theorem State.putQueue_gen (s : State) (d q : Nat) (x : TmQueue) : (s.putQueue d q x).gen = s.gen := rfl
@[simp] theorem State.putQueue_oldLive (s : State) (d q : Nat) (x : TmQueue) : (s.putQueue d q x).oldLive = s.oldLive := rfl
@[simp] theorem State.putQueue_clearAt (s : State) (d q : Nat) (x : TmQueue) : (s.putQueue d q x).clearAt = s.clearAt := rfl
@[simp] theorem State.putQueue_halted (s : State) (d q : Nat) (x : TmQueue) : (s.putQueue d q x).halted = s.halted := rfl
@[simp] theorem State.putQueue_perst (s : State) (d q : Nat) (x : TmQueue) : (s.putQueue d q x).perst = s.perst := rfl
@[simp] theorem State.putQueue_host (s : State) (d q : Nat) (x : TmQueue) : (s.putQueue d q x).host = s.host := rfl
@[simp] theorem State.putQueue_repairs (s : State) (d q : Nat) (x : TmQueue) : (s.putQueue d q x).repairs = s.repairs := rfl
@[simp] theorem State.putQueue_dbg (s : State) (d q : Nat) (x : TmQueue) : (s.putQueue d q x).dbg = s.dbg := rfl
@[simp] theorem State.putQueue_capWr (s : State) (d q : Nat) (x : TmQueue) : (s.putQueue d q x).capWr = s.capWr := rfl
@[simp] theorem State.putQueue_ctxWr (s : State) (d q : Nat) (x : TmQueue) : (s.putQueue d q x).ctxWr = s.ctxWr := rfl
@[simp] theorem State.putQueue_epc (s : State) (d q : Nat) (x : TmQueue) : (s.putQueue d q x).epc = s.epc := rfl
@[simp] theorem State.putQueue_fmg (s : State) (d q : Nat) (x : TmQueue) : (s.putQueue d q x).fmg = s.fmg := rfl
@[simp] theorem State.putQueue_sec (s : State) (d q : Nat) (x : TmQueue) : (s.putQueue d q x).sec = s.sec := rfl
@[simp] theorem State.putQueue_pwr (s : State) (d q : Nat) (x : TmQueue) : (s.putQueue d q x).pwr = s.pwr := rfl
@[simp] theorem State.putQueue_flash (s : State) (d q : Nat) (x : TmQueue) : (s.putQueue d q x).flash = s.flash := rfl
@[simp] theorem State.putQueue_tally (s : State) (d q : Nat) (x : TmQueue) : (s.putQueue d q x).tally = s.tally := rfl
@[simp] theorem State.putQueue_tallyHi (s : State) (d q : Nat) (x : TmQueue) : (s.putQueue d q x).tallyHi = s.tallyHi := rfl
@[simp] theorem State.putQueue_tallyAt (s : State) (d q : Nat) (x : TmQueue) : (s.putQueue d q x).tallyAt = s.tallyAt := rfl
@[simp] theorem State.putQueue_mbxJob (s : State) (d q : Nat) (x : TmQueue) : (s.putQueue d q x).mbxJob = s.mbxJob := rfl
@[simp] theorem State.putQueue_fills (s : State) (d q : Nat) (x : TmQueue) : (s.putQueue d q x).fills = s.fills := rfl
@[simp] theorem State.putQueue_retire (s : State) (d q : Nat) (x : TmQueue) : (s.putQueue d q x).retire = s.retire := rfl
@[simp] theorem State.putQueue_banks (s : State) (d q : Nat) (x : TmQueue) : (s.putQueue d q x).banks = s.banks := rfl
@[simp] theorem State.putQueue_hstFill (s : State) (d q : Nat) (x : TmQueue) : (s.putQueue d q x).hstFill = s.hstFill := rfl
@[simp] theorem State.putQueue_resync (s : State) (d q : Nat) (x : TmQueue) : (s.putQueue d q x).resync = s.resync := rfl
@[simp] theorem State.putQueue_pulled (s : State) (d q : Nat) (x : TmQueue) : (s.putQueue d q x).pulled = s.pulled := rfl
@[simp] theorem State.putQueue_dpairs (s : State) (d q : Nat) (x : TmQueue) : (s.putQueue d q x).dpairs = s.dpairs := rfl
@[simp] theorem State.putQueue_tap (s : State) (d q : Nat) (x : TmQueue) : (s.putQueue d q x).tap = s.tap := rfl

/-! ## State.putShaper -/

@[simp] theorem State.putShaper_now (s : State) (d i : Nat) (b : Bucket) : (s.putShaper d i b).now = s.now := rfl
@[simp] theorem State.putShaper_clk (s : State) (d i : Nat) (b : Bucket) : (s.putShaper d i b).clk = s.clk := rfl
@[simp] theorem State.putShaper_tbNum (s : State) (d i : Nat) (b : Bucket) : (s.putShaper d i b).tbNum = s.tbNum := rfl
@[simp] theorem State.putShaper_tbAt (s : State) (d i : Nat) (b : Bucket) : (s.putShaper d i b).tbAt = s.tbAt := rfl
@[simp] theorem State.putShaper_tbPast (s : State) (d i : Nat) (b : Bucket) : (s.putShaper d i b).tbPast = s.tbPast := rfl
@[simp] theorem State.putShaper_draw (s : State) (d i : Nat) (b : Bucket) : (s.putShaper d i b).draw = s.draw := rfl
@[simp] theorem State.putShaper_pending (s : State) (d i : Nat) (b : Bucket) : (s.putShaper d i b).pending = s.pending := rfl
@[simp] theorem State.putShaper_out (s : State) (d i : Nat) (b : Bucket) : (s.putShaper d i b).out = s.out := rfl
@[simp] theorem State.putShaper_regs (s : State) (d i : Nat) (b : Bucket) : (s.putShaper d i b).regs = s.regs := rfl
@[simp] theorem State.putShaper_hw (s : State) (d i : Nat) (b : Bucket) : (s.putShaper d i b).hw = s.hw := rfl
@[simp] theorem State.putShaper_arrived (s : State) (d i : Nat) (b : Bucket) : (s.putShaper d i b).arrived = s.arrived := rfl
@[simp] theorem State.putShaper_act (s : State) (d i : Nat) (b : Bucket) : (s.putShaper d i b).act = s.act := rfl
@[simp] theorem State.putShaper_old (s : State) (d i : Nat) (b : Bucket) : (s.putShaper d i b).old = s.old := rfl
@[simp] theorem State.putShaper_thr (s : State) (d i : Nat) (b : Bucket) : (s.putShaper d i b).thr = s.thr := rfl
@[simp] theorem State.putShaper_clu (s : State) (d i : Nat) (b : Bucket) : (s.putShaper d i b).clu = s.clu := rfl
@[simp] theorem State.putShaper_locks (s : State) (d i : Nat) (b : Bucket) : (s.putShaper d i b).locks = s.locks := rfl
@[simp] theorem State.putShaper_chans (s : State) (d i : Nat) (b : Bucket) : (s.putShaper d i b).chans = s.chans := rfl
@[simp] theorem State.putShaper_cops (s : State) (d i : Nat) (b : Bucket) : (s.putShaper d i b).cops = s.cops := rfl
@[simp] theorem State.putShaper_lines (s : State) (d i : Nat) (b : Bucket) : (s.putShaper d i b).lines = s.lines := rfl
@[simp] theorem State.putShaper_spm (s : State) (d i : Nat) (b : Bucket) : (s.putShaper d i b).spm = s.spm := rfl
@[simp] theorem State.putShaper_spmBad (s : State) (d i : Nat) (b : Bucket) : (s.putShaper d i b).spmBad = s.spmBad := rfl
@[simp] theorem State.putShaper_cmem (s : State) (d i : Nat) (b : Bucket) : (s.putShaper d i b).cmem = s.cmem := rfl
@[simp] theorem State.putShaper_dram (s : State) (d i : Nat) (b : Bucket) : (s.putShaper d i b).dram = s.dram := rfl
@[simp] theorem State.putShaper_linkErr (s : State) (d i : Nat) (b : Bucket) : (s.putShaper d i b).linkErr = s.linkErr := rfl
@[simp] theorem State.putShaper_trackEnd (s : State) (d i : Nat) (b : Bucket) : (s.putShaper d i b).trackEnd = s.trackEnd := rfl
@[simp] theorem State.putShaper_fmgq (s : State) (d i : Nat) (b : Bucket) : (s.putShaper d i b).fmgq = s.fmgq := rfl
@[simp] theorem State.putShaper_flights (s : State) (d i : Nat) (b : Bucket) : (s.putShaper d i b).flights = s.flights := rfl
@[simp] theorem State.putShaper_tcbs (s : State) (d i : Nat) (b : Bucket) : (s.putShaper d i b).tcbs = s.tcbs := rfl
@[simp] theorem State.putShaper_tellers (s : State) (d i : Nat) (b : Bucket) : (s.putShaper d i b).tellers = s.tellers := rfl
@[simp] theorem State.putShaper_events (s : State) (d i : Nat) (b : Bucket) : (s.putShaper d i b).events = s.events := rfl
@[simp] theorem State.putShaper_pol (s : State) (d i : Nat) (b : Bucket) : (s.putShaper d i b).pol = s.pol := rfl
@[simp] theorem State.putShaper_polBad (s : State) (d i : Nat) (b : Bucket) : (s.putShaper d i b).polBad = s.polBad := rfl
@[simp] theorem State.putShaper_polWas (s : State) (d i : Nat) (b : Bucket) : (s.putShaper d i b).polWas = s.polWas := rfl
@[simp] theorem State.putShaper_polCnt (s : State) (d i : Nat) (b : Bucket) : (s.putShaper d i b).polCnt = s.polCnt := rfl
@[simp] theorem State.putShaper_cntAdds (s : State) (d i : Nat) (b : Bucket) : (s.putShaper d i b).cntAdds = s.cntAdds := rfl
@[simp] theorem State.putShaper_gsa (s : State) (d i : Nat) (b : Bucket) : (s.putShaper d i b).gsa = s.gsa := rfl
@[simp] theorem State.putShaper_prof (s : State) (d i : Nat) (b : Bucket) : (s.putShaper d i b).prof = s.prof := rfl
@[simp] theorem State.putShaper_kek (s : State) (d i : Nat) (b : Bucket) : (s.putShaper d i b).kek = s.kek := rfl
@[simp] theorem State.putShaper_vault (s : State) (d i : Nat) (b : Bucket) : (s.putShaper d i b).vault = s.vault := rfl
@[simp] theorem State.putShaper_vltBad (s : State) (d i : Nat) (b : Bucket) : (s.putShaper d i b).vltBad = s.vltBad := rfl
@[simp] theorem State.putShaper_rngAt (s : State) (d i : Nat) (b : Bucket) : (s.putShaper d i b).rngAt = s.rngAt := rfl
@[simp] theorem State.putShaper_pdies (s : State) (d i : Nat) (b : Bucket) : (s.putShaper d i b).pdies = s.pdies := rfl
@[simp] theorem State.putShaper_ft (s : State) (d i : Nat) (b : Bucket) : (s.putShaper d i b).ft = s.ft := rfl
@[simp] theorem State.putShaper_ftBad (s : State) (d i : Nat) (b : Bucket) : (s.putShaper d i b).ftBad = s.ftBad := rfl
@[simp] theorem State.putShaper_ftWas (s : State) (d i : Nat) (b : Bucket) : (s.putShaper d i b).ftWas = s.ftWas := rfl
@[simp] theorem State.putShaper_ftHit (s : State) (d i : Nat) (b : Bucket) : (s.putShaper d i b).ftHit = s.ftHit := rfl
@[simp] theorem State.putShaper_sat (s : State) (d i : Nat) (b : Bucket) : (s.putShaper d i b).sat = s.sat := rfl
@[simp] theorem State.putShaper_satWas (s : State) (d i : Nat) (b : Bucket) : (s.putShaper d i b).satWas = s.satWas := rfl
@[simp] theorem State.putShaper_vltWas (s : State) (d i : Nat) (b : Bucket) : (s.putShaper d i b).vltWas = s.vltWas := rfl
@[simp] theorem State.putShaper_vltGone (s : State) (d i : Nat) (b : Bucket) : (s.putShaper d i b).vltGone = s.vltGone := rfl
@[simp] theorem State.putShaper_pktMem (s : State) (d i : Nat) (b : Bucket) : (s.putShaper d i b).pktMem = s.pktMem := rfl
@[simp] theorem State.putShaper_bufs (s : State) (d i : Nat) (b : Bucket) : (s.putShaper d i b).bufs = s.bufs := rfl
@[simp] theorem State.putShaper_bufBad (s : State) (d i : Nat) (b : Bucket) : (s.putShaper d i b).bufBad = s.bufBad := rfl
@[simp] theorem State.putShaper_pools (s : State) (d i : Nat) (b : Bucket) : (s.putShaper d i b).pools = s.pools := rfl
@[simp] theorem State.putShaper_lvlWas (s : State) (d i : Nat) (b : Bucket) : (s.putShaper d i b).lvlWas = s.lvlWas := rfl
@[simp] theorem State.putShaper_used (s : State) (d i : Nat) (b : Bucket) : (s.putShaper d i b).used = s.used := rfl
@[simp] theorem State.putShaper_queues (s : State) (d i : Nat) (b : Bucket) : (s.putShaper d i b).queues = s.queues := rfl
@[simp] theorem State.putShaper_shapers (s : State) (d i : Nat) (b : Bucket) : (s.putShaper d i b).shapers = tSet (fun _ => Bucket.fresh) s.shapers (d * 8192 + i) b := rfl
@[simp] theorem State.putShaper_policers (s : State) (d i : Nat) (b : Bucket) : (s.putShaper d i b).policers = s.policers := rfl
@[simp] theorem State.putShaper_punters (s : State) (d i : Nat) (b : Bucket) : (s.putShaper d i b).punters = s.punters := rfl
@[simp] theorem State.putShaper_tports (s : State) (d i : Nat) (b : Bucket) : (s.putShaper d i b).tports = s.tports := rfl
@[simp] theorem State.putShaper_tpl (s : State) (d i : Nat) (b : Bucket) : (s.putShaper d i b).tpl = s.tpl := rfl
@[simp] theorem State.putShaper_punts (s : State) (d i : Nat) (b : Bucket) : (s.putShaper d i b).punts = s.punts := rfl
@[simp] theorem State.putShaper_pauses (s : State) (d i : Nat) (b : Bucket) : (s.putShaper d i b).pauses = s.pauses := rfl
@[simp] theorem State.putShaper_xoffAt (s : State) (d i : Nat) (b : Bucket) : (s.putShaper d i b).xoffAt = s.xoffAt := rfl
@[simp] theorem State.putShaper_links (s : State) (d i : Nat) (b : Bucket) : (s.putShaper d i b).links = s.links := rfl
@[simp] theorem State.putShaper_portOff (s : State) (d i : Nat) (b : Bucket) : (s.putShaper d i b).portOff = s.portOff := rfl
@[simp] theorem State.putShaper_wlocks (s : State) (d i : Nat) (b : Bucket) : (s.putShaper d i b).wlocks = s.wlocks := rfl
@[simp] theorem State.putShaper_doms (s : State) (d i : Nat) (b : Bucket) : (s.putShaper d i b).doms = s.doms := rfl
@[simp] theorem State.putShaper_gen (s : State) (d i : Nat) (b : Bucket) : (s.putShaper d i b).gen = s.gen := rfl
@[simp] theorem State.putShaper_oldLive (s : State) (d i : Nat) (b : Bucket) : (s.putShaper d i b).oldLive = s.oldLive := rfl
@[simp] theorem State.putShaper_clearAt (s : State) (d i : Nat) (b : Bucket) : (s.putShaper d i b).clearAt = s.clearAt := rfl
@[simp] theorem State.putShaper_halted (s : State) (d i : Nat) (b : Bucket) : (s.putShaper d i b).halted = s.halted := rfl
@[simp] theorem State.putShaper_perst (s : State) (d i : Nat) (b : Bucket) : (s.putShaper d i b).perst = s.perst := rfl
@[simp] theorem State.putShaper_host (s : State) (d i : Nat) (b : Bucket) : (s.putShaper d i b).host = s.host := rfl
@[simp] theorem State.putShaper_repairs (s : State) (d i : Nat) (b : Bucket) : (s.putShaper d i b).repairs = s.repairs := rfl
@[simp] theorem State.putShaper_dbg (s : State) (d i : Nat) (b : Bucket) : (s.putShaper d i b).dbg = s.dbg := rfl
@[simp] theorem State.putShaper_capWr (s : State) (d i : Nat) (b : Bucket) : (s.putShaper d i b).capWr = s.capWr := rfl
@[simp] theorem State.putShaper_ctxWr (s : State) (d i : Nat) (b : Bucket) : (s.putShaper d i b).ctxWr = s.ctxWr := rfl
@[simp] theorem State.putShaper_epc (s : State) (d i : Nat) (b : Bucket) : (s.putShaper d i b).epc = s.epc := rfl
@[simp] theorem State.putShaper_fmg (s : State) (d i : Nat) (b : Bucket) : (s.putShaper d i b).fmg = s.fmg := rfl
@[simp] theorem State.putShaper_sec (s : State) (d i : Nat) (b : Bucket) : (s.putShaper d i b).sec = s.sec := rfl
@[simp] theorem State.putShaper_pwr (s : State) (d i : Nat) (b : Bucket) : (s.putShaper d i b).pwr = s.pwr := rfl
@[simp] theorem State.putShaper_flash (s : State) (d i : Nat) (b : Bucket) : (s.putShaper d i b).flash = s.flash := rfl
@[simp] theorem State.putShaper_tally (s : State) (d i : Nat) (b : Bucket) : (s.putShaper d i b).tally = s.tally := rfl
@[simp] theorem State.putShaper_tallyHi (s : State) (d i : Nat) (b : Bucket) : (s.putShaper d i b).tallyHi = s.tallyHi := rfl
@[simp] theorem State.putShaper_tallyAt (s : State) (d i : Nat) (b : Bucket) : (s.putShaper d i b).tallyAt = s.tallyAt := rfl
@[simp] theorem State.putShaper_mbxJob (s : State) (d i : Nat) (b : Bucket) : (s.putShaper d i b).mbxJob = s.mbxJob := rfl
@[simp] theorem State.putShaper_fills (s : State) (d i : Nat) (b : Bucket) : (s.putShaper d i b).fills = s.fills := rfl
@[simp] theorem State.putShaper_retire (s : State) (d i : Nat) (b : Bucket) : (s.putShaper d i b).retire = s.retire := rfl
@[simp] theorem State.putShaper_banks (s : State) (d i : Nat) (b : Bucket) : (s.putShaper d i b).banks = s.banks := rfl
@[simp] theorem State.putShaper_hstFill (s : State) (d i : Nat) (b : Bucket) : (s.putShaper d i b).hstFill = s.hstFill := rfl
@[simp] theorem State.putShaper_resync (s : State) (d i : Nat) (b : Bucket) : (s.putShaper d i b).resync = s.resync := rfl
@[simp] theorem State.putShaper_pulled (s : State) (d i : Nat) (b : Bucket) : (s.putShaper d i b).pulled = s.pulled := rfl
@[simp] theorem State.putShaper_dpairs (s : State) (d i : Nat) (b : Bucket) : (s.putShaper d i b).dpairs = s.dpairs := rfl
@[simp] theorem State.putShaper_tap (s : State) (d i : Nat) (b : Bucket) : (s.putShaper d i b).tap = s.tap := rfl

/-! ## State.putPolicer -/

@[simp] theorem State.putPolicer_now (s : State) (d i : Nat) (b : Bucket) : (s.putPolicer d i b).now = s.now := rfl
@[simp] theorem State.putPolicer_clk (s : State) (d i : Nat) (b : Bucket) : (s.putPolicer d i b).clk = s.clk := rfl
@[simp] theorem State.putPolicer_tbNum (s : State) (d i : Nat) (b : Bucket) : (s.putPolicer d i b).tbNum = s.tbNum := rfl
@[simp] theorem State.putPolicer_tbAt (s : State) (d i : Nat) (b : Bucket) : (s.putPolicer d i b).tbAt = s.tbAt := rfl
@[simp] theorem State.putPolicer_tbPast (s : State) (d i : Nat) (b : Bucket) : (s.putPolicer d i b).tbPast = s.tbPast := rfl
@[simp] theorem State.putPolicer_draw (s : State) (d i : Nat) (b : Bucket) : (s.putPolicer d i b).draw = s.draw := rfl
@[simp] theorem State.putPolicer_pending (s : State) (d i : Nat) (b : Bucket) : (s.putPolicer d i b).pending = s.pending := rfl
@[simp] theorem State.putPolicer_out (s : State) (d i : Nat) (b : Bucket) : (s.putPolicer d i b).out = s.out := rfl
@[simp] theorem State.putPolicer_regs (s : State) (d i : Nat) (b : Bucket) : (s.putPolicer d i b).regs = s.regs := rfl
@[simp] theorem State.putPolicer_hw (s : State) (d i : Nat) (b : Bucket) : (s.putPolicer d i b).hw = s.hw := rfl
@[simp] theorem State.putPolicer_arrived (s : State) (d i : Nat) (b : Bucket) : (s.putPolicer d i b).arrived = s.arrived := rfl
@[simp] theorem State.putPolicer_act (s : State) (d i : Nat) (b : Bucket) : (s.putPolicer d i b).act = s.act := rfl
@[simp] theorem State.putPolicer_old (s : State) (d i : Nat) (b : Bucket) : (s.putPolicer d i b).old = s.old := rfl
@[simp] theorem State.putPolicer_thr (s : State) (d i : Nat) (b : Bucket) : (s.putPolicer d i b).thr = s.thr := rfl
@[simp] theorem State.putPolicer_clu (s : State) (d i : Nat) (b : Bucket) : (s.putPolicer d i b).clu = s.clu := rfl
@[simp] theorem State.putPolicer_locks (s : State) (d i : Nat) (b : Bucket) : (s.putPolicer d i b).locks = s.locks := rfl
@[simp] theorem State.putPolicer_chans (s : State) (d i : Nat) (b : Bucket) : (s.putPolicer d i b).chans = s.chans := rfl
@[simp] theorem State.putPolicer_cops (s : State) (d i : Nat) (b : Bucket) : (s.putPolicer d i b).cops = s.cops := rfl
@[simp] theorem State.putPolicer_lines (s : State) (d i : Nat) (b : Bucket) : (s.putPolicer d i b).lines = s.lines := rfl
@[simp] theorem State.putPolicer_spm (s : State) (d i : Nat) (b : Bucket) : (s.putPolicer d i b).spm = s.spm := rfl
@[simp] theorem State.putPolicer_spmBad (s : State) (d i : Nat) (b : Bucket) : (s.putPolicer d i b).spmBad = s.spmBad := rfl
@[simp] theorem State.putPolicer_cmem (s : State) (d i : Nat) (b : Bucket) : (s.putPolicer d i b).cmem = s.cmem := rfl
@[simp] theorem State.putPolicer_dram (s : State) (d i : Nat) (b : Bucket) : (s.putPolicer d i b).dram = s.dram := rfl
@[simp] theorem State.putPolicer_linkErr (s : State) (d i : Nat) (b : Bucket) : (s.putPolicer d i b).linkErr = s.linkErr := rfl
@[simp] theorem State.putPolicer_trackEnd (s : State) (d i : Nat) (b : Bucket) : (s.putPolicer d i b).trackEnd = s.trackEnd := rfl
@[simp] theorem State.putPolicer_fmgq (s : State) (d i : Nat) (b : Bucket) : (s.putPolicer d i b).fmgq = s.fmgq := rfl
@[simp] theorem State.putPolicer_flights (s : State) (d i : Nat) (b : Bucket) : (s.putPolicer d i b).flights = s.flights := rfl
@[simp] theorem State.putPolicer_tcbs (s : State) (d i : Nat) (b : Bucket) : (s.putPolicer d i b).tcbs = s.tcbs := rfl
@[simp] theorem State.putPolicer_tellers (s : State) (d i : Nat) (b : Bucket) : (s.putPolicer d i b).tellers = s.tellers := rfl
@[simp] theorem State.putPolicer_events (s : State) (d i : Nat) (b : Bucket) : (s.putPolicer d i b).events = s.events := rfl
@[simp] theorem State.putPolicer_pol (s : State) (d i : Nat) (b : Bucket) : (s.putPolicer d i b).pol = s.pol := rfl
@[simp] theorem State.putPolicer_polBad (s : State) (d i : Nat) (b : Bucket) : (s.putPolicer d i b).polBad = s.polBad := rfl
@[simp] theorem State.putPolicer_polWas (s : State) (d i : Nat) (b : Bucket) : (s.putPolicer d i b).polWas = s.polWas := rfl
@[simp] theorem State.putPolicer_polCnt (s : State) (d i : Nat) (b : Bucket) : (s.putPolicer d i b).polCnt = s.polCnt := rfl
@[simp] theorem State.putPolicer_cntAdds (s : State) (d i : Nat) (b : Bucket) : (s.putPolicer d i b).cntAdds = s.cntAdds := rfl
@[simp] theorem State.putPolicer_gsa (s : State) (d i : Nat) (b : Bucket) : (s.putPolicer d i b).gsa = s.gsa := rfl
@[simp] theorem State.putPolicer_prof (s : State) (d i : Nat) (b : Bucket) : (s.putPolicer d i b).prof = s.prof := rfl
@[simp] theorem State.putPolicer_kek (s : State) (d i : Nat) (b : Bucket) : (s.putPolicer d i b).kek = s.kek := rfl
@[simp] theorem State.putPolicer_vault (s : State) (d i : Nat) (b : Bucket) : (s.putPolicer d i b).vault = s.vault := rfl
@[simp] theorem State.putPolicer_vltBad (s : State) (d i : Nat) (b : Bucket) : (s.putPolicer d i b).vltBad = s.vltBad := rfl
@[simp] theorem State.putPolicer_rngAt (s : State) (d i : Nat) (b : Bucket) : (s.putPolicer d i b).rngAt = s.rngAt := rfl
@[simp] theorem State.putPolicer_pdies (s : State) (d i : Nat) (b : Bucket) : (s.putPolicer d i b).pdies = s.pdies := rfl
@[simp] theorem State.putPolicer_ft (s : State) (d i : Nat) (b : Bucket) : (s.putPolicer d i b).ft = s.ft := rfl
@[simp] theorem State.putPolicer_ftBad (s : State) (d i : Nat) (b : Bucket) : (s.putPolicer d i b).ftBad = s.ftBad := rfl
@[simp] theorem State.putPolicer_ftWas (s : State) (d i : Nat) (b : Bucket) : (s.putPolicer d i b).ftWas = s.ftWas := rfl
@[simp] theorem State.putPolicer_ftHit (s : State) (d i : Nat) (b : Bucket) : (s.putPolicer d i b).ftHit = s.ftHit := rfl
@[simp] theorem State.putPolicer_sat (s : State) (d i : Nat) (b : Bucket) : (s.putPolicer d i b).sat = s.sat := rfl
@[simp] theorem State.putPolicer_satWas (s : State) (d i : Nat) (b : Bucket) : (s.putPolicer d i b).satWas = s.satWas := rfl
@[simp] theorem State.putPolicer_vltWas (s : State) (d i : Nat) (b : Bucket) : (s.putPolicer d i b).vltWas = s.vltWas := rfl
@[simp] theorem State.putPolicer_vltGone (s : State) (d i : Nat) (b : Bucket) : (s.putPolicer d i b).vltGone = s.vltGone := rfl
@[simp] theorem State.putPolicer_pktMem (s : State) (d i : Nat) (b : Bucket) : (s.putPolicer d i b).pktMem = s.pktMem := rfl
@[simp] theorem State.putPolicer_bufs (s : State) (d i : Nat) (b : Bucket) : (s.putPolicer d i b).bufs = s.bufs := rfl
@[simp] theorem State.putPolicer_bufBad (s : State) (d i : Nat) (b : Bucket) : (s.putPolicer d i b).bufBad = s.bufBad := rfl
@[simp] theorem State.putPolicer_pools (s : State) (d i : Nat) (b : Bucket) : (s.putPolicer d i b).pools = s.pools := rfl
@[simp] theorem State.putPolicer_lvlWas (s : State) (d i : Nat) (b : Bucket) : (s.putPolicer d i b).lvlWas = s.lvlWas := rfl
@[simp] theorem State.putPolicer_used (s : State) (d i : Nat) (b : Bucket) : (s.putPolicer d i b).used = s.used := rfl
@[simp] theorem State.putPolicer_queues (s : State) (d i : Nat) (b : Bucket) : (s.putPolicer d i b).queues = s.queues := rfl
@[simp] theorem State.putPolicer_shapers (s : State) (d i : Nat) (b : Bucket) : (s.putPolicer d i b).shapers = s.shapers := rfl
@[simp] theorem State.putPolicer_policers (s : State) (d i : Nat) (b : Bucket) : (s.putPolicer d i b).policers = tSet (fun _ => Bucket.fresh) s.policers (d * 8192 + i) b := rfl
@[simp] theorem State.putPolicer_punters (s : State) (d i : Nat) (b : Bucket) : (s.putPolicer d i b).punters = s.punters := rfl
@[simp] theorem State.putPolicer_tports (s : State) (d i : Nat) (b : Bucket) : (s.putPolicer d i b).tports = s.tports := rfl
@[simp] theorem State.putPolicer_tpl (s : State) (d i : Nat) (b : Bucket) : (s.putPolicer d i b).tpl = s.tpl := rfl
@[simp] theorem State.putPolicer_punts (s : State) (d i : Nat) (b : Bucket) : (s.putPolicer d i b).punts = s.punts := rfl
@[simp] theorem State.putPolicer_pauses (s : State) (d i : Nat) (b : Bucket) : (s.putPolicer d i b).pauses = s.pauses := rfl
@[simp] theorem State.putPolicer_xoffAt (s : State) (d i : Nat) (b : Bucket) : (s.putPolicer d i b).xoffAt = s.xoffAt := rfl
@[simp] theorem State.putPolicer_links (s : State) (d i : Nat) (b : Bucket) : (s.putPolicer d i b).links = s.links := rfl
@[simp] theorem State.putPolicer_portOff (s : State) (d i : Nat) (b : Bucket) : (s.putPolicer d i b).portOff = s.portOff := rfl
@[simp] theorem State.putPolicer_wlocks (s : State) (d i : Nat) (b : Bucket) : (s.putPolicer d i b).wlocks = s.wlocks := rfl
@[simp] theorem State.putPolicer_doms (s : State) (d i : Nat) (b : Bucket) : (s.putPolicer d i b).doms = s.doms := rfl
@[simp] theorem State.putPolicer_gen (s : State) (d i : Nat) (b : Bucket) : (s.putPolicer d i b).gen = s.gen := rfl
@[simp] theorem State.putPolicer_oldLive (s : State) (d i : Nat) (b : Bucket) : (s.putPolicer d i b).oldLive = s.oldLive := rfl
@[simp] theorem State.putPolicer_clearAt (s : State) (d i : Nat) (b : Bucket) : (s.putPolicer d i b).clearAt = s.clearAt := rfl
@[simp] theorem State.putPolicer_halted (s : State) (d i : Nat) (b : Bucket) : (s.putPolicer d i b).halted = s.halted := rfl
@[simp] theorem State.putPolicer_perst (s : State) (d i : Nat) (b : Bucket) : (s.putPolicer d i b).perst = s.perst := rfl
@[simp] theorem State.putPolicer_host (s : State) (d i : Nat) (b : Bucket) : (s.putPolicer d i b).host = s.host := rfl
@[simp] theorem State.putPolicer_repairs (s : State) (d i : Nat) (b : Bucket) : (s.putPolicer d i b).repairs = s.repairs := rfl
@[simp] theorem State.putPolicer_dbg (s : State) (d i : Nat) (b : Bucket) : (s.putPolicer d i b).dbg = s.dbg := rfl
@[simp] theorem State.putPolicer_capWr (s : State) (d i : Nat) (b : Bucket) : (s.putPolicer d i b).capWr = s.capWr := rfl
@[simp] theorem State.putPolicer_ctxWr (s : State) (d i : Nat) (b : Bucket) : (s.putPolicer d i b).ctxWr = s.ctxWr := rfl
@[simp] theorem State.putPolicer_epc (s : State) (d i : Nat) (b : Bucket) : (s.putPolicer d i b).epc = s.epc := rfl
@[simp] theorem State.putPolicer_fmg (s : State) (d i : Nat) (b : Bucket) : (s.putPolicer d i b).fmg = s.fmg := rfl
@[simp] theorem State.putPolicer_sec (s : State) (d i : Nat) (b : Bucket) : (s.putPolicer d i b).sec = s.sec := rfl
@[simp] theorem State.putPolicer_pwr (s : State) (d i : Nat) (b : Bucket) : (s.putPolicer d i b).pwr = s.pwr := rfl
@[simp] theorem State.putPolicer_flash (s : State) (d i : Nat) (b : Bucket) : (s.putPolicer d i b).flash = s.flash := rfl
@[simp] theorem State.putPolicer_tally (s : State) (d i : Nat) (b : Bucket) : (s.putPolicer d i b).tally = s.tally := rfl
@[simp] theorem State.putPolicer_tallyHi (s : State) (d i : Nat) (b : Bucket) : (s.putPolicer d i b).tallyHi = s.tallyHi := rfl
@[simp] theorem State.putPolicer_tallyAt (s : State) (d i : Nat) (b : Bucket) : (s.putPolicer d i b).tallyAt = s.tallyAt := rfl
@[simp] theorem State.putPolicer_mbxJob (s : State) (d i : Nat) (b : Bucket) : (s.putPolicer d i b).mbxJob = s.mbxJob := rfl
@[simp] theorem State.putPolicer_fills (s : State) (d i : Nat) (b : Bucket) : (s.putPolicer d i b).fills = s.fills := rfl
@[simp] theorem State.putPolicer_retire (s : State) (d i : Nat) (b : Bucket) : (s.putPolicer d i b).retire = s.retire := rfl
@[simp] theorem State.putPolicer_banks (s : State) (d i : Nat) (b : Bucket) : (s.putPolicer d i b).banks = s.banks := rfl
@[simp] theorem State.putPolicer_hstFill (s : State) (d i : Nat) (b : Bucket) : (s.putPolicer d i b).hstFill = s.hstFill := rfl
@[simp] theorem State.putPolicer_resync (s : State) (d i : Nat) (b : Bucket) : (s.putPolicer d i b).resync = s.resync := rfl
@[simp] theorem State.putPolicer_pulled (s : State) (d i : Nat) (b : Bucket) : (s.putPolicer d i b).pulled = s.pulled := rfl
@[simp] theorem State.putPolicer_dpairs (s : State) (d i : Nat) (b : Bucket) : (s.putPolicer d i b).dpairs = s.dpairs := rfl
@[simp] theorem State.putPolicer_tap (s : State) (d i : Nat) (b : Bucket) : (s.putPolicer d i b).tap = s.tap := rfl

/-! ## State.putTport -/

@[simp] theorem State.putTport_now (s : State) (d i : Nat) (p : TmPort) : (s.putTport d i p).now = s.now := rfl
@[simp] theorem State.putTport_clk (s : State) (d i : Nat) (p : TmPort) : (s.putTport d i p).clk = s.clk := rfl
@[simp] theorem State.putTport_tbNum (s : State) (d i : Nat) (p : TmPort) : (s.putTport d i p).tbNum = s.tbNum := rfl
@[simp] theorem State.putTport_tbAt (s : State) (d i : Nat) (p : TmPort) : (s.putTport d i p).tbAt = s.tbAt := rfl
@[simp] theorem State.putTport_tbPast (s : State) (d i : Nat) (p : TmPort) : (s.putTport d i p).tbPast = s.tbPast := rfl
@[simp] theorem State.putTport_draw (s : State) (d i : Nat) (p : TmPort) : (s.putTport d i p).draw = s.draw := rfl
@[simp] theorem State.putTport_pending (s : State) (d i : Nat) (p : TmPort) : (s.putTport d i p).pending = s.pending := rfl
@[simp] theorem State.putTport_out (s : State) (d i : Nat) (p : TmPort) : (s.putTport d i p).out = s.out := rfl
@[simp] theorem State.putTport_regs (s : State) (d i : Nat) (p : TmPort) : (s.putTport d i p).regs = s.regs := rfl
@[simp] theorem State.putTport_hw (s : State) (d i : Nat) (p : TmPort) : (s.putTport d i p).hw = s.hw := rfl
@[simp] theorem State.putTport_arrived (s : State) (d i : Nat) (p : TmPort) : (s.putTport d i p).arrived = s.arrived := rfl
@[simp] theorem State.putTport_act (s : State) (d i : Nat) (p : TmPort) : (s.putTport d i p).act = s.act := rfl
@[simp] theorem State.putTport_old (s : State) (d i : Nat) (p : TmPort) : (s.putTport d i p).old = s.old := rfl
@[simp] theorem State.putTport_thr (s : State) (d i : Nat) (p : TmPort) : (s.putTport d i p).thr = s.thr := rfl
@[simp] theorem State.putTport_clu (s : State) (d i : Nat) (p : TmPort) : (s.putTport d i p).clu = s.clu := rfl
@[simp] theorem State.putTport_locks (s : State) (d i : Nat) (p : TmPort) : (s.putTport d i p).locks = s.locks := rfl
@[simp] theorem State.putTport_chans (s : State) (d i : Nat) (p : TmPort) : (s.putTport d i p).chans = s.chans := rfl
@[simp] theorem State.putTport_cops (s : State) (d i : Nat) (p : TmPort) : (s.putTport d i p).cops = s.cops := rfl
@[simp] theorem State.putTport_lines (s : State) (d i : Nat) (p : TmPort) : (s.putTport d i p).lines = s.lines := rfl
@[simp] theorem State.putTport_spm (s : State) (d i : Nat) (p : TmPort) : (s.putTport d i p).spm = s.spm := rfl
@[simp] theorem State.putTport_spmBad (s : State) (d i : Nat) (p : TmPort) : (s.putTport d i p).spmBad = s.spmBad := rfl
@[simp] theorem State.putTport_cmem (s : State) (d i : Nat) (p : TmPort) : (s.putTport d i p).cmem = s.cmem := rfl
@[simp] theorem State.putTport_dram (s : State) (d i : Nat) (p : TmPort) : (s.putTport d i p).dram = s.dram := rfl
@[simp] theorem State.putTport_linkErr (s : State) (d i : Nat) (p : TmPort) : (s.putTport d i p).linkErr = s.linkErr := rfl
@[simp] theorem State.putTport_trackEnd (s : State) (d i : Nat) (p : TmPort) : (s.putTport d i p).trackEnd = s.trackEnd := rfl
@[simp] theorem State.putTport_fmgq (s : State) (d i : Nat) (p : TmPort) : (s.putTport d i p).fmgq = s.fmgq := rfl
@[simp] theorem State.putTport_flights (s : State) (d i : Nat) (p : TmPort) : (s.putTport d i p).flights = s.flights := rfl
@[simp] theorem State.putTport_tcbs (s : State) (d i : Nat) (p : TmPort) : (s.putTport d i p).tcbs = s.tcbs := rfl
@[simp] theorem State.putTport_tellers (s : State) (d i : Nat) (p : TmPort) : (s.putTport d i p).tellers = s.tellers := rfl
@[simp] theorem State.putTport_events (s : State) (d i : Nat) (p : TmPort) : (s.putTport d i p).events = s.events := rfl
@[simp] theorem State.putTport_pol (s : State) (d i : Nat) (p : TmPort) : (s.putTport d i p).pol = s.pol := rfl
@[simp] theorem State.putTport_polBad (s : State) (d i : Nat) (p : TmPort) : (s.putTport d i p).polBad = s.polBad := rfl
@[simp] theorem State.putTport_polWas (s : State) (d i : Nat) (p : TmPort) : (s.putTport d i p).polWas = s.polWas := rfl
@[simp] theorem State.putTport_polCnt (s : State) (d i : Nat) (p : TmPort) : (s.putTport d i p).polCnt = s.polCnt := rfl
@[simp] theorem State.putTport_cntAdds (s : State) (d i : Nat) (p : TmPort) : (s.putTport d i p).cntAdds = s.cntAdds := rfl
@[simp] theorem State.putTport_gsa (s : State) (d i : Nat) (p : TmPort) : (s.putTport d i p).gsa = s.gsa := rfl
@[simp] theorem State.putTport_prof (s : State) (d i : Nat) (p : TmPort) : (s.putTport d i p).prof = s.prof := rfl
@[simp] theorem State.putTport_kek (s : State) (d i : Nat) (p : TmPort) : (s.putTport d i p).kek = s.kek := rfl
@[simp] theorem State.putTport_vault (s : State) (d i : Nat) (p : TmPort) : (s.putTport d i p).vault = s.vault := rfl
@[simp] theorem State.putTport_vltBad (s : State) (d i : Nat) (p : TmPort) : (s.putTport d i p).vltBad = s.vltBad := rfl
@[simp] theorem State.putTport_rngAt (s : State) (d i : Nat) (p : TmPort) : (s.putTport d i p).rngAt = s.rngAt := rfl
@[simp] theorem State.putTport_pdies (s : State) (d i : Nat) (p : TmPort) : (s.putTport d i p).pdies = s.pdies := rfl
@[simp] theorem State.putTport_ft (s : State) (d i : Nat) (p : TmPort) : (s.putTport d i p).ft = s.ft := rfl
@[simp] theorem State.putTport_ftBad (s : State) (d i : Nat) (p : TmPort) : (s.putTport d i p).ftBad = s.ftBad := rfl
@[simp] theorem State.putTport_ftWas (s : State) (d i : Nat) (p : TmPort) : (s.putTport d i p).ftWas = s.ftWas := rfl
@[simp] theorem State.putTport_ftHit (s : State) (d i : Nat) (p : TmPort) : (s.putTport d i p).ftHit = s.ftHit := rfl
@[simp] theorem State.putTport_sat (s : State) (d i : Nat) (p : TmPort) : (s.putTport d i p).sat = s.sat := rfl
@[simp] theorem State.putTport_satWas (s : State) (d i : Nat) (p : TmPort) : (s.putTport d i p).satWas = s.satWas := rfl
@[simp] theorem State.putTport_vltWas (s : State) (d i : Nat) (p : TmPort) : (s.putTport d i p).vltWas = s.vltWas := rfl
@[simp] theorem State.putTport_vltGone (s : State) (d i : Nat) (p : TmPort) : (s.putTport d i p).vltGone = s.vltGone := rfl
@[simp] theorem State.putTport_pktMem (s : State) (d i : Nat) (p : TmPort) : (s.putTport d i p).pktMem = s.pktMem := rfl
@[simp] theorem State.putTport_bufs (s : State) (d i : Nat) (p : TmPort) : (s.putTport d i p).bufs = s.bufs := rfl
@[simp] theorem State.putTport_bufBad (s : State) (d i : Nat) (p : TmPort) : (s.putTport d i p).bufBad = s.bufBad := rfl
@[simp] theorem State.putTport_pools (s : State) (d i : Nat) (p : TmPort) : (s.putTport d i p).pools = s.pools := rfl
@[simp] theorem State.putTport_lvlWas (s : State) (d i : Nat) (p : TmPort) : (s.putTport d i p).lvlWas = s.lvlWas := rfl
@[simp] theorem State.putTport_used (s : State) (d i : Nat) (p : TmPort) : (s.putTport d i p).used = s.used := rfl
@[simp] theorem State.putTport_queues (s : State) (d i : Nat) (p : TmPort) : (s.putTport d i p).queues = s.queues := rfl
@[simp] theorem State.putTport_shapers (s : State) (d i : Nat) (p : TmPort) : (s.putTport d i p).shapers = s.shapers := rfl
@[simp] theorem State.putTport_policers (s : State) (d i : Nat) (p : TmPort) : (s.putTport d i p).policers = s.policers := rfl
@[simp] theorem State.putTport_punters (s : State) (d i : Nat) (p : TmPort) : (s.putTport d i p).punters = s.punters := rfl
@[simp] theorem State.putTport_tports (s : State) (d i : Nat) (p : TmPort) : (s.putTport d i p).tports = tSet (fun _ => TmPort.fresh) s.tports (d * 64 + i) p := rfl
@[simp] theorem State.putTport_tpl (s : State) (d i : Nat) (p : TmPort) : (s.putTport d i p).tpl = s.tpl := rfl
@[simp] theorem State.putTport_punts (s : State) (d i : Nat) (p : TmPort) : (s.putTport d i p).punts = s.punts := rfl
@[simp] theorem State.putTport_pauses (s : State) (d i : Nat) (p : TmPort) : (s.putTport d i p).pauses = s.pauses := rfl
@[simp] theorem State.putTport_xoffAt (s : State) (d i : Nat) (p : TmPort) : (s.putTport d i p).xoffAt = s.xoffAt := rfl
@[simp] theorem State.putTport_links (s : State) (d i : Nat) (p : TmPort) : (s.putTport d i p).links = s.links := rfl
@[simp] theorem State.putTport_portOff (s : State) (d i : Nat) (p : TmPort) : (s.putTport d i p).portOff = s.portOff := rfl
@[simp] theorem State.putTport_wlocks (s : State) (d i : Nat) (p : TmPort) : (s.putTport d i p).wlocks = s.wlocks := rfl
@[simp] theorem State.putTport_doms (s : State) (d i : Nat) (p : TmPort) : (s.putTport d i p).doms = s.doms := rfl
@[simp] theorem State.putTport_gen (s : State) (d i : Nat) (p : TmPort) : (s.putTport d i p).gen = s.gen := rfl
@[simp] theorem State.putTport_oldLive (s : State) (d i : Nat) (p : TmPort) : (s.putTport d i p).oldLive = s.oldLive := rfl
@[simp] theorem State.putTport_clearAt (s : State) (d i : Nat) (p : TmPort) : (s.putTport d i p).clearAt = s.clearAt := rfl
@[simp] theorem State.putTport_halted (s : State) (d i : Nat) (p : TmPort) : (s.putTport d i p).halted = s.halted := rfl
@[simp] theorem State.putTport_perst (s : State) (d i : Nat) (p : TmPort) : (s.putTport d i p).perst = s.perst := rfl
@[simp] theorem State.putTport_host (s : State) (d i : Nat) (p : TmPort) : (s.putTport d i p).host = s.host := rfl
@[simp] theorem State.putTport_repairs (s : State) (d i : Nat) (p : TmPort) : (s.putTport d i p).repairs = s.repairs := rfl
@[simp] theorem State.putTport_dbg (s : State) (d i : Nat) (p : TmPort) : (s.putTport d i p).dbg = s.dbg := rfl
@[simp] theorem State.putTport_capWr (s : State) (d i : Nat) (p : TmPort) : (s.putTport d i p).capWr = s.capWr := rfl
@[simp] theorem State.putTport_ctxWr (s : State) (d i : Nat) (p : TmPort) : (s.putTport d i p).ctxWr = s.ctxWr := rfl
@[simp] theorem State.putTport_epc (s : State) (d i : Nat) (p : TmPort) : (s.putTport d i p).epc = s.epc := rfl
@[simp] theorem State.putTport_fmg (s : State) (d i : Nat) (p : TmPort) : (s.putTport d i p).fmg = s.fmg := rfl
@[simp] theorem State.putTport_sec (s : State) (d i : Nat) (p : TmPort) : (s.putTport d i p).sec = s.sec := rfl
@[simp] theorem State.putTport_pwr (s : State) (d i : Nat) (p : TmPort) : (s.putTport d i p).pwr = s.pwr := rfl
@[simp] theorem State.putTport_flash (s : State) (d i : Nat) (p : TmPort) : (s.putTport d i p).flash = s.flash := rfl
@[simp] theorem State.putTport_tally (s : State) (d i : Nat) (p : TmPort) : (s.putTport d i p).tally = s.tally := rfl
@[simp] theorem State.putTport_tallyHi (s : State) (d i : Nat) (p : TmPort) : (s.putTport d i p).tallyHi = s.tallyHi := rfl
@[simp] theorem State.putTport_tallyAt (s : State) (d i : Nat) (p : TmPort) : (s.putTport d i p).tallyAt = s.tallyAt := rfl
@[simp] theorem State.putTport_mbxJob (s : State) (d i : Nat) (p : TmPort) : (s.putTport d i p).mbxJob = s.mbxJob := rfl
@[simp] theorem State.putTport_fills (s : State) (d i : Nat) (p : TmPort) : (s.putTport d i p).fills = s.fills := rfl
@[simp] theorem State.putTport_retire (s : State) (d i : Nat) (p : TmPort) : (s.putTport d i p).retire = s.retire := rfl
@[simp] theorem State.putTport_banks (s : State) (d i : Nat) (p : TmPort) : (s.putTport d i p).banks = s.banks := rfl
@[simp] theorem State.putTport_hstFill (s : State) (d i : Nat) (p : TmPort) : (s.putTport d i p).hstFill = s.hstFill := rfl
@[simp] theorem State.putTport_resync (s : State) (d i : Nat) (p : TmPort) : (s.putTport d i p).resync = s.resync := rfl
@[simp] theorem State.putTport_pulled (s : State) (d i : Nat) (p : TmPort) : (s.putTport d i p).pulled = s.pulled := rfl
@[simp] theorem State.putTport_dpairs (s : State) (d i : Nat) (p : TmPort) : (s.putTport d i p).dpairs = s.dpairs := rfl
@[simp] theorem State.putTport_tap (s : State) (d i : Nat) (p : TmPort) : (s.putTport d i p).tap = s.tap := rfl

/-! ## State.modEpc -/

@[simp] theorem State.modEpc_now (s : State) (f : Epc → Epc) : (s.modEpc f).now = s.now := rfl
@[simp] theorem State.modEpc_clk (s : State) (f : Epc → Epc) : (s.modEpc f).clk = s.clk := rfl
@[simp] theorem State.modEpc_tbNum (s : State) (f : Epc → Epc) : (s.modEpc f).tbNum = s.tbNum := rfl
@[simp] theorem State.modEpc_tbAt (s : State) (f : Epc → Epc) : (s.modEpc f).tbAt = s.tbAt := rfl
@[simp] theorem State.modEpc_tbPast (s : State) (f : Epc → Epc) : (s.modEpc f).tbPast = s.tbPast := rfl
@[simp] theorem State.modEpc_draw (s : State) (f : Epc → Epc) : (s.modEpc f).draw = s.draw := rfl
@[simp] theorem State.modEpc_pending (s : State) (f : Epc → Epc) : (s.modEpc f).pending = s.pending := rfl
@[simp] theorem State.modEpc_out (s : State) (f : Epc → Epc) : (s.modEpc f).out = s.out := rfl
@[simp] theorem State.modEpc_regs (s : State) (f : Epc → Epc) : (s.modEpc f).regs = s.regs := rfl
@[simp] theorem State.modEpc_hw (s : State) (f : Epc → Epc) : (s.modEpc f).hw = s.hw := rfl
@[simp] theorem State.modEpc_arrived (s : State) (f : Epc → Epc) : (s.modEpc f).arrived = s.arrived := rfl
@[simp] theorem State.modEpc_act (s : State) (f : Epc → Epc) : (s.modEpc f).act = s.act := rfl
@[simp] theorem State.modEpc_old (s : State) (f : Epc → Epc) : (s.modEpc f).old = s.old := rfl
@[simp] theorem State.modEpc_thr (s : State) (f : Epc → Epc) : (s.modEpc f).thr = s.thr := rfl
@[simp] theorem State.modEpc_clu (s : State) (f : Epc → Epc) : (s.modEpc f).clu = s.clu := rfl
@[simp] theorem State.modEpc_locks (s : State) (f : Epc → Epc) : (s.modEpc f).locks = s.locks := rfl
@[simp] theorem State.modEpc_chans (s : State) (f : Epc → Epc) : (s.modEpc f).chans = s.chans := rfl
@[simp] theorem State.modEpc_cops (s : State) (f : Epc → Epc) : (s.modEpc f).cops = s.cops := rfl
@[simp] theorem State.modEpc_lines (s : State) (f : Epc → Epc) : (s.modEpc f).lines = s.lines := rfl
@[simp] theorem State.modEpc_spm (s : State) (f : Epc → Epc) : (s.modEpc f).spm = s.spm := rfl
@[simp] theorem State.modEpc_spmBad (s : State) (f : Epc → Epc) : (s.modEpc f).spmBad = s.spmBad := rfl
@[simp] theorem State.modEpc_cmem (s : State) (f : Epc → Epc) : (s.modEpc f).cmem = s.cmem := rfl
@[simp] theorem State.modEpc_dram (s : State) (f : Epc → Epc) : (s.modEpc f).dram = s.dram := rfl
@[simp] theorem State.modEpc_linkErr (s : State) (f : Epc → Epc) : (s.modEpc f).linkErr = s.linkErr := rfl
@[simp] theorem State.modEpc_trackEnd (s : State) (f : Epc → Epc) : (s.modEpc f).trackEnd = s.trackEnd := rfl
@[simp] theorem State.modEpc_fmgq (s : State) (f : Epc → Epc) : (s.modEpc f).fmgq = s.fmgq := rfl
@[simp] theorem State.modEpc_flights (s : State) (f : Epc → Epc) : (s.modEpc f).flights = s.flights := rfl
@[simp] theorem State.modEpc_tcbs (s : State) (f : Epc → Epc) : (s.modEpc f).tcbs = s.tcbs := rfl
@[simp] theorem State.modEpc_tellers (s : State) (f : Epc → Epc) : (s.modEpc f).tellers = s.tellers := rfl
@[simp] theorem State.modEpc_events (s : State) (f : Epc → Epc) : (s.modEpc f).events = s.events := rfl
@[simp] theorem State.modEpc_pol (s : State) (f : Epc → Epc) : (s.modEpc f).pol = s.pol := rfl
@[simp] theorem State.modEpc_polBad (s : State) (f : Epc → Epc) : (s.modEpc f).polBad = s.polBad := rfl
@[simp] theorem State.modEpc_polWas (s : State) (f : Epc → Epc) : (s.modEpc f).polWas = s.polWas := rfl
@[simp] theorem State.modEpc_polCnt (s : State) (f : Epc → Epc) : (s.modEpc f).polCnt = s.polCnt := rfl
@[simp] theorem State.modEpc_cntAdds (s : State) (f : Epc → Epc) : (s.modEpc f).cntAdds = s.cntAdds := rfl
@[simp] theorem State.modEpc_gsa (s : State) (f : Epc → Epc) : (s.modEpc f).gsa = s.gsa := rfl
@[simp] theorem State.modEpc_prof (s : State) (f : Epc → Epc) : (s.modEpc f).prof = s.prof := rfl
@[simp] theorem State.modEpc_kek (s : State) (f : Epc → Epc) : (s.modEpc f).kek = s.kek := rfl
@[simp] theorem State.modEpc_vault (s : State) (f : Epc → Epc) : (s.modEpc f).vault = s.vault := rfl
@[simp] theorem State.modEpc_vltBad (s : State) (f : Epc → Epc) : (s.modEpc f).vltBad = s.vltBad := rfl
@[simp] theorem State.modEpc_rngAt (s : State) (f : Epc → Epc) : (s.modEpc f).rngAt = s.rngAt := rfl
@[simp] theorem State.modEpc_pdies (s : State) (f : Epc → Epc) : (s.modEpc f).pdies = s.pdies := rfl
@[simp] theorem State.modEpc_ft (s : State) (f : Epc → Epc) : (s.modEpc f).ft = s.ft := rfl
@[simp] theorem State.modEpc_ftBad (s : State) (f : Epc → Epc) : (s.modEpc f).ftBad = s.ftBad := rfl
@[simp] theorem State.modEpc_ftWas (s : State) (f : Epc → Epc) : (s.modEpc f).ftWas = s.ftWas := rfl
@[simp] theorem State.modEpc_ftHit (s : State) (f : Epc → Epc) : (s.modEpc f).ftHit = s.ftHit := rfl
@[simp] theorem State.modEpc_sat (s : State) (f : Epc → Epc) : (s.modEpc f).sat = s.sat := rfl
@[simp] theorem State.modEpc_satWas (s : State) (f : Epc → Epc) : (s.modEpc f).satWas = s.satWas := rfl
@[simp] theorem State.modEpc_vltWas (s : State) (f : Epc → Epc) : (s.modEpc f).vltWas = s.vltWas := rfl
@[simp] theorem State.modEpc_vltGone (s : State) (f : Epc → Epc) : (s.modEpc f).vltGone = s.vltGone := rfl
@[simp] theorem State.modEpc_pktMem (s : State) (f : Epc → Epc) : (s.modEpc f).pktMem = s.pktMem := rfl
@[simp] theorem State.modEpc_bufs (s : State) (f : Epc → Epc) : (s.modEpc f).bufs = s.bufs := rfl
@[simp] theorem State.modEpc_bufBad (s : State) (f : Epc → Epc) : (s.modEpc f).bufBad = s.bufBad := rfl
@[simp] theorem State.modEpc_pools (s : State) (f : Epc → Epc) : (s.modEpc f).pools = s.pools := rfl
@[simp] theorem State.modEpc_lvlWas (s : State) (f : Epc → Epc) : (s.modEpc f).lvlWas = s.lvlWas := rfl
@[simp] theorem State.modEpc_used (s : State) (f : Epc → Epc) : (s.modEpc f).used = s.used := rfl
@[simp] theorem State.modEpc_queues (s : State) (f : Epc → Epc) : (s.modEpc f).queues = s.queues := rfl
@[simp] theorem State.modEpc_shapers (s : State) (f : Epc → Epc) : (s.modEpc f).shapers = s.shapers := rfl
@[simp] theorem State.modEpc_policers (s : State) (f : Epc → Epc) : (s.modEpc f).policers = s.policers := rfl
@[simp] theorem State.modEpc_punters (s : State) (f : Epc → Epc) : (s.modEpc f).punters = s.punters := rfl
@[simp] theorem State.modEpc_tports (s : State) (f : Epc → Epc) : (s.modEpc f).tports = s.tports := rfl
@[simp] theorem State.modEpc_tpl (s : State) (f : Epc → Epc) : (s.modEpc f).tpl = s.tpl := rfl
@[simp] theorem State.modEpc_punts (s : State) (f : Epc → Epc) : (s.modEpc f).punts = s.punts := rfl
@[simp] theorem State.modEpc_pauses (s : State) (f : Epc → Epc) : (s.modEpc f).pauses = s.pauses := rfl
@[simp] theorem State.modEpc_xoffAt (s : State) (f : Epc → Epc) : (s.modEpc f).xoffAt = s.xoffAt := rfl
@[simp] theorem State.modEpc_links (s : State) (f : Epc → Epc) : (s.modEpc f).links = s.links := rfl
@[simp] theorem State.modEpc_portOff (s : State) (f : Epc → Epc) : (s.modEpc f).portOff = s.portOff := rfl
@[simp] theorem State.modEpc_wlocks (s : State) (f : Epc → Epc) : (s.modEpc f).wlocks = s.wlocks := rfl
@[simp] theorem State.modEpc_doms (s : State) (f : Epc → Epc) : (s.modEpc f).doms = s.doms := rfl
@[simp] theorem State.modEpc_gen (s : State) (f : Epc → Epc) : (s.modEpc f).gen = s.gen := rfl
@[simp] theorem State.modEpc_oldLive (s : State) (f : Epc → Epc) : (s.modEpc f).oldLive = s.oldLive := rfl
@[simp] theorem State.modEpc_clearAt (s : State) (f : Epc → Epc) : (s.modEpc f).clearAt = s.clearAt := rfl
@[simp] theorem State.modEpc_halted (s : State) (f : Epc → Epc) : (s.modEpc f).halted = s.halted := rfl
@[simp] theorem State.modEpc_perst (s : State) (f : Epc → Epc) : (s.modEpc f).perst = s.perst := rfl
@[simp] theorem State.modEpc_host (s : State) (f : Epc → Epc) : (s.modEpc f).host = s.host := rfl
@[simp] theorem State.modEpc_repairs (s : State) (f : Epc → Epc) : (s.modEpc f).repairs = s.repairs := rfl
@[simp] theorem State.modEpc_dbg (s : State) (f : Epc → Epc) : (s.modEpc f).dbg = s.dbg := rfl
@[simp] theorem State.modEpc_capWr (s : State) (f : Epc → Epc) : (s.modEpc f).capWr = s.capWr := rfl
@[simp] theorem State.modEpc_ctxWr (s : State) (f : Epc → Epc) : (s.modEpc f).ctxWr = s.ctxWr := rfl
@[simp] theorem State.modEpc_epc (s : State) (f : Epc → Epc) : (s.modEpc f).epc = f s.epc := rfl
@[simp] theorem State.modEpc_fmg (s : State) (f : Epc → Epc) : (s.modEpc f).fmg = s.fmg := rfl
@[simp] theorem State.modEpc_sec (s : State) (f : Epc → Epc) : (s.modEpc f).sec = s.sec := rfl
@[simp] theorem State.modEpc_pwr (s : State) (f : Epc → Epc) : (s.modEpc f).pwr = s.pwr := rfl
@[simp] theorem State.modEpc_flash (s : State) (f : Epc → Epc) : (s.modEpc f).flash = s.flash := rfl
@[simp] theorem State.modEpc_tally (s : State) (f : Epc → Epc) : (s.modEpc f).tally = s.tally := rfl
@[simp] theorem State.modEpc_tallyHi (s : State) (f : Epc → Epc) : (s.modEpc f).tallyHi = s.tallyHi := rfl
@[simp] theorem State.modEpc_tallyAt (s : State) (f : Epc → Epc) : (s.modEpc f).tallyAt = s.tallyAt := rfl
@[simp] theorem State.modEpc_mbxJob (s : State) (f : Epc → Epc) : (s.modEpc f).mbxJob = s.mbxJob := rfl
@[simp] theorem State.modEpc_fills (s : State) (f : Epc → Epc) : (s.modEpc f).fills = s.fills := rfl
@[simp] theorem State.modEpc_retire (s : State) (f : Epc → Epc) : (s.modEpc f).retire = s.retire := rfl
@[simp] theorem State.modEpc_banks (s : State) (f : Epc → Epc) : (s.modEpc f).banks = s.banks := rfl
@[simp] theorem State.modEpc_hstFill (s : State) (f : Epc → Epc) : (s.modEpc f).hstFill = s.hstFill := rfl
@[simp] theorem State.modEpc_resync (s : State) (f : Epc → Epc) : (s.modEpc f).resync = s.resync := rfl
@[simp] theorem State.modEpc_pulled (s : State) (f : Epc → Epc) : (s.modEpc f).pulled = s.pulled := rfl
@[simp] theorem State.modEpc_dpairs (s : State) (f : Epc → Epc) : (s.modEpc f).dpairs = s.dpairs := rfl
@[simp] theorem State.modEpc_tap (s : State) (f : Epc → Epc) : (s.modEpc f).tap = s.tap := rfl

/-! ## State.modSec -/

@[simp] theorem State.modSec_now (s : State) (f : Sec → Sec) : (s.modSec f).now = s.now := rfl
@[simp] theorem State.modSec_clk (s : State) (f : Sec → Sec) : (s.modSec f).clk = s.clk := rfl
@[simp] theorem State.modSec_tbNum (s : State) (f : Sec → Sec) : (s.modSec f).tbNum = s.tbNum := rfl
@[simp] theorem State.modSec_tbAt (s : State) (f : Sec → Sec) : (s.modSec f).tbAt = s.tbAt := rfl
@[simp] theorem State.modSec_tbPast (s : State) (f : Sec → Sec) : (s.modSec f).tbPast = s.tbPast := rfl
@[simp] theorem State.modSec_draw (s : State) (f : Sec → Sec) : (s.modSec f).draw = s.draw := rfl
@[simp] theorem State.modSec_pending (s : State) (f : Sec → Sec) : (s.modSec f).pending = s.pending := rfl
@[simp] theorem State.modSec_out (s : State) (f : Sec → Sec) : (s.modSec f).out = s.out := rfl
@[simp] theorem State.modSec_regs (s : State) (f : Sec → Sec) : (s.modSec f).regs = s.regs := rfl
@[simp] theorem State.modSec_hw (s : State) (f : Sec → Sec) : (s.modSec f).hw = s.hw := rfl
@[simp] theorem State.modSec_arrived (s : State) (f : Sec → Sec) : (s.modSec f).arrived = s.arrived := rfl
@[simp] theorem State.modSec_act (s : State) (f : Sec → Sec) : (s.modSec f).act = s.act := rfl
@[simp] theorem State.modSec_old (s : State) (f : Sec → Sec) : (s.modSec f).old = s.old := rfl
@[simp] theorem State.modSec_thr (s : State) (f : Sec → Sec) : (s.modSec f).thr = s.thr := rfl
@[simp] theorem State.modSec_clu (s : State) (f : Sec → Sec) : (s.modSec f).clu = s.clu := rfl
@[simp] theorem State.modSec_locks (s : State) (f : Sec → Sec) : (s.modSec f).locks = s.locks := rfl
@[simp] theorem State.modSec_chans (s : State) (f : Sec → Sec) : (s.modSec f).chans = s.chans := rfl
@[simp] theorem State.modSec_cops (s : State) (f : Sec → Sec) : (s.modSec f).cops = s.cops := rfl
@[simp] theorem State.modSec_lines (s : State) (f : Sec → Sec) : (s.modSec f).lines = s.lines := rfl
@[simp] theorem State.modSec_spm (s : State) (f : Sec → Sec) : (s.modSec f).spm = s.spm := rfl
@[simp] theorem State.modSec_spmBad (s : State) (f : Sec → Sec) : (s.modSec f).spmBad = s.spmBad := rfl
@[simp] theorem State.modSec_cmem (s : State) (f : Sec → Sec) : (s.modSec f).cmem = s.cmem := rfl
@[simp] theorem State.modSec_dram (s : State) (f : Sec → Sec) : (s.modSec f).dram = s.dram := rfl
@[simp] theorem State.modSec_linkErr (s : State) (f : Sec → Sec) : (s.modSec f).linkErr = s.linkErr := rfl
@[simp] theorem State.modSec_trackEnd (s : State) (f : Sec → Sec) : (s.modSec f).trackEnd = s.trackEnd := rfl
@[simp] theorem State.modSec_fmgq (s : State) (f : Sec → Sec) : (s.modSec f).fmgq = s.fmgq := rfl
@[simp] theorem State.modSec_flights (s : State) (f : Sec → Sec) : (s.modSec f).flights = s.flights := rfl
@[simp] theorem State.modSec_tcbs (s : State) (f : Sec → Sec) : (s.modSec f).tcbs = s.tcbs := rfl
@[simp] theorem State.modSec_tellers (s : State) (f : Sec → Sec) : (s.modSec f).tellers = s.tellers := rfl
@[simp] theorem State.modSec_events (s : State) (f : Sec → Sec) : (s.modSec f).events = s.events := rfl
@[simp] theorem State.modSec_pol (s : State) (f : Sec → Sec) : (s.modSec f).pol = s.pol := rfl
@[simp] theorem State.modSec_polBad (s : State) (f : Sec → Sec) : (s.modSec f).polBad = s.polBad := rfl
@[simp] theorem State.modSec_polWas (s : State) (f : Sec → Sec) : (s.modSec f).polWas = s.polWas := rfl
@[simp] theorem State.modSec_polCnt (s : State) (f : Sec → Sec) : (s.modSec f).polCnt = s.polCnt := rfl
@[simp] theorem State.modSec_cntAdds (s : State) (f : Sec → Sec) : (s.modSec f).cntAdds = s.cntAdds := rfl
@[simp] theorem State.modSec_gsa (s : State) (f : Sec → Sec) : (s.modSec f).gsa = s.gsa := rfl
@[simp] theorem State.modSec_prof (s : State) (f : Sec → Sec) : (s.modSec f).prof = s.prof := rfl
@[simp] theorem State.modSec_kek (s : State) (f : Sec → Sec) : (s.modSec f).kek = s.kek := rfl
@[simp] theorem State.modSec_vault (s : State) (f : Sec → Sec) : (s.modSec f).vault = s.vault := rfl
@[simp] theorem State.modSec_vltBad (s : State) (f : Sec → Sec) : (s.modSec f).vltBad = s.vltBad := rfl
@[simp] theorem State.modSec_rngAt (s : State) (f : Sec → Sec) : (s.modSec f).rngAt = s.rngAt := rfl
@[simp] theorem State.modSec_pdies (s : State) (f : Sec → Sec) : (s.modSec f).pdies = s.pdies := rfl
@[simp] theorem State.modSec_ft (s : State) (f : Sec → Sec) : (s.modSec f).ft = s.ft := rfl
@[simp] theorem State.modSec_ftBad (s : State) (f : Sec → Sec) : (s.modSec f).ftBad = s.ftBad := rfl
@[simp] theorem State.modSec_ftWas (s : State) (f : Sec → Sec) : (s.modSec f).ftWas = s.ftWas := rfl
@[simp] theorem State.modSec_ftHit (s : State) (f : Sec → Sec) : (s.modSec f).ftHit = s.ftHit := rfl
@[simp] theorem State.modSec_sat (s : State) (f : Sec → Sec) : (s.modSec f).sat = s.sat := rfl
@[simp] theorem State.modSec_satWas (s : State) (f : Sec → Sec) : (s.modSec f).satWas = s.satWas := rfl
@[simp] theorem State.modSec_vltWas (s : State) (f : Sec → Sec) : (s.modSec f).vltWas = s.vltWas := rfl
@[simp] theorem State.modSec_vltGone (s : State) (f : Sec → Sec) : (s.modSec f).vltGone = s.vltGone := rfl
@[simp] theorem State.modSec_pktMem (s : State) (f : Sec → Sec) : (s.modSec f).pktMem = s.pktMem := rfl
@[simp] theorem State.modSec_bufs (s : State) (f : Sec → Sec) : (s.modSec f).bufs = s.bufs := rfl
@[simp] theorem State.modSec_bufBad (s : State) (f : Sec → Sec) : (s.modSec f).bufBad = s.bufBad := rfl
@[simp] theorem State.modSec_pools (s : State) (f : Sec → Sec) : (s.modSec f).pools = s.pools := rfl
@[simp] theorem State.modSec_lvlWas (s : State) (f : Sec → Sec) : (s.modSec f).lvlWas = s.lvlWas := rfl
@[simp] theorem State.modSec_used (s : State) (f : Sec → Sec) : (s.modSec f).used = s.used := rfl
@[simp] theorem State.modSec_queues (s : State) (f : Sec → Sec) : (s.modSec f).queues = s.queues := rfl
@[simp] theorem State.modSec_shapers (s : State) (f : Sec → Sec) : (s.modSec f).shapers = s.shapers := rfl
@[simp] theorem State.modSec_policers (s : State) (f : Sec → Sec) : (s.modSec f).policers = s.policers := rfl
@[simp] theorem State.modSec_punters (s : State) (f : Sec → Sec) : (s.modSec f).punters = s.punters := rfl
@[simp] theorem State.modSec_tports (s : State) (f : Sec → Sec) : (s.modSec f).tports = s.tports := rfl
@[simp] theorem State.modSec_tpl (s : State) (f : Sec → Sec) : (s.modSec f).tpl = s.tpl := rfl
@[simp] theorem State.modSec_punts (s : State) (f : Sec → Sec) : (s.modSec f).punts = s.punts := rfl
@[simp] theorem State.modSec_pauses (s : State) (f : Sec → Sec) : (s.modSec f).pauses = s.pauses := rfl
@[simp] theorem State.modSec_xoffAt (s : State) (f : Sec → Sec) : (s.modSec f).xoffAt = s.xoffAt := rfl
@[simp] theorem State.modSec_links (s : State) (f : Sec → Sec) : (s.modSec f).links = s.links := rfl
@[simp] theorem State.modSec_portOff (s : State) (f : Sec → Sec) : (s.modSec f).portOff = s.portOff := rfl
@[simp] theorem State.modSec_wlocks (s : State) (f : Sec → Sec) : (s.modSec f).wlocks = s.wlocks := rfl
@[simp] theorem State.modSec_doms (s : State) (f : Sec → Sec) : (s.modSec f).doms = s.doms := rfl
@[simp] theorem State.modSec_gen (s : State) (f : Sec → Sec) : (s.modSec f).gen = s.gen := rfl
@[simp] theorem State.modSec_oldLive (s : State) (f : Sec → Sec) : (s.modSec f).oldLive = s.oldLive := rfl
@[simp] theorem State.modSec_clearAt (s : State) (f : Sec → Sec) : (s.modSec f).clearAt = s.clearAt := rfl
@[simp] theorem State.modSec_halted (s : State) (f : Sec → Sec) : (s.modSec f).halted = s.halted := rfl
@[simp] theorem State.modSec_perst (s : State) (f : Sec → Sec) : (s.modSec f).perst = s.perst := rfl
@[simp] theorem State.modSec_host (s : State) (f : Sec → Sec) : (s.modSec f).host = s.host := rfl
@[simp] theorem State.modSec_repairs (s : State) (f : Sec → Sec) : (s.modSec f).repairs = s.repairs := rfl
@[simp] theorem State.modSec_dbg (s : State) (f : Sec → Sec) : (s.modSec f).dbg = s.dbg := rfl
@[simp] theorem State.modSec_capWr (s : State) (f : Sec → Sec) : (s.modSec f).capWr = s.capWr := rfl
@[simp] theorem State.modSec_ctxWr (s : State) (f : Sec → Sec) : (s.modSec f).ctxWr = s.ctxWr := rfl
@[simp] theorem State.modSec_epc (s : State) (f : Sec → Sec) : (s.modSec f).epc = s.epc := rfl
@[simp] theorem State.modSec_fmg (s : State) (f : Sec → Sec) : (s.modSec f).fmg = s.fmg := rfl
@[simp] theorem State.modSec_sec (s : State) (f : Sec → Sec) : (s.modSec f).sec = f s.sec := rfl
@[simp] theorem State.modSec_pwr (s : State) (f : Sec → Sec) : (s.modSec f).pwr = s.pwr := rfl
@[simp] theorem State.modSec_flash (s : State) (f : Sec → Sec) : (s.modSec f).flash = s.flash := rfl
@[simp] theorem State.modSec_tally (s : State) (f : Sec → Sec) : (s.modSec f).tally = s.tally := rfl
@[simp] theorem State.modSec_tallyHi (s : State) (f : Sec → Sec) : (s.modSec f).tallyHi = s.tallyHi := rfl
@[simp] theorem State.modSec_tallyAt (s : State) (f : Sec → Sec) : (s.modSec f).tallyAt = s.tallyAt := rfl
@[simp] theorem State.modSec_mbxJob (s : State) (f : Sec → Sec) : (s.modSec f).mbxJob = s.mbxJob := rfl
@[simp] theorem State.modSec_fills (s : State) (f : Sec → Sec) : (s.modSec f).fills = s.fills := rfl
@[simp] theorem State.modSec_retire (s : State) (f : Sec → Sec) : (s.modSec f).retire = s.retire := rfl
@[simp] theorem State.modSec_banks (s : State) (f : Sec → Sec) : (s.modSec f).banks = s.banks := rfl
@[simp] theorem State.modSec_hstFill (s : State) (f : Sec → Sec) : (s.modSec f).hstFill = s.hstFill := rfl
@[simp] theorem State.modSec_resync (s : State) (f : Sec → Sec) : (s.modSec f).resync = s.resync := rfl
@[simp] theorem State.modSec_pulled (s : State) (f : Sec → Sec) : (s.modSec f).pulled = s.pulled := rfl
@[simp] theorem State.modSec_dpairs (s : State) (f : Sec → Sec) : (s.modSec f).dpairs = s.dpairs := rfl
@[simp] theorem State.modSec_tap (s : State) (f : Sec → Sec) : (s.modSec f).tap = s.tap := rfl

/-! ## State.modPwr -/

@[simp] theorem State.modPwr_now (s : State) (f : Pwr → Pwr) : (s.modPwr f).now = s.now := rfl
@[simp] theorem State.modPwr_clk (s : State) (f : Pwr → Pwr) : (s.modPwr f).clk = s.clk := rfl
@[simp] theorem State.modPwr_tbNum (s : State) (f : Pwr → Pwr) : (s.modPwr f).tbNum = s.tbNum := rfl
@[simp] theorem State.modPwr_tbAt (s : State) (f : Pwr → Pwr) : (s.modPwr f).tbAt = s.tbAt := rfl
@[simp] theorem State.modPwr_tbPast (s : State) (f : Pwr → Pwr) : (s.modPwr f).tbPast = s.tbPast := rfl
@[simp] theorem State.modPwr_draw (s : State) (f : Pwr → Pwr) : (s.modPwr f).draw = s.draw := rfl
@[simp] theorem State.modPwr_pending (s : State) (f : Pwr → Pwr) : (s.modPwr f).pending = s.pending := rfl
@[simp] theorem State.modPwr_out (s : State) (f : Pwr → Pwr) : (s.modPwr f).out = s.out := rfl
@[simp] theorem State.modPwr_regs (s : State) (f : Pwr → Pwr) : (s.modPwr f).regs = s.regs := rfl
@[simp] theorem State.modPwr_hw (s : State) (f : Pwr → Pwr) : (s.modPwr f).hw = s.hw := rfl
@[simp] theorem State.modPwr_arrived (s : State) (f : Pwr → Pwr) : (s.modPwr f).arrived = s.arrived := rfl
@[simp] theorem State.modPwr_act (s : State) (f : Pwr → Pwr) : (s.modPwr f).act = s.act := rfl
@[simp] theorem State.modPwr_old (s : State) (f : Pwr → Pwr) : (s.modPwr f).old = s.old := rfl
@[simp] theorem State.modPwr_thr (s : State) (f : Pwr → Pwr) : (s.modPwr f).thr = s.thr := rfl
@[simp] theorem State.modPwr_clu (s : State) (f : Pwr → Pwr) : (s.modPwr f).clu = s.clu := rfl
@[simp] theorem State.modPwr_locks (s : State) (f : Pwr → Pwr) : (s.modPwr f).locks = s.locks := rfl
@[simp] theorem State.modPwr_chans (s : State) (f : Pwr → Pwr) : (s.modPwr f).chans = s.chans := rfl
@[simp] theorem State.modPwr_cops (s : State) (f : Pwr → Pwr) : (s.modPwr f).cops = s.cops := rfl
@[simp] theorem State.modPwr_lines (s : State) (f : Pwr → Pwr) : (s.modPwr f).lines = s.lines := rfl
@[simp] theorem State.modPwr_spm (s : State) (f : Pwr → Pwr) : (s.modPwr f).spm = s.spm := rfl
@[simp] theorem State.modPwr_spmBad (s : State) (f : Pwr → Pwr) : (s.modPwr f).spmBad = s.spmBad := rfl
@[simp] theorem State.modPwr_cmem (s : State) (f : Pwr → Pwr) : (s.modPwr f).cmem = s.cmem := rfl
@[simp] theorem State.modPwr_dram (s : State) (f : Pwr → Pwr) : (s.modPwr f).dram = s.dram := rfl
@[simp] theorem State.modPwr_linkErr (s : State) (f : Pwr → Pwr) : (s.modPwr f).linkErr = s.linkErr := rfl
@[simp] theorem State.modPwr_trackEnd (s : State) (f : Pwr → Pwr) : (s.modPwr f).trackEnd = s.trackEnd := rfl
@[simp] theorem State.modPwr_fmgq (s : State) (f : Pwr → Pwr) : (s.modPwr f).fmgq = s.fmgq := rfl
@[simp] theorem State.modPwr_flights (s : State) (f : Pwr → Pwr) : (s.modPwr f).flights = s.flights := rfl
@[simp] theorem State.modPwr_tcbs (s : State) (f : Pwr → Pwr) : (s.modPwr f).tcbs = s.tcbs := rfl
@[simp] theorem State.modPwr_tellers (s : State) (f : Pwr → Pwr) : (s.modPwr f).tellers = s.tellers := rfl
@[simp] theorem State.modPwr_events (s : State) (f : Pwr → Pwr) : (s.modPwr f).events = s.events := rfl
@[simp] theorem State.modPwr_pol (s : State) (f : Pwr → Pwr) : (s.modPwr f).pol = s.pol := rfl
@[simp] theorem State.modPwr_polBad (s : State) (f : Pwr → Pwr) : (s.modPwr f).polBad = s.polBad := rfl
@[simp] theorem State.modPwr_polWas (s : State) (f : Pwr → Pwr) : (s.modPwr f).polWas = s.polWas := rfl
@[simp] theorem State.modPwr_polCnt (s : State) (f : Pwr → Pwr) : (s.modPwr f).polCnt = s.polCnt := rfl
@[simp] theorem State.modPwr_cntAdds (s : State) (f : Pwr → Pwr) : (s.modPwr f).cntAdds = s.cntAdds := rfl
@[simp] theorem State.modPwr_gsa (s : State) (f : Pwr → Pwr) : (s.modPwr f).gsa = s.gsa := rfl
@[simp] theorem State.modPwr_prof (s : State) (f : Pwr → Pwr) : (s.modPwr f).prof = s.prof := rfl
@[simp] theorem State.modPwr_kek (s : State) (f : Pwr → Pwr) : (s.modPwr f).kek = s.kek := rfl
@[simp] theorem State.modPwr_vault (s : State) (f : Pwr → Pwr) : (s.modPwr f).vault = s.vault := rfl
@[simp] theorem State.modPwr_vltBad (s : State) (f : Pwr → Pwr) : (s.modPwr f).vltBad = s.vltBad := rfl
@[simp] theorem State.modPwr_rngAt (s : State) (f : Pwr → Pwr) : (s.modPwr f).rngAt = s.rngAt := rfl
@[simp] theorem State.modPwr_pdies (s : State) (f : Pwr → Pwr) : (s.modPwr f).pdies = s.pdies := rfl
@[simp] theorem State.modPwr_ft (s : State) (f : Pwr → Pwr) : (s.modPwr f).ft = s.ft := rfl
@[simp] theorem State.modPwr_ftBad (s : State) (f : Pwr → Pwr) : (s.modPwr f).ftBad = s.ftBad := rfl
@[simp] theorem State.modPwr_ftWas (s : State) (f : Pwr → Pwr) : (s.modPwr f).ftWas = s.ftWas := rfl
@[simp] theorem State.modPwr_ftHit (s : State) (f : Pwr → Pwr) : (s.modPwr f).ftHit = s.ftHit := rfl
@[simp] theorem State.modPwr_sat (s : State) (f : Pwr → Pwr) : (s.modPwr f).sat = s.sat := rfl
@[simp] theorem State.modPwr_satWas (s : State) (f : Pwr → Pwr) : (s.modPwr f).satWas = s.satWas := rfl
@[simp] theorem State.modPwr_vltWas (s : State) (f : Pwr → Pwr) : (s.modPwr f).vltWas = s.vltWas := rfl
@[simp] theorem State.modPwr_vltGone (s : State) (f : Pwr → Pwr) : (s.modPwr f).vltGone = s.vltGone := rfl
@[simp] theorem State.modPwr_pktMem (s : State) (f : Pwr → Pwr) : (s.modPwr f).pktMem = s.pktMem := rfl
@[simp] theorem State.modPwr_bufs (s : State) (f : Pwr → Pwr) : (s.modPwr f).bufs = s.bufs := rfl
@[simp] theorem State.modPwr_bufBad (s : State) (f : Pwr → Pwr) : (s.modPwr f).bufBad = s.bufBad := rfl
@[simp] theorem State.modPwr_pools (s : State) (f : Pwr → Pwr) : (s.modPwr f).pools = s.pools := rfl
@[simp] theorem State.modPwr_lvlWas (s : State) (f : Pwr → Pwr) : (s.modPwr f).lvlWas = s.lvlWas := rfl
@[simp] theorem State.modPwr_used (s : State) (f : Pwr → Pwr) : (s.modPwr f).used = s.used := rfl
@[simp] theorem State.modPwr_queues (s : State) (f : Pwr → Pwr) : (s.modPwr f).queues = s.queues := rfl
@[simp] theorem State.modPwr_shapers (s : State) (f : Pwr → Pwr) : (s.modPwr f).shapers = s.shapers := rfl
@[simp] theorem State.modPwr_policers (s : State) (f : Pwr → Pwr) : (s.modPwr f).policers = s.policers := rfl
@[simp] theorem State.modPwr_punters (s : State) (f : Pwr → Pwr) : (s.modPwr f).punters = s.punters := rfl
@[simp] theorem State.modPwr_tports (s : State) (f : Pwr → Pwr) : (s.modPwr f).tports = s.tports := rfl
@[simp] theorem State.modPwr_tpl (s : State) (f : Pwr → Pwr) : (s.modPwr f).tpl = s.tpl := rfl
@[simp] theorem State.modPwr_punts (s : State) (f : Pwr → Pwr) : (s.modPwr f).punts = s.punts := rfl
@[simp] theorem State.modPwr_pauses (s : State) (f : Pwr → Pwr) : (s.modPwr f).pauses = s.pauses := rfl
@[simp] theorem State.modPwr_xoffAt (s : State) (f : Pwr → Pwr) : (s.modPwr f).xoffAt = s.xoffAt := rfl
@[simp] theorem State.modPwr_links (s : State) (f : Pwr → Pwr) : (s.modPwr f).links = s.links := rfl
@[simp] theorem State.modPwr_portOff (s : State) (f : Pwr → Pwr) : (s.modPwr f).portOff = s.portOff := rfl
@[simp] theorem State.modPwr_wlocks (s : State) (f : Pwr → Pwr) : (s.modPwr f).wlocks = s.wlocks := rfl
@[simp] theorem State.modPwr_doms (s : State) (f : Pwr → Pwr) : (s.modPwr f).doms = s.doms := rfl
@[simp] theorem State.modPwr_gen (s : State) (f : Pwr → Pwr) : (s.modPwr f).gen = s.gen := rfl
@[simp] theorem State.modPwr_oldLive (s : State) (f : Pwr → Pwr) : (s.modPwr f).oldLive = s.oldLive := rfl
@[simp] theorem State.modPwr_clearAt (s : State) (f : Pwr → Pwr) : (s.modPwr f).clearAt = s.clearAt := rfl
@[simp] theorem State.modPwr_halted (s : State) (f : Pwr → Pwr) : (s.modPwr f).halted = s.halted := rfl
@[simp] theorem State.modPwr_perst (s : State) (f : Pwr → Pwr) : (s.modPwr f).perst = s.perst := rfl
@[simp] theorem State.modPwr_host (s : State) (f : Pwr → Pwr) : (s.modPwr f).host = s.host := rfl
@[simp] theorem State.modPwr_repairs (s : State) (f : Pwr → Pwr) : (s.modPwr f).repairs = s.repairs := rfl
@[simp] theorem State.modPwr_dbg (s : State) (f : Pwr → Pwr) : (s.modPwr f).dbg = s.dbg := rfl
@[simp] theorem State.modPwr_capWr (s : State) (f : Pwr → Pwr) : (s.modPwr f).capWr = s.capWr := rfl
@[simp] theorem State.modPwr_ctxWr (s : State) (f : Pwr → Pwr) : (s.modPwr f).ctxWr = s.ctxWr := rfl
@[simp] theorem State.modPwr_epc (s : State) (f : Pwr → Pwr) : (s.modPwr f).epc = s.epc := rfl
@[simp] theorem State.modPwr_fmg (s : State) (f : Pwr → Pwr) : (s.modPwr f).fmg = s.fmg := rfl
@[simp] theorem State.modPwr_sec (s : State) (f : Pwr → Pwr) : (s.modPwr f).sec = s.sec := rfl
@[simp] theorem State.modPwr_pwr (s : State) (f : Pwr → Pwr) : (s.modPwr f).pwr = f s.pwr := rfl
@[simp] theorem State.modPwr_flash (s : State) (f : Pwr → Pwr) : (s.modPwr f).flash = s.flash := rfl
@[simp] theorem State.modPwr_tally (s : State) (f : Pwr → Pwr) : (s.modPwr f).tally = s.tally := rfl
@[simp] theorem State.modPwr_tallyHi (s : State) (f : Pwr → Pwr) : (s.modPwr f).tallyHi = s.tallyHi := rfl
@[simp] theorem State.modPwr_tallyAt (s : State) (f : Pwr → Pwr) : (s.modPwr f).tallyAt = s.tallyAt := rfl
@[simp] theorem State.modPwr_mbxJob (s : State) (f : Pwr → Pwr) : (s.modPwr f).mbxJob = s.mbxJob := rfl
@[simp] theorem State.modPwr_fills (s : State) (f : Pwr → Pwr) : (s.modPwr f).fills = s.fills := rfl
@[simp] theorem State.modPwr_retire (s : State) (f : Pwr → Pwr) : (s.modPwr f).retire = s.retire := rfl
@[simp] theorem State.modPwr_banks (s : State) (f : Pwr → Pwr) : (s.modPwr f).banks = s.banks := rfl
@[simp] theorem State.modPwr_hstFill (s : State) (f : Pwr → Pwr) : (s.modPwr f).hstFill = s.hstFill := rfl
@[simp] theorem State.modPwr_resync (s : State) (f : Pwr → Pwr) : (s.modPwr f).resync = s.resync := rfl
@[simp] theorem State.modPwr_pulled (s : State) (f : Pwr → Pwr) : (s.modPwr f).pulled = s.pulled := rfl
@[simp] theorem State.modPwr_dpairs (s : State) (f : Pwr → Pwr) : (s.modPwr f).dpairs = s.dpairs := rfl
@[simp] theorem State.modPwr_tap (s : State) (f : Pwr → Pwr) : (s.modPwr f).tap = s.tap := rfl

/-! ## State.setDbg -/

@[simp] theorem State.setDbg_now (s : State) (i : Nat) (v : Word) : (s.setDbg i v).now = s.now := rfl
@[simp] theorem State.setDbg_clk (s : State) (i : Nat) (v : Word) : (s.setDbg i v).clk = s.clk := rfl
@[simp] theorem State.setDbg_tbNum (s : State) (i : Nat) (v : Word) : (s.setDbg i v).tbNum = s.tbNum := rfl
@[simp] theorem State.setDbg_tbAt (s : State) (i : Nat) (v : Word) : (s.setDbg i v).tbAt = s.tbAt := rfl
@[simp] theorem State.setDbg_tbPast (s : State) (i : Nat) (v : Word) : (s.setDbg i v).tbPast = s.tbPast := rfl
@[simp] theorem State.setDbg_draw (s : State) (i : Nat) (v : Word) : (s.setDbg i v).draw = s.draw := rfl
@[simp] theorem State.setDbg_pending (s : State) (i : Nat) (v : Word) : (s.setDbg i v).pending = s.pending := rfl
@[simp] theorem State.setDbg_out (s : State) (i : Nat) (v : Word) : (s.setDbg i v).out = s.out := rfl
@[simp] theorem State.setDbg_regs (s : State) (i : Nat) (v : Word) : (s.setDbg i v).regs = s.regs := rfl
@[simp] theorem State.setDbg_hw (s : State) (i : Nat) (v : Word) : (s.setDbg i v).hw = s.hw := rfl
@[simp] theorem State.setDbg_arrived (s : State) (i : Nat) (v : Word) : (s.setDbg i v).arrived = s.arrived := rfl
@[simp] theorem State.setDbg_act (s : State) (i : Nat) (v : Word) : (s.setDbg i v).act = s.act := rfl
@[simp] theorem State.setDbg_old (s : State) (i : Nat) (v : Word) : (s.setDbg i v).old = s.old := rfl
@[simp] theorem State.setDbg_thr (s : State) (i : Nat) (v : Word) : (s.setDbg i v).thr = s.thr := rfl
@[simp] theorem State.setDbg_clu (s : State) (i : Nat) (v : Word) : (s.setDbg i v).clu = s.clu := rfl
@[simp] theorem State.setDbg_locks (s : State) (i : Nat) (v : Word) : (s.setDbg i v).locks = s.locks := rfl
@[simp] theorem State.setDbg_chans (s : State) (i : Nat) (v : Word) : (s.setDbg i v).chans = s.chans := rfl
@[simp] theorem State.setDbg_cops (s : State) (i : Nat) (v : Word) : (s.setDbg i v).cops = s.cops := rfl
@[simp] theorem State.setDbg_lines (s : State) (i : Nat) (v : Word) : (s.setDbg i v).lines = s.lines := rfl
@[simp] theorem State.setDbg_spm (s : State) (i : Nat) (v : Word) : (s.setDbg i v).spm = s.spm := rfl
@[simp] theorem State.setDbg_spmBad (s : State) (i : Nat) (v : Word) : (s.setDbg i v).spmBad = s.spmBad := rfl
@[simp] theorem State.setDbg_cmem (s : State) (i : Nat) (v : Word) : (s.setDbg i v).cmem = s.cmem := rfl
@[simp] theorem State.setDbg_dram (s : State) (i : Nat) (v : Word) : (s.setDbg i v).dram = s.dram := rfl
@[simp] theorem State.setDbg_linkErr (s : State) (i : Nat) (v : Word) : (s.setDbg i v).linkErr = s.linkErr := rfl
@[simp] theorem State.setDbg_trackEnd (s : State) (i : Nat) (v : Word) : (s.setDbg i v).trackEnd = s.trackEnd := rfl
@[simp] theorem State.setDbg_fmgq (s : State) (i : Nat) (v : Word) : (s.setDbg i v).fmgq = s.fmgq := rfl
@[simp] theorem State.setDbg_flights (s : State) (i : Nat) (v : Word) : (s.setDbg i v).flights = s.flights := rfl
@[simp] theorem State.setDbg_tcbs (s : State) (i : Nat) (v : Word) : (s.setDbg i v).tcbs = s.tcbs := rfl
@[simp] theorem State.setDbg_tellers (s : State) (i : Nat) (v : Word) : (s.setDbg i v).tellers = s.tellers := rfl
@[simp] theorem State.setDbg_events (s : State) (i : Nat) (v : Word) : (s.setDbg i v).events = s.events := rfl
@[simp] theorem State.setDbg_pol (s : State) (i : Nat) (v : Word) : (s.setDbg i v).pol = s.pol := rfl
@[simp] theorem State.setDbg_polBad (s : State) (i : Nat) (v : Word) : (s.setDbg i v).polBad = s.polBad := rfl
@[simp] theorem State.setDbg_polWas (s : State) (i : Nat) (v : Word) : (s.setDbg i v).polWas = s.polWas := rfl
@[simp] theorem State.setDbg_polCnt (s : State) (i : Nat) (v : Word) : (s.setDbg i v).polCnt = s.polCnt := rfl
@[simp] theorem State.setDbg_cntAdds (s : State) (i : Nat) (v : Word) : (s.setDbg i v).cntAdds = s.cntAdds := rfl
@[simp] theorem State.setDbg_gsa (s : State) (i : Nat) (v : Word) : (s.setDbg i v).gsa = s.gsa := rfl
@[simp] theorem State.setDbg_prof (s : State) (i : Nat) (v : Word) : (s.setDbg i v).prof = s.prof := rfl
@[simp] theorem State.setDbg_kek (s : State) (i : Nat) (v : Word) : (s.setDbg i v).kek = s.kek := rfl
@[simp] theorem State.setDbg_vault (s : State) (i : Nat) (v : Word) : (s.setDbg i v).vault = s.vault := rfl
@[simp] theorem State.setDbg_vltBad (s : State) (i : Nat) (v : Word) : (s.setDbg i v).vltBad = s.vltBad := rfl
@[simp] theorem State.setDbg_rngAt (s : State) (i : Nat) (v : Word) : (s.setDbg i v).rngAt = s.rngAt := rfl
@[simp] theorem State.setDbg_pdies (s : State) (i : Nat) (v : Word) : (s.setDbg i v).pdies = s.pdies := rfl
@[simp] theorem State.setDbg_ft (s : State) (i : Nat) (v : Word) : (s.setDbg i v).ft = s.ft := rfl
@[simp] theorem State.setDbg_ftBad (s : State) (i : Nat) (v : Word) : (s.setDbg i v).ftBad = s.ftBad := rfl
@[simp] theorem State.setDbg_ftWas (s : State) (i : Nat) (v : Word) : (s.setDbg i v).ftWas = s.ftWas := rfl
@[simp] theorem State.setDbg_ftHit (s : State) (i : Nat) (v : Word) : (s.setDbg i v).ftHit = s.ftHit := rfl
@[simp] theorem State.setDbg_sat (s : State) (i : Nat) (v : Word) : (s.setDbg i v).sat = s.sat := rfl
@[simp] theorem State.setDbg_satWas (s : State) (i : Nat) (v : Word) : (s.setDbg i v).satWas = s.satWas := rfl
@[simp] theorem State.setDbg_vltWas (s : State) (i : Nat) (v : Word) : (s.setDbg i v).vltWas = s.vltWas := rfl
@[simp] theorem State.setDbg_vltGone (s : State) (i : Nat) (v : Word) : (s.setDbg i v).vltGone = s.vltGone := rfl
@[simp] theorem State.setDbg_pktMem (s : State) (i : Nat) (v : Word) : (s.setDbg i v).pktMem = s.pktMem := rfl
@[simp] theorem State.setDbg_bufs (s : State) (i : Nat) (v : Word) : (s.setDbg i v).bufs = s.bufs := rfl
@[simp] theorem State.setDbg_bufBad (s : State) (i : Nat) (v : Word) : (s.setDbg i v).bufBad = s.bufBad := rfl
@[simp] theorem State.setDbg_pools (s : State) (i : Nat) (v : Word) : (s.setDbg i v).pools = s.pools := rfl
@[simp] theorem State.setDbg_lvlWas (s : State) (i : Nat) (v : Word) : (s.setDbg i v).lvlWas = s.lvlWas := rfl
@[simp] theorem State.setDbg_used (s : State) (i : Nat) (v : Word) : (s.setDbg i v).used = s.used := rfl
@[simp] theorem State.setDbg_queues (s : State) (i : Nat) (v : Word) : (s.setDbg i v).queues = s.queues := rfl
@[simp] theorem State.setDbg_shapers (s : State) (i : Nat) (v : Word) : (s.setDbg i v).shapers = s.shapers := rfl
@[simp] theorem State.setDbg_policers (s : State) (i : Nat) (v : Word) : (s.setDbg i v).policers = s.policers := rfl
@[simp] theorem State.setDbg_punters (s : State) (i : Nat) (v : Word) : (s.setDbg i v).punters = s.punters := rfl
@[simp] theorem State.setDbg_tports (s : State) (i : Nat) (v : Word) : (s.setDbg i v).tports = s.tports := rfl
@[simp] theorem State.setDbg_tpl (s : State) (i : Nat) (v : Word) : (s.setDbg i v).tpl = s.tpl := rfl
@[simp] theorem State.setDbg_punts (s : State) (i : Nat) (v : Word) : (s.setDbg i v).punts = s.punts := rfl
@[simp] theorem State.setDbg_pauses (s : State) (i : Nat) (v : Word) : (s.setDbg i v).pauses = s.pauses := rfl
@[simp] theorem State.setDbg_xoffAt (s : State) (i : Nat) (v : Word) : (s.setDbg i v).xoffAt = s.xoffAt := rfl
@[simp] theorem State.setDbg_links (s : State) (i : Nat) (v : Word) : (s.setDbg i v).links = s.links := rfl
@[simp] theorem State.setDbg_portOff (s : State) (i : Nat) (v : Word) : (s.setDbg i v).portOff = s.portOff := rfl
@[simp] theorem State.setDbg_wlocks (s : State) (i : Nat) (v : Word) : (s.setDbg i v).wlocks = s.wlocks := rfl
@[simp] theorem State.setDbg_doms (s : State) (i : Nat) (v : Word) : (s.setDbg i v).doms = s.doms := rfl
@[simp] theorem State.setDbg_gen (s : State) (i : Nat) (v : Word) : (s.setDbg i v).gen = s.gen := rfl
@[simp] theorem State.setDbg_oldLive (s : State) (i : Nat) (v : Word) : (s.setDbg i v).oldLive = s.oldLive := rfl
@[simp] theorem State.setDbg_clearAt (s : State) (i : Nat) (v : Word) : (s.setDbg i v).clearAt = s.clearAt := rfl
@[simp] theorem State.setDbg_halted (s : State) (i : Nat) (v : Word) : (s.setDbg i v).halted = s.halted := rfl
@[simp] theorem State.setDbg_perst (s : State) (i : Nat) (v : Word) : (s.setDbg i v).perst = s.perst := rfl
@[simp] theorem State.setDbg_host (s : State) (i : Nat) (v : Word) : (s.setDbg i v).host = s.host := rfl
@[simp] theorem State.setDbg_repairs (s : State) (i : Nat) (v : Word) : (s.setDbg i v).repairs = s.repairs := rfl
@[simp] theorem State.setDbg_dbg (s : State) (i : Nat) (v : Word) : (s.setDbg i v).dbg = tSet (fun _ => 0) s.dbg i v := rfl
@[simp] theorem State.setDbg_capWr (s : State) (i : Nat) (v : Word) : (s.setDbg i v).capWr = s.capWr := rfl
@[simp] theorem State.setDbg_ctxWr (s : State) (i : Nat) (v : Word) : (s.setDbg i v).ctxWr = s.ctxWr := rfl
@[simp] theorem State.setDbg_epc (s : State) (i : Nat) (v : Word) : (s.setDbg i v).epc = s.epc := rfl
@[simp] theorem State.setDbg_fmg (s : State) (i : Nat) (v : Word) : (s.setDbg i v).fmg = s.fmg := rfl
@[simp] theorem State.setDbg_sec (s : State) (i : Nat) (v : Word) : (s.setDbg i v).sec = s.sec := rfl
@[simp] theorem State.setDbg_pwr (s : State) (i : Nat) (v : Word) : (s.setDbg i v).pwr = s.pwr := rfl
@[simp] theorem State.setDbg_flash (s : State) (i : Nat) (v : Word) : (s.setDbg i v).flash = s.flash := rfl
@[simp] theorem State.setDbg_tally (s : State) (i : Nat) (v : Word) : (s.setDbg i v).tally = s.tally := rfl
@[simp] theorem State.setDbg_tallyHi (s : State) (i : Nat) (v : Word) : (s.setDbg i v).tallyHi = s.tallyHi := rfl
@[simp] theorem State.setDbg_tallyAt (s : State) (i : Nat) (v : Word) : (s.setDbg i v).tallyAt = s.tallyAt := rfl
@[simp] theorem State.setDbg_mbxJob (s : State) (i : Nat) (v : Word) : (s.setDbg i v).mbxJob = s.mbxJob := rfl
@[simp] theorem State.setDbg_fills (s : State) (i : Nat) (v : Word) : (s.setDbg i v).fills = s.fills := rfl
@[simp] theorem State.setDbg_retire (s : State) (i : Nat) (v : Word) : (s.setDbg i v).retire = s.retire := rfl
@[simp] theorem State.setDbg_banks (s : State) (i : Nat) (v : Word) : (s.setDbg i v).banks = s.banks := rfl
@[simp] theorem State.setDbg_hstFill (s : State) (i : Nat) (v : Word) : (s.setDbg i v).hstFill = s.hstFill := rfl
@[simp] theorem State.setDbg_resync (s : State) (i : Nat) (v : Word) : (s.setDbg i v).resync = s.resync := rfl
@[simp] theorem State.setDbg_pulled (s : State) (i : Nat) (v : Word) : (s.setDbg i v).pulled = s.pulled := rfl
@[simp] theorem State.setDbg_dpairs (s : State) (i : Nat) (v : Word) : (s.setDbg i v).dpairs = s.dpairs := rfl
@[simp] theorem State.setDbg_tap (s : State) (i : Nat) (v : Word) : (s.setDbg i v).tap = s.tap := rfl

/-! ## Reads after writes -/

/-- A register reads what was written, every other register as before. -/
theorem State.reg_setReg (s : State) (a b : Nat) (v : Word) : (s.setReg a v).reg b = if b = a then v else s.reg b := by
  simp [State.reg, tGet_tSet]

@[simp] theorem State.reg_setReg_same (s : State) (a : Nat) (v : Word) : (s.setReg a v).reg a = v := by simp [State.reg_setReg]

theorem State.th_putTh (s : State) (t u : Nat) (x : Thread) : (s.putTh t x).th u = if u = t then x else s.th u := by
  simp [State.th, tGet_tSet]

@[simp] theorem State.th_putTh_same (s : State) (t : Nat) (x : Thread) : (s.putTh t x).th t = x := by simp [State.th_putTh]

theorem State.clu_setClu (s : State) (c k : Nat) (f : Cluster → Cluster) :
    (s.setClu c f).clu? k = if k = c then f (s.clu? c) else s.clu? k := by simp [State.clu?, tGet_tUpd]

@[simp] theorem State.clu_setClu_same (s : State) (c : Nat) (f : Cluster → Cluster) : (s.setClu c f).clu? c = f (s.clu? c) := by
  simp [State.clu_setClu]

theorem State.pd_modPd (s : State) (d e : Nat) (f : PDieState → PDieState) :
    (s.modPd d f).pd e = if e = d then f (s.pd d) else s.pd e := by simp [State.pd, tGet_tUpd]

@[simp] theorem State.pd_modPd_same (s : State) (d : Nat) (f : PDieState → PDieState) : (s.modPd d f).pd d = f (s.pd d) := by
  simp [State.pd_modPd]

theorem State.lock_putLock (s : State) (k j : Nat) (l : Lock) : (s.putLock k l).lock j = if j = k then l else s.lock j := by
  simp [State.lock, tGet_tSet]

@[simp] theorem State.lock_putLock_same (s : State) (k : Nat) (l : Lock) : (s.putLock k l).lock k = l := by simp [State.lock_putLock]

@[simp] theorem State.chan_putChan_same (s : State) (c n : Nat) (x : Chan) : (s.putChan c n x).chan c n = x := by
  simp [State.chan]

@[simp] theorem State.cop_putCop_same (s : State) (c n : Nat) (x : Cop) : (s.putCop c n x).cop c n = x := by simp [State.cop]

@[simp] theorem State.teller_setTeller_same (s : State) (r : Nat) (f : Teller → Teller) :
    (s.setTeller r f).teller r = f (s.teller r) := by simp [State.teller, tGet_tUpd]

@[simp] theorem State.queue_putQueue_same (s : State) (d q : Nat) (x : TmQueue) : (s.putQueue d q x).queue d q = x := by
  simp [State.queue]

@[simp] theorem State.shaper_putShaper_same (s : State) (d i : Nat) (b : Bucket) : (s.putShaper d i b).shaper d i = b := by
  simp [State.shaper]

@[simp] theorem State.policer_putPolicer_same (s : State) (d i : Nat) (b : Bucket) : (s.putPolicer d i b).policer d i = b := by
  simp [State.policer]

@[simp] theorem State.tport_putTport_same (s : State) (d i : Nat) (p : TmPort) : (s.putTport d i p).tport d i = p := by
  simp [State.tport]

@[simp] theorem State.pool_modPool_same (s : State) (d p : Nat) (f : Pool → Pool) : (s.modPool d p f).pool d p = f (s.pool d p) := by
  simp [State.pool, tGet_tUpd]

@[simp] theorem State.buf_putBuf_same (s : State) (d c : Nat) (b : Buf) : (s.putBuf d c b).buf? d c = some b := by
  simp [State.buf?]

end Sys2Proof.Machine
end

