-- ==== Sys2Proof/Laws/Ops.lean ====
section
/-! SUPPORT. Laws of the shared operations: what register writes read as, and all that events and error records can touch. -/

namespace Sys2Proof.Machine

/-! ## Fields of registers -/

theorem State.reg_setRf (s : State) (a b hi lo v : Nat) :
    (s.setRf a hi lo v).reg b = if b = a then setFld (s.reg a) hi lo v else s.reg b := by simp [State.setRf, State.reg_setReg]

theorem State.rf_setRf_same (s : State) (a hi lo v : Nat) (h : hi < 32) : (s.setRf a hi lo v).rf a hi lo = v % 2 ^ (hi + 1 - lo) := by
  simp [State.rf, State.reg_setRf, fld_setFld_same _ _ _ _ h]

theorem State.rb_setRb (s : State) (a b i j : Nat) (v : Bool) (h : j < 32) :
    (s.setRb a i v).rb b j = if b = a ∧ j = i then v else s.rb b j := by
  simp only [State.rb, State.setRb, State.reg_setRf]
  by_cases hb : b = a
  · subst hb
    by_cases hj : j = i
    · subst hj; cases v <;> simp [bit_setFld _ _ _ _ _ h, b2n]
    · have : ¬(i ≤ j ∧ j ≤ i) := by omega
      simp [bit_setFld _ _ _ _ _ h, hj, this]
  · simp [hb]

@[simp] theorem State.reg_hwAct (s : State) (a b : Nat) (f : Word → Word) : (s.hwAct a f).reg b = s.reg b := rfl

theorem State.reg_bumpF (s : State) (a b hi lo n : Nat) (h : b ≠ a) : (s.bumpF a hi lo n).reg b = s.reg b := by
  simp [State.bumpF, State.reg_setRf, h]

theorem State.reg_bump (s : State) (a b : Nat) (h : b ≠ a) : (s.bump a).reg b = s.reg b := State.reg_bumpF s a b 31 0 1 h

/-- A counter counts one, and saturates. -/
theorem State.reg_bump_same (s : State) (a : Nat) : ((s.bump a).reg a).toNat = min (2 ^ 32 - 1) ((s.reg a).toNat + 1) := by
  have h : (s.bump a).rf a 31 0 = satAdd (2 ^ 32 - 1) (s.rf a 31 0) 1 % 2 ^ 32 := by
    simp [State.bump, State.bumpF, State.rf_setRf_same]
  have e : ∀ w : Word, fld w 31 0 = w.toNat := fun w => by
    have := w.isLt
    simp [fld, bitsOf, Nat.mod_eq_of_lt this]
  simp only [State.rf, e, satAdd] at h
  have : min (2 ^ 32 - 1) ((s.reg a).toNat + 1) < 2 ^ 32 := by omega
  rw [h, Nat.mod_eq_of_lt this]

theorem State.pair_setPair (s : State) (a n : Nat) : (s.setPair a n).pair a = n % 2 ^ 64 := by
  have h : a ≠ a + 4 := by omega
  simp only [State.pair, State.setPair, State.reg_setReg, h, if_true, if_false, toNat_nw]
  omega

/-! ## Events and errors: what they can touch -/

/-- What events and error records can touch: the registers, the notes of what the hardware did in the fabric cycle, what leaves the part, and the
FMG queue. -/
def State.Evt (s t : State) : Prop := ∃ r h w o q, t = { s with regs := r, hw := h, arrived := w, out := o, fmgq := q }

theorem State.Evt.rfl' (s : State) : s.Evt s := ⟨s.regs, s.hw, s.arrived, s.out, s.fmgq, rfl⟩

theorem State.Evt.trans {s t u : State} (h : s.Evt t) (h' : t.Evt u) : s.Evt u := by
  obtain ⟨_, _, _, _, _, rfl⟩ := h
  obtain ⟨r, h, w, o, q, rfl⟩ := h'
  exact ⟨r, h, w, o, q, rfl⟩

theorem State.Evt.ite {s t u : State} (c : Prop) [Decidable c] (h : s.Evt t) (h' : s.Evt u) : s.Evt (if c then t else u) := by
  split <;> assumption

theorem State.evt_setReg (s : State) (a : Nat) (v : Word) : s.Evt (s.setReg a v) :=
  ⟨(s.setReg a v).regs, s.hw, s.arrived, s.out, s.fmgq, rfl⟩
theorem State.evt_hwAct (s : State) (a : Nat) (f : Word → Word) : s.Evt (s.hwAct a f) :=
  ⟨s.regs, (s.hwAct a f).hw, s.arrived, s.out, s.fmgq, rfl⟩
theorem State.evt_errArrive (s : State) (pg : Nat) (w : List Word) : s.Evt (s.errArrive pg w) :=
  ⟨s.regs, s.hw, (s.errArrive pg w).arrived, s.out, s.fmgq, rfl⟩
theorem State.evt_emit (s : State) (o : Out) : s.Evt (s.emit o) := ⟨s.regs, s.hw, s.arrived, o :: s.out, s.fmgq, rfl⟩
theorem State.evt_setRf (s : State) (a hi lo v : Nat) : s.Evt (s.setRf a hi lo v) := s.evt_setReg a _
theorem State.evt_bumpF (s : State) (a hi lo n : Nat) : s.Evt (s.bumpF a hi lo n) := (s.evt_hwAct a _).trans (State.evt_setRf _ a hi lo _)
theorem State.evt_bump (s : State) (a : Nat) : s.Evt (s.bump a) := s.evt_bumpF a 31 0 1
theorem State.evt_hwSet (s : State) (a i : Nat) : s.Evt (s.hwSet a i) := (s.evt_hwAct a _).trans (State.evt_setRf _ a i i _)

/-- A page's message changes a register (the pending bit of an event binding) or leaves the part. -/
theorem State.evt_route (s : State) (pg : Nat) : s.Evt (s.route pg) := by
  unfold State.route
  dsimp only
  split
  case h_1 | h_2 => exact s.evt_emit _
  case h_3 => exact State.Evt.ite _ (s.evt_setRf _ _ _ _) (State.Evt.rfl' s)
  case h_4 => exact State.Evt.rfl' s

theorem State.evt_putEvt (s : State) (pg : Nat) (v : Word) : s.Evt (s.putEvt pg v) :=
  State.Evt.ite _ ((s.evt_setReg _ v).trans (State.evt_route _ pg)) (s.evt_setReg _ v)

theorem State.evt_raise (s : State) (pg b : Nat) : s.Evt (s.raise pg b) := (s.evt_hwAct _ _).trans (State.evt_putEvt _ pg _)

theorem State.evt_setPg (s : State) (pg st : Nat) : s.Evt (s.setPg pg st) :=
  State.Evt.ite _ (State.Evt.rfl' s) ((s.evt_setRf _ _ _ _).trans (State.evt_raise _ pg 1))

theorem State.evt_pgAct (s : State) (pg : Nat) : s.Evt (s.pgAct pg) := by
  unfold State.pgAct
  extract_lets en stop
  repeat' split
  all_goals first
    | exact s.evt_setPg pg _
    | exact State.Evt.rfl' s

theorem State.evt_errPut (s : State) (pg : Nat) (w : List Word) : s.Evt (s.errPut pg w) := by
  unfold State.errPut
  exact (((s.evt_setReg _ _).trans (State.evt_setReg _ _ _)).trans (State.evt_setReg _ _ _)).trans (State.evt_setReg _ _ _)

theorem State.evt_errHold (s : State) (pg cls cause detail addr : Nat) : s.Evt (s.errHold pg cls cause detail addr) := by
  unfold State.errHold
  extract_lets w now s1
  have h1 : s.Evt s1 := s.evt_errArrive pg w
  exact State.Evt.ite _ ((h1.trans (State.Evt.ite _ (State.evt_errPut _ _ _) (State.Evt.rfl' s1))).trans (State.evt_setRf _ _ _ _ _))
    ((h1.trans (State.evt_hwAct _ _ _)).trans (State.evt_errPut _ _ _))

theorem State.evt_report (s : State) (pg cls cause : Nat) : s.Evt (s.report pg cls cause) := by
  unfold State.report
  extract_lets e r s1 s2 s3 s4
  have h1 : s.Evt s1 := ⟨s.regs, s.hw, s.arrived, s.out, r.1, rfl⟩
  have h2 : s1.Evt s2 := State.Evt.ite _ (s1.evt_bumpF _ _ _ _) (State.Evt.rfl' s1)
  have h3 : s2.Evt s3 := State.Evt.ite _ (s2.evt_hwSet _ _) (State.Evt.rfl' s2)
  exact (((h1.trans h2).trans h3).trans (s3.evt_setRf _ _ _ _)).trans (s4.evt_raise _ _)

/-- All that recording an error can touch. -/
theorem State.evt_err (s : State) (pg cls cause detail addr : Nat) : s.Evt (s.err pg cls cause detail addr) := by
  unfold State.err
  extract_lets s1 s2
  have h1 : s.Evt s1 := (s.evt_errHold pg cls cause detail addr).trans (State.evt_bumpF _ _ _ _ _)
  have h2 : s.Evt s2 := h1.trans (s1.evt_raise _ _)
  exact State.Evt.ite _ (h2.trans (s2.evt_report _ _ _)) h2

/-- A write to a register by its access types changes registers, and may record an error. -/
theorem State.evt_writeReg (s : State) (a : Nat) (v : Word) : s.Evt (s.writeReg a v) := by
  unfold State.writeReg
  split
  · exact State.Evt.rfl' _
  · extract_lets old h m s1
    have h1 : s.Evt s1 := State.evt_setReg _ _ _
    exact State.Evt.ite _ (h1.trans (State.evt_err _ _ _ _ _ _)) h1

end Sys2Proof.Machine
end

