-- ==== Sys2Proof/Laws/Issue.lean ====
section
/-! SUPPORT. Laws of the issue of a word: what a word with one trigger does, said once for every unit. -/

namespace Sys2Proof.Machine

/-- A destination that triggers nothing is done when it is written. -/
theorem State.unit_plain (s : State) (t c pc : Nat) (x0 : Thread) (e : Eff) (h : isTrigger e.dst = false) :
    s.unit t c pc x0 e = s := by
  unfold State.unit
  simp only [isTrigger, Bool.or_eq_false_iff, decide_eq_false_iff_not] at h
  obtain ⟨⟨h1, h2⟩, h3⟩ := h
  split <;> simp_all <;> (intros; exfalso; omega)

theorem Thread.arith_plain (x x0 : Thread) (c : Nat) (e : Eff) (h : isTrigger e.dst = false) : x.arith x0 c e = x := by
  unfold Thread.arith
  simp only [isTrigger, Bool.or_eq_false_iff, decide_eq_false_iff_not] at h
  obtain ⟨⟨h1, h2⟩, h3⟩ := h
  split <;> simp_all <;> (intros; exfalso; omega)

theorem foldl_plain {σ : Type} (f : σ → Eff → σ) (hf : ∀ s e, isTrigger e.dst = false → f s e = s) (l : List Eff)
    (h : ∀ y ∈ l, isTrigger y.dst = false) (s : σ) : l.foldl f s = s := by
  induction l generalizing s with
  | nil => rfl
  | cons e r ih => rw [List.foldl_cons, hf s e (h e (by simp))]; exact ih (fun y hy => h y (by simp [hy])) s

/-- Of a list of effects with one trigger, that trigger alone acts. -/
theorem foldl_one {σ : Type} (f : σ → Eff → σ) (hf : ∀ s e, isTrigger e.dst = false → f s e = s) (l r : List Eff) (e : Eff)
    (h : ∀ y ∈ l ++ r, isTrigger y.dst = false) (s : σ) : (l ++ e :: r).foldl f s = f s e := by
  rw [List.foldl_append, foldl_plain f hf l (fun y hy => h y (by simp [hy])), List.foldl_cons,
    foldl_plain f hf r (fun y hy => h y (by simp [hy]))]

/-- Where at most one effect is not plain, TU.exit acts last anyhow. -/
theorem exitLast_plain (l : List Eff) (h : ∀ y ∈ l, isTrigger y.dst = false) : exitLast l = l := by
  have hn : ∀ y ∈ l, y.dst ≠ 0x395 := fun y hy hh => by have := h y hy; rw [hh] at this; exact absurd this (by decide)
  unfold exitLast
  rw [List.filter_eq_self.mpr (fun y hy => by simpa using hn y hy), List.filter_eq_nil_iff.mpr (fun y hy => by simpa using hn y hy),
    List.append_nil]

/-- Of a word's effects with one trigger, that trigger alone acts, in whatever order they stand. -/
theorem foldl_exitLast {σ : Type} (f : σ → Eff → σ) (hf : ∀ s e, isTrigger e.dst = false → f s e = s) (l r : List Eff) (e : Eff)
    (h : ∀ y ∈ l ++ r, isTrigger y.dst = false) (s : σ) : (exitLast (l ++ e :: r)).foldl f s = f s e := by
  have hl : ∀ y ∈ l, y.dst ≠ 0x395 := fun y hy hh => by have := h y (by simp [hy]); rw [hh] at this; exact absurd this (by decide)
  have hr : ∀ y ∈ r, y.dst ≠ 0x395 := fun y hy hh => by have := h y (by simp [hy]); rw [hh] at this; exact absurd this (by decide)
  have fl : l.filter (fun e => decide (e.dst ≠ 0x395)) = l := List.filter_eq_self.mpr fun y hy => by simpa using hl y hy
  have fr : r.filter (fun e => decide (e.dst ≠ 0x395)) = r := List.filter_eq_self.mpr fun y hy => by simpa using hr y hy
  have gl : l.filter (fun e => decide (e.dst = 0x395)) = [] := List.filter_eq_nil_iff.mpr fun y hy => by simpa using hl y hy
  have gr : r.filter (fun e => decide (e.dst = 0x395)) = [] := List.filter_eq_nil_iff.mpr fun y hy => by simpa using hr y hy
  unfold exitLast
  simp only [List.filter_append, List.filter_cons, fl, fr, gl, gr]
  by_cases he : e.dst = 0x395
  · simp only [he, ne_eq, not_true_eq_false, decide_false, decide_true, if_true, List.nil_append]
    rw [show (l ++ if false = true then e :: r else r) ++ [e] = (l ++ r) ++ e :: [] by simp]
    exact foldl_one f hf (l ++ r) [] e (fun y hy => h y (by simpa using hy)) s
  · simp only [he, ne_eq, not_false_eq_true, decide_true, decide_false, if_true, List.nil_append]
    rw [show (l ++ e :: r) ++ (if false = true then e :: [] else []) = l ++ e :: r by simp]
    exact foldl_one f hf l r e h s

/-- What a word with one trigger does: its unit acts on the state in which the writes and the arithmetic are done; a context that
then waits notes where it does so, and one that waits or has ended takes the traps left for its later slots. -/
theorem State.issueWord_fires (s : State) (t : Nat) (w : IssueWord) (e : Eff) (h : s.fires t w e) :
    s.issueWord t w = s.settled t ((s.wordDone t w).unit t (s.slotOf t) (s.th t).pc (s.wordStart t) e) := by
  obtain ⟨⟨h1, h2, h3, h4, h5, h6⟩, ⟨h7, h8⟩, h9, ⟨h10, h11⟩, l, r, h12, h13⟩ := h
  have h3' : ¬(s.pkt t = true ∧ (s.th t).nextCyc = (s.th t).t0) := fun hh => h3 hh.1 hh.2
  have h5' : ¬ 16384 ≤ (s.th t).pc := by omega
  have h4' : (s.th t).lateDue (s.slotOf t) = none := by simp [Thread.lateDue, h4]
  have hp : (s.atSlot t (s.slotOf t)).pkt t = s.pkt t := by
    simp [State.atSlot, State.active, State.pkt, State.modTh, State.upToCyc, State.upTo]
    rfl
  have key : (s.atSlot t (s.slotOf t)).issueMoves t (s.slotOf t) (s.th t).pc ((s.th t).pc + 1) (wordKind w).moves =
      s.settled t ((s.wordDone t w).unit t (s.slotOf t) (s.th t).pc (s.wordStart t) e) := by
    unfold State.issueMoves
    simp only [h10]
    rw [show (s.atSlot t (s.slotOf t)).slotEffects t (s.slotOf t) (wordKind w).moves = l ++ e :: r from h12,
      foldl_exitLast _ (fun s e h => State.unit_plain s t _ _ _ e h) l r e h13]
    have hpost : postTrap ((s.atSlot t (s.slotOf t)).pkt t) ((s.th t).pc + 1)
      ((s.atSlot t (s.slotOf t)).slotWrites t (s.slotOf t) (wordKind w).moves) ((s.atSlot t (s.slotOf t)).slotStart t (s.slotOf t))
      (l ++ e :: r) = none := by rw [hp, ← h12]; exact h11
    simp only [hpost, ite_self]
    rw [hp]
    rfl
  unfold State.issueWord
  simp only [h1, h2, h3', h4', h5', h6, Bool.not_true, Option.isSome_none, Bool.or_self, Bool.and_eq_true, decide_eq_true_eq,
    Bool.false_or, if_false, if_true, Nat.reduceEqDiff]
  simp only [State.runWord, hp, h7, h8]
  rw [← key]
  have hm := h9
  unfold WordKind.moves at hm ⊢
  revert hm
  cases wordKind w <;> simp

/-! ## The turn of the cache (R244) -/

/-- A turn that is noted changes nothing but the note. -/
theorem State.turnNote_eq (s : State) (c : Nat) (u : CdcTurn) : s.turnNote c u = { s with clu := (s.turnNote c u).clu } := rfl
@[simp] theorem State.turnNote_lines (s : State) (c : Nat) (u : CdcTurn) : (s.turnNote c u).lines = s.lines := rfl
@[simp] theorem State.turnNote_dram (s : State) (c : Nat) (u : CdcTurn) : (s.turnNote c u).dram = s.dram := rfl
@[simp] theorem State.turnNote_thr (s : State) (c : Nat) (u : CdcTurn) : (s.turnNote c u).thr = s.thr := rfl
@[simp] theorem State.turnNote_regs (s : State) (c : Nat) (u : CdcTurn) : (s.turnNote c u).regs = s.regs := rfl

/-- An operation that no other of its line and core cycle follows acts on the cache as it stands. -/
theorem State.cdcTurn_last {s : State} {c cyc : Nat} {o : CdcOp} (h : (s.turnOf c cyc).follows o = false) :
    s.cdcTurn c cyc o = ((s.cdcDo c o).1, (s.cdcDo c o).2.turnNote c (s.turnWith (s.turnOf c cyc) o)) := by
  simp [State.cdcTurn, h]

end Sys2Proof.Machine
end

