-- ==== Sys2Proof/Laws/Memory.lean ====
section
/-! SUPPORT. The byte arrays (DRAM, cluster memory, the SA tables, packet memory): every operation keeps the canonical form of Safety.lean,
a write is read back, and it leaves every other byte as it was. -/

namespace Sys2Proof.Machine

theorem Arr.wf_iff (a : Arr) : Memory.wf a = true ↔ tSorted a.cells = true ∧ tSorted a.poison = true ∧ tSorted a.hurt = true := by
  simp [Memory.wf, and_assoc]

theorem Arr.wf_empty : Memory.wf Arr.empty = true := rfl

/-- Bytes put one after another keep the list sorted. -/
theorem tSorted_foldl_tPut {α β : Type} (k : β → Nat) (v : β → α) (l : List β) (t : Tbl α) (h : tSorted t = true) :
    tSorted (l.foldl (fun c e => tPut c (k e) (v e)) t) = true := by
  induction l generalizing t with
  | nil => exact h
  | cons e r ih => exact ih _ (tSorted_tPut t _ _ h)

theorem Arr.wf_write (a : Arr) (id i : Nat) (b : List Byte) (h : Memory.wf a = true) : Memory.wf (a.write id i b) = true := by
  rw [Arr.wf_iff] at h ⊢
  unfold Arr.write
  split
  · exact h
  · exact ⟨tSorted_foldl_tPut _ _ _ _ h.1, tSorted_filter _ _ h.2.1, tSorted_filter _ _ h.2.2⟩

theorem Arr.wf_spoil (a : Arr) (i n : Nat) (h : Memory.wf a = true) : Memory.wf (a.spoil i n) = true := by
  rw [Arr.wf_iff] at h ⊢
  exact ⟨h.1, tSorted_foldl_tPut _ _ _ _ h.2.1, h.2.2⟩

theorem Arr.wf_lose (a : Arr) (p : Nat → Bool) (h : Memory.wf a = true) : Memory.wf (a.lose p) = true := by
  rw [Arr.wf_iff] at h ⊢
  exact ⟨tSorted_filter _ _ h.1, tSorted_filter _ _ h.2.1, tSorted_filter _ _ h.2.2⟩

/-- A soft error in a word, and the return of a word to what it was, keep the form. -/
theorem Arr.wf_strike (a : Arr) (w k : Nat) (h : Memory.wf a = true) : Memory.wf (a.strike w k) = true := by
  unfold Arr.strike
  split
  · exact h
  · rw [Arr.wf_iff] at h ⊢
    exact ⟨h.1, h.2.1, tSorted_tPut _ _ _ h.2.2⟩

/-- A range put in place of an array's own keeps the form, whatever array it comes from. -/
theorem tSorted_tPaste {α : Type} (lo hi : Nat) (t o : Tbl α) (h : tSorted t = true) : tSorted (tPaste lo hi t o) = true :=
  tSorted_foldl_tPut (fun e : Nat × α => e.1) (fun e => e.2) _ _ (tSorted_filter _ _ h)

/-- Words that an undone access put back keep the form, and so does the saved range itself. -/
theorem Arr.wf_paste (a o : Arr) (lo hi : Nat) (h : Memory.wf a = true) : Memory.wf (a.paste lo hi o) = true := by
  rw [Arr.wf_iff] at h ⊢
  exact ⟨tSorted_tPaste _ _ _ _ h.1, tSorted_tPaste _ _ _ _ h.2.1, tSorted_tPaste _ _ _ _ h.2.2⟩

theorem Arr.wf_cut (a : Arr) (lo hi : Nat) (h : Memory.wf a = true) : Memory.wf (a.cut lo hi) = true := by
  rw [Arr.wf_iff] at h ⊢
  exact ⟨tSorted_filter _ _ h.1, tSorted_filter _ _ h.2.1, tSorted_filter _ _ h.2.2⟩

/-- So does a line of DRAM that is put back as it stood. -/
theorem State.wf_putDramLine (s : State) (a : Nat) (x : Arr × Arr) (h : Memory.wf s.dram = true) : Memory.wf (s.putDramLine a x).dram = true :=
  Arr.wf_paste _ _ _ _ (Arr.wf_paste _ _ _ _ h)

/-! ## Read after write -/

theorem tFind_foldl_range {α : Type} (f : Nat → α) (lo n x : Nat) (t : Tbl α) :
    tFind ((List.range n).foldl (fun t j => tPut t (lo + j) (f j)) t) x = if lo ≤ x ∧ x < lo + n then some (f (x - lo)) else tFind t x := by
  induction n with
  | zero => simp [show ¬ (lo ≤ x ∧ x < lo) by omega]
  | succ n ih =>
    rw [List.range_succ, List.foldl_append, List.foldl_cons, List.foldl_nil, tFind_tPut, ih]
    by_cases h : x = lo + n
    · subst h; simp
    · by_cases h' : lo ≤ x ∧ x < lo + n <;> simp [h, h'] <;> omega

@[simp] theorem Arr.length_read (a : Arr) (id i n : Nat) : (a.read id i n).length = n := by simp [Arr.read]

/-- The bytes written stand in the array, and every other byte is as it was. -/
theorem Arr.byte_write (a : Arr) (id i x : Nat) (b : List Byte) :
    (a.write id i b).byte id x = if i ≤ x ∧ x < i + b.length then b.getD (x - i) 0 else a.byte id x := by
  unfold Arr.write
  by_cases hb : b = []
  · simp [hb, show ¬ (i ≤ x ∧ x < i) by omega]
  · have h0 : 0 < b.length := List.length_pos_iff.2 hb
    simp only [hb, if_false, Arr.byte, tFind_foldl_range]
    generalize hlo : i / 8 * 8 = lo
    generalize hhi : (i + b.length + 7) / 8 * 8 = hi
    have e : ((a.read id lo (hi - lo)).take (i - lo) ++ b ++ (a.read id lo (hi - lo)).drop (i - lo + b.length)).length = hi - lo := by
      simp; omega
    rw [e]
    by_cases h1 : lo ≤ x ∧ x < lo + (hi - lo)
    · rw [if_pos h1, Option.getD_some]
      by_cases h2 : i ≤ x ∧ x < i + b.length
      · rw [if_pos h2]
        simp only [List.getD_eq_getElem?_getD]
        rw [List.getElem?_append_left (by simp; omega), List.getElem?_append_right (by simp; omega)]
        congr 2; simp; omega
      · rw [if_neg h2]
        simp only [List.getD_eq_getElem?_getD]
        by_cases h3 : x < i
        · rw [List.append_assoc, List.getElem?_append_left (by simp; omega), List.getElem?_take_of_lt (by omega)]
          simp only [Arr.read, List.getElem?_map, List.getElem?_range (show x - lo < hi - lo by omega), Option.map_some, Option.getD_some]
          rw [show lo + (x - lo) = x by omega]; rfl
        · rw [List.getElem?_append_right (by simp; omega), List.getElem?_drop]
          have e2 : i - lo + b.length + (x - lo - ((a.read id lo (hi - lo)).take (i - lo) ++ b).length) = x - lo := by simp; omega
          rw [e2]
          simp only [Arr.read, List.getElem?_map, List.getElem?_range (show x - lo < hi - lo by omega), Option.map_some, Option.getD_some]
          rw [show lo + (x - lo) = x by omega]; rfl
    · rw [if_neg h1, if_neg (show ¬ (i ≤ x ∧ x < i + b.length) by omega)]

theorem Arr.byte_spoil (a : Arr) (id i n x : Nat) : (a.spoil i n).byte id x = a.byte id x := rfl

end Sys2Proof.Machine
end

