-- ==== Sys2Proof/Tests/Slice0.lean ====
section
/-! SUPPORT. Tests: for every clause of every obligation, a theorem `wit_<obligation>_<clause>` that shows a state and operands which meet
the clause's hypotheses together; the spec's worked cases; ill-formed commands.

The clauses about an image, a token or a wrapped key that passes its check need bytes signed or wrapped under a key: their witnesses
(`keyWrapCommandsComplete_5` to `_7`, `keyCommandsComplete_4`, `profileCommandsComplete_1`, `_4`, `_5`, `_8`, `_11`, `securityCommandsComplete_12` and `_16`) say that
for every such bytes a state holds them and meets every other hypothesis. The case of RFC 3394, 4.1 is such bytes for key wrapping. -/

open Sys2Proof Sys2Proof.Machine

namespace Sys2Proof.Tests

set_option Elab.async false

def z : State := State.reset
def upDom (n : Nat) (s : State) : State := s.setDom n 1
def runPg (pg : Nat) (s : State) : State := s.setRf (ra pg 0x00C) 3 0 2
/-- Slice 0 of P-die 0 serves frames, and port 0 is enabled in mode 1 with its link up. -/
def portZ : State :=
  { ((runPg (slicePage 0 0 0) (runPg (slicePage 0 0 1) (runPg (slicePage 0 0 2) (upDom 88 z)))).setRf (aPort 0 0) 31 24 0x81) with links := [(0, ())] }
def pk : Pkt :=
  { gen := 0, pass := 0, decrypted := false, first := false, later := false, stale := false, black := false, port := 0, slice := 0, len := 64, rxts := 0, ts := 0,
    handle := 0, policy := 0, sa := 0, queue := 0, stack := [], fkey := [], tier := 0, due := 5 }
def pdZ (f : PDieState → PDieState) : State := z.modPd 0 f
def fl : Flight :=
  { die := 0, thread := 0, buf := 0, dcyc := 0, slot := 0, record := [], pkt := some pk, delivered := false, cause := 0, returned := none, late := false, pol := 0 }
/-- Cluster 0 is a packet-mode cluster. -/
def pktZ : State := z.setClu 0 fun k => { k with packet := true }
def setTh (s : State) (t : Nat) (f : Thread → Thread) : State := s.modTh t f
def noPrf : Profile :=
  { span := 0, cycle := 1, spares := [], packet := [], entry := 0, program := [], bankMap := [], tiers := [], fallback := [], cross := [], fields := [],
    running := [], domains := [] }
/-- The active profile has one tier, whose table at `P0` gives lane 0, slot 0 to thread 0. -/
def calZ : State := { z with prof := { z.prof with img := { noPrf with tiers := [{ tables := 1, dispatch := [[(0, 0x8000)]], ret := [], region := [] }] } } }
def liveC (c : Nat) (s : State) : State := s.setClu c fun k => { k with st := .live }
def tx : Tx :=
  { handle := 0, len := 64, charge := 64, cipher := 0, sa := 0, gen := 0, tsReq := 0, tsTag := 0, tsOff := 0, ckOff := 0, rxts := 0, ctx := 0, queue := 0,
    filler := false, tpl := 0, role := 0, decrypted := false, inPort := 0, stale := false }
/-- Pool 0 of P-die 0 is enabled, READY, 16 cells at cell 0, with three pointers in its Till. -/
def poolZ : State :=
  (((z.setRb (aPool 0 0 0) 31 true).setRf (aPool 0 0 2) 17 0 16).setRf (aPool 0 0 4) 31 16 100).modPool 0 0 fun x => { x with ready := true, till := [2, 1, 0] }
def bf : Buf := { next := none, off := 0, cnt := 256, tag := 0, acct := 0, pool := 0, poison := false }
def withBuf (c : Nat) (s : State) : State := { s with bufs := [(bufKey 0 c, bf)] }
/-- A first fragment's entry with its result, and a later fragment that waits for it. -/
def fragZ : State :=
  { z with pdies := [(0, { PDieState.empty with fragWait := [{ pk with later := true, fkey := [1] }], frags := [(fragSetOf [1] * 4, { key := [1], result := some (0, 3, 4, 5), used := 0, flaw := none })] })] }
def pktLive : State := z.setClu 0 fun k => { k with packet := true, st := .live }
/-- Port 0's active list holds queue 5, whose visit is open. -/
def qZ : State :=
  { runPg (pdPage 0 6) z with tports := [(0, { active := [5], pos := 0, visit := true, cover := 0 })], queues := [(5, { TmQueue.fresh with frames := [tx], bytes := 64, defi := 100 })] }
/-- Pool 0 of P-die 1 has buffers, and a frame is on the cross link to P-die 1. -/
def poolZ2 : State :=
  { (((z.setRb (aPool 1 0 0) 31 true).setRf (aPool 1 0 2) 17 0 16).setRf (aPool 1 0 4) 31 16 100).modPool 1 0 fun x => { x with ready := true, till := [2, 1, 0] } with now := 7, pdies := [] }
def poolZ1 : State := { poolZ2 with now := 0, pdies := [(0, { PDieState.empty with xfly := [{ tx := { tx with queue := 3 }, bytes := [1,2,3], poison := false, due := 7 }] })] }
/-- Thread `t` of a live task-mode cluster stands at word `w`. -/
def runW (t : Nat) (w : IssueWord) (f : Thread → Thread) (s : State) : State :=
  { (liveC (cluOf t) s).modTh t fun x => f { x with st := .running } with
    cmem := { cells := (List.range 8).map fun i => (cmemAt (cluOf t) (progAt 0) + i, BitVec.ofNat 8 (w.toNat / 256 ^ i)), poison := [], hurt := [] } }
/-- The form with an immediate value. -/
def lf (v : Word) : MoveForm := .long 0 v
/-- The conditions of `State.issues`, `legal`, `trapFree`, `runs` and `fires`, for one trigger move, as one value to compute. -/
def issuesB (s : State) (t : Nat) (w : IssueWord) : Bool :=
  decide (s.canIssue t = true ∧ (s.th t).rep = none ∧ (s.pkt t = true → (s.th t).nextCyc ≠ (s.th t).t0) ∧ (s.th t).lateTrap = [] ∧
    (s.th t).pc < 16384 ∧ s.fetchWord (cluOf t) (s.th t).pc = (w, 0, s))
def legalB (s : State) (t : Nat) (w : IssueWord) : Bool := decide (illegal w (s.pkt t) false false = none ∧ unpopulated w = false)
def slotB (s : State) (t : Nat) (w : IssueWord) : Bool :=
  decide ((s.atSlot t (s.slotOf t)).slotTrap t (s.slotOf t) (s.th t).pc (wordKind w).moves = none)
def trapFreeB (s : State) (t : Nat) (w : IssueWord) : Bool :=
  slotB s t w && decide (postTrap (s.pkt t) ((s.th t).pc + 1) (s.wordRegs t w) (s.wordStart t) (s.wordEffects t w) = none)
def runsB (s : State) (t : Nat) (w : IssueWord) : Bool := issuesB s t w && legalB s t w && decide ((wordKind w).moves ≠ []) && slotB s t w
def firesB (s : State) (t : Nat) (w : IssueWord) (e : Eff) : Bool :=
  runsB s t w && trapFreeB s t w && decide (s.wordEffects t w = [e])
theorem issues_of {s : State} {t : Nat} {w : IssueWord} (h : issuesB s t w = true) : s.issues t w := by
  simpa only [State.issues, issuesB, decide_eq_true_eq] using h
theorem legal_of {s : State} {t : Nat} {w : IssueWord} (h : legalB s t w = true) : s.legal t w := by
  simpa only [State.legal, legalB, decide_eq_true_eq] using h
theorem trapFree_of {s : State} {t : Nat} {w : IssueWord} (h : trapFreeB s t w = true) : s.trapFree t w := by
  simpa only [State.trapFree, trapFreeB, slotB, Bool.and_eq_true, decide_eq_true_eq] using h
theorem runs_of {s : State} {t : Nat} {w : IssueWord} (h : runsB s t w = true) : s.runs t w := by
  simp only [runsB, slotB, Bool.and_eq_true, decide_eq_true_eq] at h
  exact ⟨issues_of h.1.1.1, legal_of h.1.1.2, h.1.2, h.2⟩
theorem fires_of {s : State} {t : Nat} {w : IssueWord} {e : Eff} (h : firesB s t w e = true) : s.fires t w e := by
  simp only [firesB, Bool.and_eq_true, decide_eq_true_eq] at h
  obtain ⟨⟨h1, h2⟩, h3⟩ := h
  have h4 := runs_of h1
  exact ⟨h4.1, h4.2.1, h4.2.2.1, trapFree_of h2, [], [], h3, by simp⟩
/-- The same with further bytes of cluster memory, at lower addresses. -/
def runM (cells : Tbl Byte) (t : Nat) (w : IssueWord) (f : Thread → Thread) (s : State) : State :=
  { runW t w f s with cmem := { (runW t w f s).cmem with cells := cells ++ (runW t w f s).cmem.cells } }
def lockZ (k : Nat) (f : Lock → Lock) : State := { z with locks := [(k, f Lock.free)] }
/-- A DM window of cluster 0: one way of scratchpad above 64 KiB of DRAM. -/
def dmZ : State := (((z.setRf (aCdc 0 0x10C) 15 0 1).setRf (aCdc 0 0x110) 15 0 1).setRf (aCdc 0 0x100) 6 4 1)
/-- Cluster 0 is a packet-mode cluster whose profile declares a span of 100. -/
def spanZ : State := { pktLive with prof := { pktLive.prof with img := { noPrf with span := 100 } } }
theorem cmemRead_of {s : State} {c o n : Nat} {b : List Byte} (h1 : s.cmem.read arrCmem (cmemAt c o) n = b) (h2 : s.cmem.codes arrCmem (cmemAt c o) n = 0) :
    ∀ z : State, z.cmem = s.cmem → z.cmemRead c o n = (b, 0, z) := by
  intro z hz
  simp [State.cmemRead, hz, h1, h2]
def chanZ (k : Nat) (f : Chan → Chan) : State := { z with chans := [(k, f Chan.empty)] }
def msg : Msg := { sender := 6, words := [1, 2], at_ := 0 }
def spmOp (ld po : Bool) : DmOp := { load := ld, sb := 3, value := 77, poison := po, due := 9, line := 0, around := false }
def mt : Maint := { thread := some 8, sb := 4, code := 0, off := 0, refused := false, fatal := false, wait := some 0, arounds := [], cyc := 0 }
def mtc (n : Nat) : Maint := { mt with thread := none, code := n, wait := none, off := 0x10040 }
def line0 : Line := { tag := 1, set := 1, dirty := true, wbPend := false, data := List.replicate 64 3, bad := 0 }
/-- The cache of cluster 0 is on; a dirty line stands in way 0 of set 1; an operation `n` on it waits. -/
def cacheZ (n : Nat) (s : State) : State :=
  { (s.setRb (aCdc 0 0x100) 0 true).setRf (aCdc 0 0x10C) 15 0 2 with lines := [(lineKey 0 1 0, line0)] }.setClu 0 fun k => { k with maint := [mtc n], wbs := [{ addr := 64, set := 0, tag := 0, data := [1] }] }
/-- DRAM that holds the given 32-bit words from `a` on. -/
def dramW (a : Nat) (ws : List Nat) (s : State) : State :=
  { s with dram := { cells := (List.range (4 * ws.length)).map fun i => (a + i, BitVec.ofNat 8 (ws.getD (i / 4) 0 / 256 ^ (i % 4))), poison := [], hurt := [] } }
def stg (n : Nat) : Stage := { op := n, prio := 5, tcb := 9, reason := 1, aux := 0, thread := none }
def telZ (f : Teller → Teller) : State := z.setTeller 0 f
def withTcb (n : Nat) (c p : Word) (s : State) : State := { s with tcbs := [(n, { Tcb.fresh with ctrl := c, place := p })] }
/-- Every context of cluster 0 runs TCB 7, of priority 30. -/
def busyZ (s : State) : State :=
  { s with thr := (List.range 64).map fun i => (i, { Thread.fresh with st := .running, tcb := some 7 }), tcbs := [(7, { Tcb.fresh with ctrl := 0x1E200001 }), (9, { Tcb.fresh with ctrl := 0x05100000, place := 0x10000 })] }
/-- Flow Table image 0 of P-die 0 is a KTYPE 2 key; the place that takes it; the table that holds it. -/
def ftZ : State := z.setReg (aCls 0 0x180) 0x200000
def ftImg : List Nat := 0x200000 :: List.replicate 15 0
def ftAt : Nat := (ftZ.ftFree 0 false (waysOf (ftZ.ftBuckets 0 false ftImg).1 ++ waysOf (ftZ.ftBuckets 0 false ftImg).2)).getD 0
def ftE : State := { ftZ with ft := [(ftKey 0 false ftAt, entStored ftImg false)] }
/-- A BPM command ring or a Flow Table command ring at 0x1000 with one entry of the given words. -/
def ringZ (k : Nat) (ws : List Nat) (s : State) : State :=
  (dramW (0x1000 + 128) ws ((s.setReg (aRing 0 k) 0x1000).setReg (aRing 0 k + 8) 4)).modPd 0 fun x => { x with rings := [(k, (0, 1))] }
def pollZ (k : Nat) : State := dramW 0x1000 [0, 0] ((z.setReg (aRing 0 k) 0x1000).setReg (aRing 0 k + 8) 4)
/-- The TCB image of TCB 9 stands in DRAM, and context 8 is to be restored from it. -/
def restoreZ : State := State.setTeller { z with dram := { cells := (List.range 57).map fun i => (4640 + 8 * i, 0), poison := [], hurt := [] } } 0 fun k => { k with restore := [(8, 9)] }
def lrn : Learn := { key := [2, 2, 3], port := 0, sa := 0, ts := 5, at_ := 7, slice := 0, cmd := none }
def lrnE : List Nat := entStored (entLearn ((learnKey lrn.key ++ List.replicate 4 0).set 12 (z.lrnTmpl 0 lrn.port)) lrn.port lrn.sa lrn.ts) true
def lrnAt : Nat := (z.ftFree 0 false (waysOf (z.ftBuckets 0 false lrnE).1 ++ waysOf (z.ftBuckets 0 false lrnE).2)).getD 0
def lrnZ (ft : Tbl (List Nat)) : State := { pdZ (fun x => { x with learnq := [lrn] }) with ft := ft }
def rlc (ph : Nat) : Reloc := { entry := ftImg, via := 4, moves := [(5, 9)], phase := ph, stash := stashAt, done := 0, target := 5 }
/-- The first record of the SA table of P-die 0 holds zeros. -/
def satZ : State := { z with sat := { cells := (List.range 96).map fun j => (satAt 0 0 + j, 0), poison := [], hurt := [] } }
/-- The epoch controller runs, with the given state. -/
def epcZ (f : Epc → Epc) : State := { z.setReg (aEpc 0x100) 0xF0000000 with epc := f { Epc.fresh with target := 40000000, len := 8000 } }
def fmgZ (f : FmgState → FmgState) : State := { z with fmg := f FmgState.fresh }
def cluS (f : Cluster → Cluster) : State := z.setClu 0 f
def secZ (f : Sec → Sec) : State := { z with sec := f Sec.fresh }
def pwrZ (f : Pwr → Pwr) : State := { z with pwr := f Pwr.fresh }
/-- The host's memory holds the given 32-bit words from address 0 on, then 60 bytes of 7 at 0x1000; DMA pair 3 is open. -/
def hostRingZ (ws : List Nat) (s : State) : State :=
  { runPg (dmaPage 3) (upDom 110 s) with
    perst := false
    host := (List.range (4 * ws.length)).map (fun i => (i, BitVec.ofNat 8 (ws.getD (i / 4) 0 / 256 ^ (i % 4)))) ++ (List.range 60).map fun i => (0x1000 + i, 7) }
/-- One descriptor of the punt ring and one of the injection ring of pair 3 are posted. -/
def ringsZ (s : State) : State :=
  (((s.setReg (aDma 3 0x118) 4).setReg (aDma 3 0x11C) 1).setReg (aDma 3 0x138) 4).setReg (aDma 3 0x13C) 1
def puntZ (s : State) : State := { s with punts := [(3, [{ pkt := pk, cause := 0, copy := false }])] }
/-- Pool 0 of P-die 0 serves DMA injection, and queue 5 is enabled. -/
def injZ : State :=
  { hostRingZ [0x1000, 0, 60, 5, 0, 0] (ringsZ poolZ) with queues := [(5, { TmQueue.fresh with w0 := 0x80000000 })] }
/-- Debug permission, and thread `t` in the given state. -/
def dbgZ (t : Nat) (f : Thread → Thread) (s : State) : State := (s.setReg (ra (mPage 4) 0x10C) 7).modTh t f
theorem all_range {p : Nat → Prop} {a b : Nat} (h : ∀ x, x < b → a ≤ x → p x) : ∀ x, a ≤ x → x < b → p x :=
  fun x h1 h2 => h x h2 h1
def injS2 : State := (injZ.storeFrame 0 136 (engine 2 0 3) (injZ.hostRead 0x1000 60)).2
def injS3 : State :=
  (injS2.tmStep2 0 (injectTx (injZ.hostRead 0 24) (mkHandle 0 2) 60 injS2.gen injS2.tb (if injS2.rb (aDma 3 0x100) 30 then 3 else 2))).2
theorem dramRange_of {s : State} {a n : Nat} (h : ∀ d, d < 2 → ∀ m, m < 4 → s.rb (aMir d m) 31 = false)
    (h2 : a + n < 0x6FFE40000 - 256) : s.dramRange a n = true := by
  simp only [State.dramRange, List.all_eq_true, List.mem_range]
  intro j hj
  have e : ∀ x, dramDie x < 2 := fun x => by unfold dramDie; split <;> decide
  have hb : a / 256 * 256 + 256 * j < 0x6FFE40000 := by omega
  simp only [State.dramUsable, dramLocal, dramDie, State.mirOf, State.mirWin, show a / 256 * 256 + 256 * j < 0x700000000 by omega, if_true]
  have h0 := h 0 (by decide)
  simp [h0 0 (by decide), h0 1 (by decide), h0 2 (by decide), h0 3 (by decide), hb]; omega
theorem clean_of {s : State} (h : ∀ d, d < 2 → ∀ m, m < 4 → s.rb (aMir d m) 31 = false) (h2 : ∀ ch, ch < 32 → s.faulted ch = false) (x : Nat) :
    s.mirOf x = none ∧ s.faulted (dramChan x) = false := by
  have e : dramDie x < 2 := by unfold dramDie; split <;> decide
  refine ⟨?_, h2 _ ?_⟩
  · have h0 := h _ e
    simp [State.mirOf, State.mirWin, h0 0 (by decide), h0 1 (by decide), h0 2 (by decide), h0 3 (by decide)]
  · unfold dramChan; omega
/-- The region calendar gives core 0 a port in the cycle of the packet context's slot, and entry 5 of the Policy Table is valid. -/
def tbZ : State :=
  { spanZ with
    prof := { spanZ.prof with img := { noPrf with span := 100, tiers := [{ tables := 1, dispatch := [], ret := [], region := [[(672, 128)]] }] } }
    pol := [(5 * 8, 0x80000000)] }
/-- Every byte of the ring's cell of pool 0 has been written. -/
def ringPkt (s : State) : State := { s with pktMem := { cells := (List.range 64).map fun i => (i, 0), poison := [], hurt := [] } }
/-- The same with poison in the image. -/
def restoreP : State := { restoreZ with dram := { restoreZ.dram with poison := [(581, ())] } }
/-- The same, where thread 5 has issued the operation. -/
def cacheT (n : Nat) (s : State) : State := (cacheZ n s).setClu 0 fun k => { k with maint := k.maint.map fun m => { m with thread := some 5 } }
/-- A cache, an INVAL of line 1 in a turn of core cycle 0, and that turn begun. -/
def view0 (l : List Maint) (t : Tbl Line) (w : List Wb) : CdcView := { lines := t, victim := [], wbs := w, recalls := [], maint := l, flush := none, counts := [0, 0, 0, 0] }
def opAt (t : Nat) : CdcOp := { thread := t, sb := 6, what := .maint 3 2, addr := 0x40, mem := 0, was := (Arr.empty, Arr.empty), left := (Arr.empty, Arr.empty) }
def turnAt (t : Nat) (v : CdcView) : CdcTurn := { cyc := 0, ops := [opAt t], base := v, left := v }
def turnZ (t : Nat) (v : CdcView) (s : State) : State := s.setClu 0 fun k => { k with turn := some (turnAt t v) }
/-! ### A flat cluster memory, for coprocessor commands -/

/-- Cluster memory of cluster 0 with every byte below `n` and `m` bytes of the key area written, byte `i` holding `f i`. -/
def flatMem (n m : Nat) (f : Nat → Byte) : Arr :=
  { cells := ((List.range n).map fun i => (i, f i)) ++ ((List.range m).map fun i => (0xC8000 + i, f (0xC8000 + i))), poison := [], hurt := [] }
theorem tFind_append {α : Type} (l r : Tbl α) (k : Nat) : tFind (l ++ r) k = (tFind l k).orElse fun _ => tFind r k := by
  induction l with
  | nil => rfl
  | cons e l ih =>
    obtain ⟨i, v⟩ := e
    by_cases h : i = k
    · simp [tFind, h]
    · simp [tFind, h, ih]
theorem tFind_map (l : List Nat) (b k : Nat) (g : Nat → Byte) : tFind (l.map fun i => (b + i, g i)) (b + k) = if k ∈ l then some (g k) else none := by
  induction l with
  | nil => rfl
  | cons i l ih =>
    by_cases h : i = k
    · subst h; simp [tFind]
    · simp [tFind, h, ih, Ne.symm h]
theorem tFind_range_none (n b k : Nat) (g : Nat → Byte) (h : k < b) : tFind ((List.range n).map fun i => (b + i, g i)) k = none := by
  generalize List.range n = l
  induction l with
  | nil => rfl
  | cons i l ih => simp [tFind, ih]; omega
/-- A byte that `flatMem` lists. -/
def inFlat (n m k : Nat) : Bool := decide (k < n) || decide (0xC8000 ≤ k ∧ k < 0xC8000 + m)
theorem flat_find {n m k : Nat} {f : Nat → Byte} (_hn : n ≤ 0xC8000) (h : inFlat n m k = true) : tFind (flatMem n m f).cells k = some (f k) := by
  have e := tFind_map (List.range n) 0 k f
  simp only [Nat.zero_add, List.mem_range] at e
  simp only [flatMem, tFind_append, e]
  by_cases hk : k < n
  · simp [hk]
  · simp only [inFlat, hk, decide_false, Bool.false_or, decide_eq_true_eq] at h
    have e2 := tFind_map (List.range m) 0xC8000 (k - 0xC8000) fun i => f (0xC8000 + i)
    rw [show 0xC8000 + (k - 0xC8000) = k by omega] at e2
    simp only [hk, if_false, Option.orElse_none, e2, List.mem_range, show k - 0xC8000 < m by omega, if_true]
/-- `len` bytes from `o` that `flatMem` lists. -/
def spanFlat (n m o len : Nat) : Bool := decide (o + len ≤ n) || decide (0xC8000 ≤ o ∧ o + len ≤ 0xC8000 + m)
theorem inFlat_of_span {n m o len k : Nat} (h : spanFlat n m o len = true) (h1 : o ≤ k) (h2 : k < o + len) : inFlat n m k = true := by
  simp only [spanFlat, inFlat, Bool.or_eq_true, decide_eq_true_eq] at *
  omega
theorem flat_read {n m o len : Nat} {f : Nat → Byte} (hn : n ≤ 0xC8000) (h : spanFlat n m o len = true) :
    (flatMem n m f).read arrCmem o len = (List.range len).map fun j => f (o + j) := by
  simp only [Arr.read, Arr.byte]
  apply List.map_congr_left
  intro j hj
  rw [flat_find hn (inFlat_of_span h (by omega) (by have := List.mem_range.1 hj; omega))]
  rfl
theorem flat_codes {n m o len : Nat} {f : Nat → Byte} (hn : n ≤ 0xC8000) (h : spanFlat n m o len = true) (ho : o % 8 = 0) :
    (flatMem n m f).codes arrCmem o len = 0 := by
  have e : ∀ l : List Nat, (∀ j ∈ l, j < (o + len + 7) / 8 - o / 8) → (l.map fun j => (flatMem n m f).code arrCmem (o / 8 + j)).foldl max 0 = 0 := by
    intro l
    induction l with
    | nil => intro _; rfl
    | cons j l ih =>
      intro hl
      have h1 : (flatMem n m f).code arrCmem (o / 8 + j) = 0 := by
        have h2 := hl j (by simp)
        have h3 := flat_find (f := f) hn (inFlat_of_span h (k := 8 * (o / 8 + j)) (by omega) (by omega))
        unfold Arr.code
        rw [show tFind (flatMem n m f).poison (o / 8 + j) = none from rfl, h3]
        rfl
      simp only [List.map_cons, List.foldl_cons, h1, Nat.max_self]
      exact ih fun j hj => hl j (by simp [hj])
  exact e _ fun j hj => List.mem_range.1 hj
/-- What an operand of the flat memory holds. -/
def operand (f : Nat → Byte) (a : CopArg) : List Byte := (List.range a.len).map fun j => f (a.ptr + j)
/-- No access of cluster 0's CMEM ports is kept. -/
def quietPort (s : State) : Prop := ((s.clu? 0).acc, (s.clu? 0).bacc) = ([], [])
theorem bRead_quiet {s : State} (h : quietPort s) (n m o len : Nat) : s.bRead 0 n m o len = s.cmemRead 0 o len := by
  have h1 : (s.clu? 0).acc = [] := congrArg Prod.fst h
  have h2 : (s.clu? 0).bacc = [] := congrArg Prod.snd h
  simp [State.bRead, State.atPort, State.portBack, Cluster.after, h1, h2]
theorem copReads_of {s : State} {n m y : Nat} {f : Nat → Byte} (hs : s.cmem = flatMem n m f) (hq : quietPort s) (hn : n ≤ 0xC8000) (args : List CopArg)
    (h : ∀ a ∈ args, a.ptr % 8 = 0 ∧ spanFlat n m a.ptr a.len = true) : s.copReads 0 y args = (args.map (operand f), none, s) := by
  induction args with
  | nil => rfl
  | cons a r ih =>
    have h1 := h a (by simp)
    have hr : s.cmemRead 0 a.ptr a.len = (operand f a, 0, s) := by
      have ha : cmemAt 0 a.ptr = a.ptr := by simp [cmemAt]
      simp [State.cmemRead, hs, ha, flat_read hn h1.2, flat_codes hn h1.2 h1.1, operand]
    simp [State.copReads, bRead_quiet hq, hr, ih fun x hx => h x (by simp [hx])]
/-- The operands of a command are in order over a flat memory. -/
def mayB (n m : Nat) (args dests : List CopArg) : Bool :=
  decide (n ≤ 0xC8000) && (args ++ dests).all (fun a => a.ok && a.keyOk) && args.all fun a => decide (a.ptr % 8 = 0) && spanFlat n m a.ptr a.len
theorem copMay_of {s : State} {n m x : Nat} {k : CopCmd} {f : Nat → Byte} {args dests : List CopArg} (hs : s.cmem = flatMem n m f) (hq : quietPort s)
    (h : mayB n m args dests = true) : s.copMay 0 x k args dests (args.map (operand f)) := by
  simp only [mayB, Bool.and_eq_true, List.all_eq_true, decide_eq_true_eq] at h
  exact ⟨h.1.2, copReads_of hs hq h.1.1 args h.2⟩
/-- A command block of the given words, the rest of them 0; memory that holds it at address 0 and `d` elsewhere. -/
def blkF (ws : List Nat) (d : Byte) (i : Nat) : Byte := if i < 64 then BitVec.ofNat 8 (ws.getD (i / 4) 0 / 256 ^ (i % 4)) else d
def blk (ws : List Nat) : List Byte := (List.range 64).map (blkF ws 0)
def cmd (k : Nat) : CopCmd := { thread := 8, sb := 3, ptr := 0, kind := k, at_ := 9 }
/-- Coprocessor `n` of cluster 0 is idle with one command before it; `f` is the memory. -/
def copZ (n : Nat) (f : Nat → Byte) (g : Cop → Cop) : State :=
  { z with cmem := flatMem 0x2000 0x1000 f, cops := [(n, g { Cop.idle with queue := [cmd 0] })], kek := [(0, (List.range 16).map (BitVec.ofNat 8))] }
theorem copNext_of {n opc : Nat} {ws : List Nat} {f : Nat → Byte} {g : Cop → Cop}
    (h2 : ((copZ n f g).cop 0 n).run = none) (h3 : ((copZ n f g).cop 0 n).queue = [cmd 0]) (hb : (List.range 64).map f = blk ws) (ho : blkOpc (blk ws) = opc) :
    (copZ n f g).copNext ((copZ n f g).upToCyc (max 9 ((copZ n f g).cop 0 n).freeAt)) 0 n opc (cmd 0) (blk ws) := by
  have e := flat_read (n := 0x2000) (m := 0x1000) (o := 0) (len := 64) (f := f) (by decide) (by decide)
  have e2 := flat_codes (n := 0x2000) (m := 0x1000) (o := 0) (len := 64) (f := f) (by decide) (by decide) (by decide)
  simp only [Nat.zero_add] at e
  refine ⟨h2, by simp [h3], rfl, ?_, ho⟩
  show State.copBlock ((copZ n f g).upToCyc (max 9 ((copZ n f g).cop 0 n).freeAt)) 0 n (cmd 0) = _
  generalize hs : (copZ n f g).upToCyc (max 9 ((copZ n f g).cop 0 n).freeAt) = s
  have q : quietPort s := by rw [← hs]; rfl
  have hm : s.cmem = flatMem 0x2000 0x1000 f := by rw [← hs]; rfl
  have hr : s.cmemRead 0 0 64 = (blk ws, 0, s) := by
    simp [State.cmemRead, hm, cmemAt, e, e2, hb]
  simp [State.copBlock, bRead_quiet q, cmd, hr]
/-- LEN2, where the three words that may hold it agree. -/
theorem blkLen2_of {b : List Byte} {n : Nat} (h1 : blkWord b 10 = n) (h2 : blkWord b 11 = n) (h3 : blkWord b 13 = n) : blkLen2 b = n := by
  unfold blkLen2
  have h : Config.len2Word (blkOpc b) % 3 < 3 := Nat.mod_lt _ (by decide)
  generalize Config.len2Word (blkOpc b) % 3 = k at h
  match k with
  | 0 => exact h1
  | 1 => exact h2
  | 2 => exact h3
theorem operand_zero {ws : List Nat} {a : CopArg} (h : 64 ≤ a.ptr) : ∀ y ∈ operand (blkF ws 0) a, y = 0 := by
  intro y hy
  obtain ⟨j, _, rfl⟩ := List.mem_map.1 hy
  simp [blkF, show ¬ a.ptr + j < 64 by omega]
theorem bytesAt_zero {l : List Byte} (h : ∀ y ∈ l, y = 0) (o n : Nat) : bytesAt l o n = List.replicate n 0 := by
  rw [List.eq_replicate_iff]
  refine ⟨by simp [bytesAt], fun y hy => ?_⟩
  obtain ⟨j, _, rfl⟩ := List.mem_map.1 hy
  rw [List.getD_eq_getElem?_getD]
  by_cases hl : o + j < l.length
  · simp [hl, h _ (List.getElem_mem hl)]
  · simp [hl]
theorem polyOf_small {ws : List Nat} {a : CopArg} {q : Nat} (h : 64 ≤ a.ptr) (hq : 0 < q) : ∀ x ∈ polyOf (operand (blkF ws 0) a), x < q := by
  intro x hx
  obtain ⟨j, _, rfl⟩ := List.mem_map.1 hx
  rw [leAt, bytesAt_zero (operand_zero h)]
  exact hq
theorem leNat_zero {l : List Byte} (h : ∀ y ∈ l, y = 0) : leNat l = 0 := by
  induction l with
  | nil => rfl
  | cons b r ih => simp [leNat, h b (by simp), ih fun y hy => h y (by simp [hy])]
theorem kemEkOk_zero {l : List Byte} (h : ∀ y ∈ l, y = 0) : kemEkOk l = true := by
  have h1 : leNat (padTo (32 * 12) (List.replicate 384 (0 : Byte))) = 0 := by
    rw [padTo, bytesAt_zero fun y hy => (List.mem_replicate.1 hy).2]
    exact leNat_zero fun y hy => (List.mem_replicate.1 hy).2
  simp only [kemEkOk, kemVec, bytesAt_zero h, kemDecode, h1, List.all_map, List.all_eq_true]
  intro i _
  rw [Function.comp_apply, List.all_eq_true]
  intro x hx
  rw [List.mem_map] at hx
  obtain ⟨j, _, hj⟩ := hx
  rw [← hj, bitsOf, Nat.zero_shiftRight, Nat.zero_mod]
  exact decide_eq_true (by decide)
theorem operand_const {ws : List Nat} {d : Byte} {a : CopArg} (h : 64 ≤ a.ptr) : operand (blkF ws d) a = List.replicate a.len d := by
  rw [List.eq_replicate_iff]
  refine ⟨by simp [operand], fun y hy => ?_⟩
  obtain ⟨j, _, rfl⟩ := List.mem_map.1 hy
  simp [blkF, show ¬ a.ptr + j < 64 by omega]
theorem bytesAt_const (d : Byte) {m o n : Nat} (h : o + n ≤ m) : bytesAt (List.replicate m d) o n = List.replicate n d := by
  rw [List.eq_replicate_iff]
  refine ⟨by simp [bytesAt], fun y hy => ?_⟩
  obtain ⟨j, hj, rfl⟩ := List.mem_map.1 hy
  have := List.mem_range.1 hj
  rw [List.getD_eq_getElem?_getD]
  simp [show o + j < m by omega]
theorem kemEkOk_big {m : Nat} (hm : 384 ≤ m) : kemEkOk (List.replicate m 255) = false := by
  have h : 3329 ≤ bitsOf (leNat (padTo (32 * 12) (bytesAt (List.replicate m 255) (384 * 0) 384))) (12 * 0 + 12 - 1) (12 * 0) := by
    rw [bytesAt_const 255 (by omega), padTo, bytesAt_const 255 (by decide)]
    decide +kernel
  rw [Bool.eq_false_iff]
  intro e
  have h1 := List.all_eq_true.1 e _ (List.mem_map.2 ⟨0, List.mem_range.2 (by decide), rfl⟩)
  have h2 := List.all_eq_true.1 h1 _ (List.mem_map.2 ⟨0, List.mem_range.2 (by decide), rfl⟩)
  have h3 := of_decide_eq_true h2
  omega
theorem polyOf_big {m q : Nat} (hm : 2 ≤ m) (hq : q ≤ 65535) : ∃ x ∈ polyOf (List.replicate m 255), q ≤ x := by
  refine ⟨leAt (List.replicate m 255) (2 * 0) 2, List.mem_map.2 ⟨0, List.mem_range.2 (by simp; omega), rfl⟩, ?_⟩
  rw [leAt, bytesAt_const 255 (by omega)]
  exact hq
/-- A block at 0 and the bytes `p` from 0x100 on. -/
def ptrF (ws : List Nat) (p : List Byte) (i : Nat) : Byte := if i < 64 then blkF ws 0 i else p.getD (i - 0x100) 0
theorem operand_ptr {ws : List Nat} {p : List Byte} {a : CopArg} (h : a.ptr = 0x100) (hl : p.length = a.len) : operand (ptrF ws p) a = p := by
  apply List.ext_getElem
  · simp [operand, hl]
  · intro i h1 h2
    simp [operand, ptrF, h, show ¬ 0x100 + i < 64 by omega, h2]
def crun : CopRun :=
  { cmd := cmd 0, opc := 4, code := 0, count := 64, writes := [(8, [1, 2, 3, 4, 5, 6, 7, 8])], vault := none, state := [], valid := false, due := 70 }
/-- The scalar 1 in the key area and the base point of P-384 at 0x100. -/
def curveF (ws : List Nat) (i : Nat) : Byte :=
  if i < 64 then blkF ws 0 i else if i = 0xC8000 then 1 else (leBytes 48 p384G.1 ++ leBytes 48 p384G.2).getD (i - 0x100) 0
theorem flag_eta {α β : Type} {x : α × Bool × β} {b : Bool} (h : x.2.1 = b) : x = (x.1, b, x.2.2) := Prod.ext rfl (Prod.ext h rfl)
theorem wit_stepRunsTheFrontCommand_1 : ∃ (c : Instr) (r : List Instr) (s : State), (s.pending = c :: r) :=
  ⟨.tapReset, [], { z with pending := [.tapReset] }, by decide⟩

theorem wit_stepRunsTheFrontCommand_2 : ∃ (s : State) (v : State), (s.pending = []) ∧ (v = { s.upset with now := s.now + coreTicks s.clk.point }) :=
  ⟨z, _, by decide, rfl⟩

theorem wit_everyStepKeepsTheStateSound_1 : ∃ (s : State) (u : State), (s.sound = true) ∧ (step s = .next u) :=
  ⟨z, { z.upset with now := z.now + coreTicks z.clk.point }.secDue, by decide, rfl⟩

theorem wit_ownershipCannotBeUndone_1 : ∃ (s : State) (u : State), (step s = .next u) :=
  ⟨z, { z.upset with now := z.now + coreTicks z.clk.point }.secDue, rfl⟩

theorem wit_commandsLeaveOtherStateAlone_1 : ∃ (c : Instr) (s : State) (u : State), (exec c s = .next u) :=
  ⟨.jtagExtest, z, { z with tap := { z.tap with extest := true } }, rfl⟩

theorem wit_moveWordsReadAsTheyAreWritten_4 : ∃ (w : IssueWord), (w.toNat.testBit 63 = true) ∧ (w.toNat.testBit 31 = false) :=
  ⟨0x8000000012345678, by decide⟩

theorem wit_portCommandsComplete_3 : ∃ (port : PortId) (s : State), (s.portUp (port.val / 64) (port.val % 64) = true) ∧ (s.sliceUp (port.val / 64) (port.val % 64 / 8) = true) :=
  ⟨0, { portZ with pauses := [(0, 7)] }, by decide⟩

theorem wit_portCommandsComplete_4 : ∃ (port : PortId) (pri : Fin 8) (u : Nat) (s : State), (tFind s.pauses (port.val * 8 + pri.val) = some u) :=
  ⟨0, 1, 77, { portZ with pauses := [(1, 77)] }, by decide⟩

theorem wit_portCommandsComplete_5 : ∃ (port : PortId) (v : Word) (s : State), (s.domIsOn (domPair (port.val / 64) (port.val % 64 / 16)) = true) ∧ (s.pgHalted (macPage (port.val / 64) (port.val % 64 / 8)) = true) ∧ (v.getLsbD 31 = true → (s.writeReg (aPort (port.val / 64) (port.val % 64)) v).portOk (port.val / 64) (port.val % 64) = true) :=
  ⟨0, 0x81000005, upDom 88 z, by decide⟩

theorem wit_portCommandsComplete_6 : ∃ (port : PortId) (v : Word) (s : State), (s.domIsOn (domPair (port.val / 64) (port.val % 64 / 16)) = true) ∧ ((s.writeReg (aPort (port.val / 64) (port.val % 64)) v).portOk (port.val / 64) (port.val % 64) = false) :=
  ⟨0, 0x8F000005, upDom 88 z, by decide⟩

theorem wit_portCommandsComplete_7 : ∃ (d : PDie) (sl : Slice) (tag : Nat) (ctx : Nat) (u : Nat) (r : List (Nat × Nat × Nat)) (s : State), (s.domIsOn (domPair d.val (sl.val / 2)) = true) ∧ (tGet (fun _ => []) (s.pd d.val).tsFifo sl.val = (tag, ctx, u) :: r) :=
  ⟨0, 0, 3, 4, 77, [(9,9,9)], upDom 88 (z.modPd 0 fun x => { x with tsFifo := [(0, [(3,4,77),(9,9,9)])] }), by decide⟩

theorem wit_portCommandsComplete_8 : ∃ (d : PDie) (sl : Slice) (v : Word) (s : State), (s.domIsOn (domPair d.val (sl.val / 2)) = true) ∧ (s.pgHalted (prsPage d.val sl.val) = true) ∧ (bit v 31 ≠ s.rb (ra (prsPage d.val sl.val) 0x100) 31) :=
  ⟨0, 0, 0x80000000, upDom 88 z, by decide⟩

theorem wit_ingressCommandsComplete_1 : ∃ (port : PortId) (b : List Byte) (fcsOk : Bool) (s : State), (s.portUp (port.val / 64) (port.val % 64) = true) ∧ (s.sliceUp (port.val / 64) (port.val % 64 / 8) = true) ∧ (s.macDrop (port.val / 64) (port.val % 64) b (fcsOk && !s.offSince (port.val / 64) (port.val % 64) 1 (s.frameStart (port.val / 64) (port.val % 64) b.length)) = none) ∧ (isControl b 0x0101 = false) :=
  ⟨0, List.replicate 64 0, true, portZ, by decide⟩

theorem wit_ingressCommandsComplete_2 : ∃ (port : PortId) (b : List Byte) (fcsOk : Bool) (k : Nat) (s : State), (s.portUp (port.val / 64) (port.val % 64) = true) ∧ (s.sliceUp (port.val / 64) (port.val % 64 / 8) = true) ∧ (s.macDrop (port.val / 64) (port.val % 64) b (fcsOk && !s.offSince (port.val / 64) (port.val % 64) 1 (s.frameStart (port.val / 64) (port.val % 64) b.length)) = some k) :=
  ⟨0, List.replicate 64 0, false, 0, portZ, by decide⟩

theorem wit_ingressCommandsComplete_3 : ∃ (d : PDie) (sl : Slice) (k : Pkt) (r : List Pkt) (s : State) (u : State), (tGet (fun _ => []) (s.pd d.val).ingress sl.val = k :: r) ∧ (u = (s.upTo k.due).modPd d.val (fun x => { x with ingress := tSet (fun _ => []) x.ingress sl.val r })) ∧ (k.stale = false) ∧ (∀ i, i < sl.val → s.releaseFab d.val i ≠ some (k.due / 16)) ∧ (u.held d.val (k.port % 64) = true) ∧ ((u.pd d.val).holdq.length < 16384) :=
  ⟨0, 0, pk, [], { pdZ (fun x => { x with ingress := [(0, [pk])] }) with pools := [(0, { Pool.empty with levels := 4 })] }, _, by decide, rfl, by decide⟩

theorem wit_ingressCommandsComplete_4 : ∃ (d : PDie) (sl : Slice) (k : Pkt) (r : List Pkt) (s : State) (u : State), (tGet (fun _ => []) (s.pd d.val).ingress sl.val = k :: r) ∧ (u = (s.upTo k.due).modPd d.val (fun x => { x with ingress := tSet (fun _ => []) x.ingress sl.val r })) ∧ (k.stale = false) ∧ (∀ i, i < sl.val → s.releaseFab d.val i ≠ some (k.due / 16)) ∧ (u.held d.val (k.port % 64) = false) ∧ (∀ h ∈ (s.pd d.val).holdq, h.port ≠ k.port) ∧ (k.later = false) ∧ (k.first = false) :=
  ⟨0, 0, pk, [], pdZ (fun x => { x with ingress := [(0, [pk])] }), _, by decide, rfl, by decide⟩

theorem wit_ingressCommandsComplete_5 : ∃ (d : PDie) (k : Pkt) (r : List Pkt) (pol : Nat) (sa : Nat) (q : Nat) (s : State), ((s.pd d.val).fragWait = k :: r) ∧ (k.stale = false) ∧ (k.later = true) ∧ (∀ e ∈ (s.pd d.val).frags, e.2.flaw = none) ∧ (s.fragHas d.val k.fkey = some (0, pol, sa, q)) :=
  ⟨0, { pk with later := true, fkey := [1] }, [], 3, 4, 5, fragZ, by decide, by decide, by decide, by decide, by simp [State.fragHas, State.fragWay, flawUe, fragZ, State.pd, tFind, tGet, List.range, List.range.loop]⟩

theorem wit_ingressCommandsComplete_6 : ∃ (d : PDie) (k : Pkt) (r : List Pkt) (s : State), ((s.pd d.val).fragWait = k :: r) ∧ (k.stale = false) :=
  ⟨0, pk, [], pdZ (fun x => { x with fragWait := [pk] }), by decide⟩

theorem wit_ingressCommandsComplete_7 : ∃ (d : PDie) (s : State), ((s.pd d.val).frags ≠ []) :=
  ⟨0, pdZ (fun x => { x with frags := [(0, { key := [1], result := none, used := 9, flaw := none }), (3, { key := [2], result := none, used := 8, flaw := none })] }), by decide⟩

theorem wit_ingressCommandsComplete_8 : ∃ (d : PDie) (k : Pkt) (r : List Pkt) (s : State), ((s.pd d.val).hold = k :: r) ∧ ((s.pd d.val).ready.length < 4096) ∧ (k.stale = false) ∧ (k.tier = 0) :=
  ⟨0, pk, [], pdZ (fun x => { x with hold := [pk] }), by decide⟩

theorem wit_ingressCommandsComplete_9 : ∃ (d : PDie) (ftLate : Bool) (k : Pkt) (r : List Pkt) (s : State), ((s.pd d.val).hold = k :: r) ∧ ((s.pd d.val).ready.length < 4096) ∧ (k.stale = false) ∧ (k.tier = 1 ∨ k.tier = 2) ∧ (ftLate = true) :=
  ⟨0, true, { pk with tier := 1 }, [], pdZ (fun x => { x with hold := [{ pk with tier := 1 }] }), by decide⟩

theorem wit_ingressCommandsComplete_10 : ∃ (d : PDie) (ftLate : Bool) (k : Pkt) (r : List Pkt) (s : State), ((s.pd d.val).hold = k :: r) ∧ ((s.pd d.val).ready.length < 4096) ∧ (k.stale = false) ∧ (k.tier = 3 ∨ (k.tier = 2 ∧ ftLate = false)) :=
  ⟨0, true, { pk with tier := 3 }, [], pdZ (fun x => { x with hold := [{ pk with tier := 3 }] }), by decide⟩

theorem wit_ingressCommandsComplete_11 : ∃ (d : PDie) (k : Pkt) (r : List Pkt) (s : State), ((s.pd d.val).holdq = k :: r) ∧ (s.held d.val (k.port % 64) = false) :=
  ⟨0, pk, [], pdZ (fun x => { x with holdq := [pk] }), by decide⟩

theorem wit_recordCommandsComplete_1 : ∃ (d : PDie) (slot : Fin 16384) (t : Nat) (b : Nat) (c : Nat) (k : Pkt) (q : List Pkt) (s : State), (c = nextCongr s.cycCeil (slot.val / 4) 4096) ∧ (s.calEntry d.val (s.calTable c) slot.val = some (t, b)) ∧ (d.val ∉ s.halted) ∧ (s.linkWeak (slot.val % 4 * 2 + d.val) = false) ∧ ((s.upToCyc c).seamHolds d.val t b c = false) ∧ ((s.pd d.val).ready = k :: q) ∧ (k.stale = false) :=
  ⟨0, 0, 0, 0, 0, pk, [], { calZ.modPd 0 (fun x => { x with ready := [pk] }) with now := 0 }, by decide⟩

theorem wit_recordCommandsComplete_2 : ∃ (t : ThreadId) (buf : Bool) (f : Flight) (r : List Flight) (s : State), (s.flights = f :: r) ∧ (f.thread = t.val) ∧ (f.buf = b2n buf) ∧ (f.delivered = false) ∧ (f.cause = 0) ∧ (∀ g ∈ r, g.thread ≠ t.val) ∧ ((s.clu? (cluOf t.val)).st = .live) ∧ ((s.clu? (cluOf t.val)).packet = true) ∧ ((s.th t.val).stopped = false) :=
  ⟨8, false, { fl with thread := 8, record := [1,2,3] }, [], { pktLive with flights := [{ fl with thread := 8, record := [1,2,3] }] }, by decide⟩

theorem wit_recordCommandsComplete_3 : ∃ (d : PDie) (slot : Fin 16384) (f : Flight) (r : List Flight) (s : State), (s.flights = f :: r) ∧ (f.die = d.val) ∧ (s.returnOf f.slot = slot.val) ∧ (s.runsFlight f = true) ∧ (f.cause = 0) ∧ (f.pkt.isSome = true) ∧ (∀ g ∈ r, g.thread ≠ f.thread) ∧ ((s.clu? (cluOf f.thread)).st = .live) ∧ ((s.th f.thread).ended = true) ∧ ((s.th f.thread).stopped = false) ∧ ((s.th f.thread).recPois = false) ∧ ((s.th f.thread).st = .running) :=
  ⟨0, 0, { fl with delivered := true, thread := 8, slot := (16384 - 4 * (168 % 4096)) % 16384 }, [], State.modTh { pktLive with flights := [{ fl with delivered := true, thread := 8, slot := (16384 - 4 * (168 % 4096)) % 16384 }] } 8 fun x => { x with ended := true, st := .running, t0 := 160 }, by decide⟩

theorem wit_recordCommandsComplete_4 : ∃ (d : PDie) (f : Flight) (k : Pkt) (b : List Byte) (cause : Nat) (s : State) (u : State), (s.nextResult d.val = some f) ∧ (f.pkt = some k) ∧ (f.returned = some (b, cause)) ∧ (k.stale = false) ∧ (u = { s.upToCyc (f.dcyc + s.tRet + 160) with flights := s.flights.filter fun g => !decide (g.thread = f.thread ∧ g.buf = f.buf ∧ g.dcyc = f.dcyc) }) ∧ (f.late = true) :=
  ⟨0, { fl with delivered := true, returned := some ([1], 0), late := true }, pk, [1], 0, { z with flights := [{ fl with delivered := true, returned := some ([1], 0), late := true }] }, _, by decide, by decide, by decide, by decide, rfl, by decide⟩

theorem wit_recordCommandsComplete_5 : ∃ (d : PDie) (f : Flight) (k : Pkt) (b : List Byte) (cause : Nat) (s : State) (u : State), (s.nextResult d.val = some f) ∧ (f.pkt = some k) ∧ (f.returned = some (b, cause)) ∧ (k.stale = false) ∧ (u = { s.upToCyc (f.dcyc + s.tRet + 160) with flights := s.flights.filter fun g => !decide (g.thread = f.thread ∧ g.buf = f.buf ∧ g.dcyc = f.dcyc) }) ∧ (f.late = false) ∧ (cause ≠ 0) :=
  ⟨0, { fl with delivered := true, returned := some ([1], 0x100) }, pk, [1], 0x100, { z with flights := [{ fl with delivered := true, returned := some ([1], 0x100) }] }, _, by decide, by decide, by decide, by decide, rfl, by decide⟩

theorem wit_recordCommandsComplete_6 : ∃ (d : PDie) (f : Flight) (k : Pkt) (b : List Byte) (cause : Nat) (s : State) (u : State), (s.nextResult d.val = some f) ∧ (f.pkt = some k) ∧ (f.returned = some (b, cause)) ∧ (k.stale = false) ∧ (u = { s.upToCyc (f.dcyc + s.tRet + 160) with flights := s.flights.filter fun g => !decide (g.thread = f.thread ∧ g.buf = f.buf ∧ g.dcyc = f.dcyc) }) ∧ (f.late = false) ∧ (cause = 0) :=
  ⟨0, { fl with delivered := true, returned := some ([1], 0) }, pk, [1], 0, { z with flights := [{ fl with delivered := true, returned := some ([1], 0) }] }, _, by decide, by decide, by decide, by decide, rfl, by decide⟩

theorem wit_egressCommandsComplete_1 : ∃ (d : PDie) (x : Tx) (r : List Tx) (s : State) (u : State), ((s.pd d.val).xwait = x :: r) ∧ (tFind s.repairs 8 ≠ some 1) ∧ (d.val ∉ s.halted) ∧ (x.stale = false) ∧ (u = (s.upTo (s.pd d.val).xfree).modPd d.val (fun y => { y with xwait := r })) :=
  ⟨0, tx, [], pdZ (fun x => { x with xwait := [tx] }), _, by decide, by decide, by decide, by decide, rfl⟩

set_option maxRecDepth 20000 in
theorem wit_egressCommandsComplete_2 : ∃ (d : PDie) (c : Cross) (r : List Cross) (s : State) (u : State) (v : State) (h : Nat), ((s.pd (1 - d.val)).xfly = c :: r) ∧ (c.tx.stale = false) ∧ (d.val ∉ s.halted) ∧ (u = (s.upTo c.due).modPd (1 - d.val) (fun y => { y with xfly := r })) ∧ ((s.queue d.val c.tx.queue).flaw = none) ∧ (u.storeFrame d.val (64 + (u.queueNow d.val c.tx.queue).cls) (engine d.val 5 0) c.bytes = (some h, v)) :=
  ⟨1, { tx := { tx with queue := 3 }, bytes := [1,2,3], poison := false, due := 7 }, [], poolZ1, _, (((poolZ1.upTo 7).modPd 0 fun y => { y with xfly := [] }).storeFrame 1 64 (engine 1 5 0) [1,2,3]).2, mkHandle 0 2, by decide, by decide, by decide, rfl, by decide, Prod.ext (by decide) rfl⟩

theorem wit_egressCommandsComplete_3 : ∃ (port : PortId) (q : Nat) (h : Tx) (r : List Tx) (s : State) (u : State), (s.pgState (pdPage (port.val / 64) 6) = 2) ∧ (port.val / 64 ∉ s.halted) ∧ ((tGet (fun _ => []) (s.pd (port.val / 64)).fifo (port.val % 64 / 8)).length < 2) ∧ (s.coverQueues (port.val / 64) (port.val % 64) = []) ∧ (s.flushedNow (port.val / 64) (port.val % 64) = []) ∧ (∀ j ∈ (s.tport (port.val / 64) (port.val % 64)).active, (s.queue (port.val / 64) j).flaw = none) ∧ ((s.tport (port.val / 64) (port.val % 64)).active[(s.tport (port.val / 64) (port.val % 64)).pos]? = some q) ∧ ((s.tport (port.val / 64) (port.val % 64)).visit = true) ∧ (s.isCover (port.val / 64) (s.queue (port.val / 64) q) = false) ∧ (s.queueElig (port.val / 64) (port.val % 64) (s.queue (port.val / 64) q) = (true, u)) ∧ ((u.queue (port.val / 64) q).frames = h :: r) ∧ (h.charge ≤ (u.queue (port.val / 64) q).defi) :=
  ⟨0, 5, tx, [], qZ, qZ, by decide⟩

theorem wit_egressCommandsComplete_4 : ∃ (d : PDie) (sl : Slice) (x : Tx) (r : List Tx) (s : State) (u : State), (s.quads d.val sl.val ≠ 3) ∧ (tGet (fun _ => []) (s.pd d.val).fifo sl.val = x :: r) ∧ (d.val ∉ s.halted) ∧ (s.sliceUp d.val sl.val = true) ∧ (x.filler = false) ∧ (x.cipher ≠ 1) ∧ (u = s.modPd d.val (fun y => { y with fifo := tSet (fun _ => []) y.fifo sl.val r })) ∧ ((u.readFrame d.val x.handle).2.1 = false) :=
  ⟨0, 0, tx, [], portZ.modPd 0 (fun x => { x with fifo := [(0, [tx])] }), _, by decide, by decide, by decide, by decide, by decide, by decide, rfl, by decide⟩

theorem wit_egressCommandsComplete_5 : ∃ (d : PDie) (sl : Slice) (e : Egress) (b : List Byte) (r : List Egress) (s : State) (u : State) (v : State), (s.quads d.val sl.val ≠ 3) ∧ (tGet (fun _ => []) (s.pd d.val).egress sl.val = e :: r) ∧ (d.val ∉ s.halted) ∧ (e.bytes = some b) ∧ (u = (s.upTo e.due).modPd d.val (fun y => { y with egress := tSet (fun _ => []) y.egress sl.val r })) ∧ (v = (if e.tx.filler then u else u.freeFrame d.val e.tx.handle)) ∧ (v.portUp d.val e.tx.ctx = true) :=
  ⟨0, 0, { tx := tx, bytes := some ([1,2,3]), due := 9 }, [1,2,3], [], portZ.modPd 0 (fun x => { x with egress := [(0, [{ tx := tx, bytes := some ([1,2,3]), due := 9 }])] }), _, _, by decide, by decide, by decide, by decide, rfl, rfl, by decide⟩

theorem wit_tmIndirectCommandsComplete_1 : ∃ (d : PDie) (i : BitVec 15) (s : State), (s.tmRuns d.val = false) ∧ ((s.queue d.val i.toNat).flaw = none) :=
  ⟨1, 3, { z with queues := [(32768+3, { TmQueue.fresh with bytes := 9 })] }, by decide⟩

theorem wit_tmIndirectCommandsComplete_2 : ∃ (d : PDie) (i : BitVec 15) (s : State) (x : TmQueue) (y : TmQueue), (s.tmRuns d.val = false) ∧ (x = s.queue d.val i.toNat) ∧ (x.flaw = none) ∧ (x.en = false) ∧ (x.frames = []) ∧ (y = { x with w0 := s.tmData d.val 0 &&& 0xFFE07FFF, w1 := s.tmData d.val 1 &&& 0x9FFF1FFF, w2 := s.tmData d.val 2 &&& 0x9FFFFFFF }) ∧ (1 ≤ y.quantum) ∧ (y.quantum ≤ 4096) ∧ (y.shpEn = false) :=
  ⟨1, 3, z.setReg (aTm 1 0x124) 0x20, _, _, by decide, rfl, by decide, by decide, by decide, rfl, by decide⟩

theorem wit_tmIndirectCommandsComplete_3 : ∃ (d : PDie) (i : BitVec 15) (s : State), (s.tmRuns d.val = false) ∧ (i.toNat < 8192) :=
  ⟨1, 3, z, by decide⟩

theorem wit_tmIndirectCommandsComplete_4 : ∃ (d : PDie) (s : State), (s.tmRuns d.val = false) :=
  ⟨0, { z with queues := [(3, { TmQueue.fresh with bytes := 9, frames := [tx], defi := 8 })] }, by decide⟩

theorem wit_tmIndirectCommandsComplete_5 : ∃ (d : PDie) (s : State), (s.tmRuns d.val = true) :=
  ⟨1, z.modPd 1 fun x => { x with tmBusy := 100 }, by decide⟩

theorem wit_tmIndirectCommandsComplete_6 : ∃ (d : PDie) (s : State), (s.tmRuns d.val = true) :=
  ⟨1, z.modPd 1 fun x => { x with tmBusy := 100 }, by decide⟩

theorem wit_tmIndirectCommandsComplete_7 : ∃ (d : PDie) (s : State), (s.tmRuns d.val = true) :=
  ⟨1, z.modPd 1 fun x => { x with tmBusy := 100 }, by decide⟩

theorem wit_tmIndirectCommandsComplete_8 : ∃ (d : PDie) (s : State), (s.tmRuns d.val = true) :=
  ⟨1, z.modPd 1 fun x => { x with tmBusy := 100 }, by decide⟩

theorem wit_bufferCommandsComplete_1 : ∃ (d : PDie) (a : BitVec 8) (c : Nat) (r : List Nat) (s : State), (a.toNat < 138) ∧ (s.sweeping d.val (s.rf (aBpmOwner d.val) 13 0) = false) ∧ (s.admission d.val a.toNat = 0) ∧ ((s.pool d.val (s.acctPool d.val a.toNat)).till = c :: r) :=
  ⟨0, 0, 2, [1, 0], poolZ, by decide +kernel⟩

theorem wit_bufferCommandsComplete_2 : ∃ (d : PDie) (c : Nat) (o : Nat) (b : Buf) (s : State), (c = hCell (s.reg (aBpmHandle d.val)).toNat) ∧ (o = s.rf (aBpmOwner d.val) 13 0) ∧ (s.freeCheck d.val (hPool (s.reg (aBpmHandle d.val)).toNat) c = 0) ∧ (s.buf? d.val c = some b) ∧ (b.next = none) :=
  ⟨0, 5, 0, bf, withBuf 5 (poolZ.setReg (aBpmHandle 0) (nw (mkHandle 0 5))), by decide +kernel⟩

theorem wit_bufferCommandsComplete_3 : ∃ (d : PDie) (c : Nat) (o : Nat) (b : Buf) (s : State), (c = hCell (s.reg (aBpmHandle d.val)).toNat) ∧ (o = s.rf (aBpmOwner d.val) 13 0) ∧ (s.freeCheck d.val (hPool (s.reg (aBpmHandle d.val)).toNat) c = 0) ∧ (s.buf? d.val c = some b) ∧ (b.next = none) ∧ (s.sweeping d.val o = false) :=
  ⟨0, 5, 0, bf, withBuf 5 (poolZ.setReg (aBpmHandle 0) (nw (mkHandle 0 5))), by decide +kernel⟩

theorem wit_bufferCommandsComplete_4 : ∃ (d : PDie) (n : Fin 4) (e : Nat) (w : Nat) (h : Nat) (o : Nat) (s : State), (s.ringHead d.val (4 + n.val) = some e) ∧ (∀ m, m < n.val → s.ringHead d.val (4 + m) = none) ∧ ((s.dramRead e 16).2.1 = false) ∧ (w = leAt (s.dramRead e 16).1 0 4) ∧ (h = leAt (s.dramRead e 16).1 8 4) ∧ (o = leAt (s.dramRead e 16).1 12 4 % 2 ^ 14) ∧ (w / 2 ^ 28 = 1) :=
  ⟨0, 0, 0x1080, 0x10000000, 0, 0x1234, ringZ 4 [0x10000000, 0, 0, 0x1234] poolZ, by decide +kernel⟩

theorem wit_bufferCommandsComplete_5 : ∃ (d : PDie) (n : Fin 4) (e : Nat) (w : Nat) (h : Nat) (o : Nat) (s : State), (s.ringHead d.val (4 + n.val) = some e) ∧ (∀ m, m < n.val → s.ringHead d.val (4 + m) = none) ∧ ((s.dramRead e 16).2.1 = false) ∧ (w = leAt (s.dramRead e 16).1 0 4) ∧ (h = leAt (s.dramRead e 16).1 8 4) ∧ (o = leAt (s.dramRead e 16).1 12 4 % 2 ^ 14) ∧ (w / 2 ^ 28 = 2) :=
  ⟨0, 0, 0x1080, 0x20000000, mkHandle 0 5, 0x1234, ringZ 4 [0x20000000, 0, mkHandle 0 5, 0x1234] (withBuf 5 poolZ), by decide +kernel⟩

theorem wit_bufferCommandsComplete_6 : ∃ (d : PDie) (n : Fin 4) (e : Nat) (w : Nat) (h : Nat) (o : Nat) (s : State), (s.ringHead d.val (4 + n.val) = some e) ∧ (∀ m, m < n.val → s.ringHead d.val (4 + m) = none) ∧ ((s.dramRead e 16).2.1 = false) ∧ (w = leAt (s.dramRead e 16).1 0 4) ∧ (h = leAt (s.dramRead e 16).1 8 4) ∧ (o = leAt (s.dramRead e 16).1 12 4 % 2 ^ 14) ∧ (w / 2 ^ 28 = 3) :=
  ⟨0, 0, 0x1080, 0x30000000, mkHandle 0 5, 0x1234, ringZ 4 [0x30000000, 0, mkHandle 0 5, 0x1234] (withBuf 5 poolZ), by decide +kernel⟩

theorem wit_bufferCommandsComplete_7 : ∃ (d : PDie) (n : Fin 4) (b : List Byte) (s : State), (s.ringOn d.val (4 + n.val) = true) ∧ (s.dramRange (s.ringBase d.val (4 + n.val)) 8 = true) ∧ (∀ m : Fin 4, m ≠ n → s.ringOn d.val (4 + m.val) = false) ∧ (s.dramRead (s.ringBase d.val (4 + n.val)) 4 = (b, false, s)) ∧ (leNat b % s.ringSize d.val (4 + n.val) = (s.ringAt d.val (4 + n.val)).1) :=
  ⟨0, 0, [0, 0, 0, 0], pollZ 4, by decide +kernel⟩

theorem wit_poolCommandsComplete_1 : ∃ (d : PDie) (p : Fin 64) (w : Word) (s : State), (s.poolEn d.val p.val = false) ∧ ((s.writeReg (aPool d.val p.val 0) w).poolEn d.val p.val = true) ∧ ((s.writeReg (aPool d.val p.val 0) w).poolLayoutOk d.val p.val = true) ∧ (s.lvlWas.before s.fab (d.val * 64 + p.val) = none) :=
  ⟨0, 0, 0x80000000, (z.setRf (aPool 0 0 2) 17 0 16).setRf (aPool 0 0 7) 17 0 32, by decide⟩

theorem wit_poolCommandsComplete_2 : ∃ (d : PDie) (p : Fin 64) (k : Nat) (n : Nat) (s : State), ((s.pool d.val p.val).readyAt = some k) ∧ (s.poolDram d.val p.val = false) ∧ (n = (ringTake (s.poolCells d.val p.val) 448 (s.pool d.val p.val).ring).1.length) ∧ (∀ i, i < n → s.pktMem.code (arrPkt d.val) (s.ringSlot d.val p.val ((s.pool d.val p.val).head + i) / 8) = 0) :=
  ⟨0, 0, 99, _, (ringPkt poolZ).modPool 0 0 fun x => { x with ready := false, readyAt := some 99, till := [], ring := [(0, 2)] }, by decide, by decide, rfl, by decide⟩

theorem wit_poolCommandsComplete_3 : ∃ (d : PDie) (p : Fin 64) (k : Nat) (n : Nat) (ks : List Nat) (s : State), ((s.pool d.val p.val).refills = k :: ks) ∧ (s.poolDram d.val p.val = false) ∧ ((s.pool d.val p.val).till.length ≤ 448) ∧ (n = (ringTake (s.poolCells d.val p.val) 64 (s.pool d.val p.val).ring).1.length) ∧ (∀ i, i < n → s.pktMem.code (arrPkt d.val) (s.ringSlot d.val p.val ((s.pool d.val p.val).head + i) / 8) = 0) :=
  ⟨0, 0, 99, _, [], (ringPkt poolZ).modPool 0 0 fun x => { x with refills := [99], ring := [(5, 2)] }, by decide, by decide, by decide, rfl, by decide⟩

set_option maxRecDepth 20000 in
theorem wit_poolCommandsComplete_4 : ∃ (d : PDie) (p : Fin 64) (s : State), (448 < (s.pool d.val p.val).till.length) :=
  ⟨0, 0, poolZ.modPool 0 0 fun x => { x with till := List.range 449 }, by decide⟩

theorem wit_poolCommandsComplete_5 : ∃ (d : PDie) (s : State), ((s.pd d.val).sweeps.length < 8) :=
  ⟨0, z, by decide⟩

theorem wit_poolCommandsComplete_6 : ∃ (d : PDie) (o : Nat) (m : Nat) (r : List (Nat × Nat)) (s : State), ((s.pd d.val).sweep = none) ∧ ((s.pd d.val).sweeps = (o, m) :: r) :=
  ⟨0, 0x1234, 0x3FFF, [], pdZ fun x => { x with sweeps := [(0x1234, 0x3FFF)] }, by decide⟩

theorem wit_poolCommandsComplete_7 : ∃ (d : PDie) (o : Nat) (m : Nat) (k : Nat) (s : State), ((s.pd d.val).sweep = some (o, m, k)) :=
  ⟨0, 0, 0x3FFF, 77, (withBuf 5 poolZ).modPd 0 fun x => { x with sweep := some (0, 0x3FFF, 77) }, by decide⟩

theorem wit_poolCommandsComplete_8 : ∃ (d : PDie) (p : Fin 64) (k : Nat) (i : Nat) (s : State), (s.pausePorts d.val p.val = [i]) ∧ (tFind s.xoffAt (d.val * 64 + i) = some k) ∧ (s.atLevel d.val p.val 1 = true) :=
  ⟨0, 0, 50, 3, { ((((poolZ.modPool 0 0 fun x => { x with levels := 2 }).setRb (aPort 0 3) 31 true).setRf (aPool 0 0 0) 23 16 1).setRf (aPool 0 0 0) 15 0 9) with xoffAt := [(3, 50)], used := [] }, by decide⟩

theorem wit_poolCommandsComplete_9 : ∃ (t : ThreadId) (s : State), ((s.th t.val).st = .resetting) ∧ (s.pkt t.val = true) :=
  ⟨5, pktLive.modTh 5 fun x => { x with st := .resetting, cause := 3, w := [(1, 1)] }, by decide⟩

theorem wit_poolCommandsComplete_10 : ∃ (t : ThreadId) (s : State), ((s.th t.val).st = .resetting) ∧ (s.pkt t.val = false) :=
  ⟨5, z.modTh 5 fun x => { x with st := .resetting, cause := 3, w := [(1, 1)] }, by decide⟩

theorem wit_guardsHoldWhetherTheValueIsNotZero_1 : ∃ (t : ThreadId) (w : IssueWord) (n : Fin 8) (v : Word) (s : State), (s.runs t.val w) ∧ (s.trapFree t.val w) ∧ (s.wordEffects t.val w = [{ dst := 0x020 + n.val, x := 0, v := v }]) :=
  ⟨0, longWord 0 0x023 0 0 7, 3, 7, runW 0 (longWord 0 0x023 0 0 7) (fun x => x) (z), runs_of (by decide), trapFree_of (by decide), by decide⟩

theorem wit_arithmeticCommandsComplete_1 : ∃ (t : ThreadId) (f : MoveForm) (ib : Bool) (x : BitVec 4) (v : Word) (s : State) (w : IssueWord) (r : AluOut), (w = formWord f (if ib then 0x051 else 0x041) x.toNat) ∧ (s.fires t.val w { dst := if ib then 0x051 else 0x041, x := x.toNat, v := v }) ∧ (r = aluOp x.toNat v ((s.wordRegs t.val w).opv (if ib then 0x050 else 0x040)) (s.wordStart t.val).carry) :=
  ⟨0, lf 7, false, 0, 7, runW 0 (formWord (lf 7) 0x041 0) (fun x => x) (z), _, _, rfl, fires_of (by decide), rfl⟩

theorem wit_arithmeticCommandsComplete_2 : ∃ (t : ThreadId) (f : MoveForm) (x : BitVec 4) (v : Word) (s : State) (w : IssueWord), (w = formWord f 0x061 x.toNat) ∧ (s.fires t.val w { dst := 0x061, x := x.toNat, v := v }) :=
  ⟨0, lf 7, 0, 7, runW 0 (formWord (lf 7) 0x061 0) (fun x => x) (z), _, rfl, fires_of (by decide)⟩

theorem wit_arithmeticCommandsComplete_3 : ∃ (t : ThreadId) (f : MoveForm) (x : BitVec 4) (v : Word) (s : State) (w : IssueWord) (r : Word × Word × Bool), (w = formWord f 0x071 x.toNat) ∧ (s.fires t.val w { dst := 0x071, x := x.toNat, v := v }) ∧ (r = mulOp x.toNat v ((s.wordRegs t.val w).opv 0x070)) :=
  ⟨0, lf 7, 0, 7, runW 0 (formWord (lf 7) 0x071 0) (fun x => x) (z), _, _, rfl, fires_of (by decide), rfl⟩

theorem wit_arithmeticCommandsComplete_4 : ∃ (t : ThreadId) (f : MoveForm) (x : BitVec 4) (v : Word) (s : State) (w : IssueWord) (r : Word × Word × Bool × Bool), (w = formWord f 0x081 x.toNat) ∧ (s.fires t.val w { dst := 0x081, x := x.toNat, v := v }) ∧ (r = divOp x.toNat v ((s.wordRegs t.val w).opv 0x080)) :=
  ⟨0, lf 7, 0, 7, runW 0 (formWord (lf 7) 0x081 0) (fun x => x) (z), _, _, rfl, fires_of (by decide), rfl⟩

theorem wit_arithmeticCommandsComplete_5 : ∃ (t : ThreadId) (f : MoveForm) (x : BitVec 4) (v : Word) (s : State) (w : IssueWord), (w = formWord f 0x092 x.toNat) ∧ (s.fires t.val w { dst := 0x092, x := x.toNat, v := v }) :=
  ⟨0, lf 7, 0, 7, runW 0 (formWord (lf 7) 0x092 0) (fun x => x) (z), _, rfl, fires_of (by decide)⟩

theorem wit_arithmeticCommandsComplete_6 : ∃ (t : ThreadId) (f : MoveForm) (p : Fin 8) (x : BitVec 4) (v : Word) (s : State) (w : IssueWord), (w = formWord f (0x0D8 + p.val) x.toNat) ∧ (s.fires t.val w { dst := 0x0D8 + p.val, x := x.toNat, v := v }) :=
  ⟨0, lf 7, 3, 0, 7, runW 0 (formWord (lf 7) 0x0DB 0) (fun x => x) (z), _, rfl, fires_of (by decide)⟩

theorem wit_arithmeticCommandsComplete_7 : ∃ (t : ThreadId) (f : MoveForm) (v : Word) (s : State) (w : IssueWord), (w = formWord f 0x3B2 0) ∧ (s.fires t.val w { dst := 0x3B2, x := 0, v := v }) :=
  ⟨0, lf 7, 7, runW 0 (formWord (lf 7) 0x3B2 0) (fun x => x) (z), _, rfl, fires_of (by decide)⟩

theorem wit_arithmeticCommandsComplete_8 : ∃ (t : ThreadId) (f : MoveForm) (v : Word) (s : State) (w : IssueWord), (w = formWord f 0x3A1 0) ∧ (s.fires t.val w { dst := 0x3A1, x := 0, v := v }) :=
  ⟨0, lf 7, 7, runW 0 (formWord (lf 7) 0x3A1 0) (fun x => x) (z), _, rfl, fires_of (by decide)⟩

theorem wit_memoryTriggersComplete_1 : ∃ (t : ThreadId) (f : MoveForm) (x : Fin 4) (v : Word) (b : List Byte) (s : State) (u0 : State) (w : IssueWord), (w = formWord f 0x0B1 x.val) ∧ (s.fires t.val w { dst := 0x0B1, x := x.val, v := v }) ∧ (u0 = s.wordDone t.val w) ∧ (u0.cmemRead (cluOf t.val) (recBase t.val (u0.th t.val).buf + v.toNat) (pwSize x.val) = (b, 0, u0)) :=
  ⟨0, lf 4, 2, 4, [1, 2, 3, 4], runM [(0xD8000, 0), (0xD8004, 1), (0xD8005, 2), (0xD8006, 3), (0xD8007, 4)] 0 (formWord (lf 4) 0x0B1 2) (fun x => x) (z), _, _, rfl, fires_of (by decide), rfl, by decide⟩

theorem wit_memoryTriggersComplete_2 : ∃ (t : ThreadId) (f : MoveForm) (x : Fin 4) (v : Word) (s : State) (u0 : State) (w : IssueWord), (w = formWord f 0x0B1 (4 + x.val)) ∧ (s.fires t.val w { dst := 0x0B1, x := 4 + x.val, v := v }) ∧ (u0 = s.wordDone t.val w) :=
  ⟨0, lf 4, 2, 4, runW 0 (formWord (lf 4) 0x0B1 6) (fun x => x) (z), _, _, rfl, fires_of (by decide), rfl⟩

theorem wit_memoryTriggersComplete_3 : ∃ (t : ThreadId) (f : MoveForm) (x : Fin 5) (v : Word) (b : List Byte) (s : State) (u0 : State) (w : IssueWord), (w = formWord f 0x0A1 x.val) ∧ (s.fires t.val w { dst := 0x0A1, x := x.val, v := v }) ∧ (u0 = s.wordDone t.val w) ∧ (u0.zeroizing = false) ∧ (∀ a ∈ (u0.clu? (cluOf t.val)).acc, a.g ≤ u0.bankCycle t.val (bankPair v.toNat) (s.slotOf t.val)) ∧ (∀ b ∈ (u0.clu? (cluOf t.val)).bacc, b.g < u0.bankCycle t.val (bankPair v.toNat) (s.slotOf t.val)) ∧ ((u0.clu? (cluOf t.val)).fill = none) ∧ (u0.copsPull (cluOf t.val) = u0) ∧ (∀ z : State, z.cmem = u0.cmem → z.cmemRead (cluOf t.val) v.toNat (lsSize x.val) = (b, 0, z)) :=
  ⟨0, lf 0x100, 0, 0x100, [1, 2, 3, 4], runM [(0x100, 1), (0x101, 2), (0x102, 3), (0x103, 4)] 0 (formWord (lf 256) 0x0A1 0) (fun x => x) (z), _, _, rfl, fires_of (by decide), rfl, by decide, by decide, by decide, by decide, by decide, cmemRead_of (by decide) (by decide)⟩

theorem wit_memoryTriggersComplete_4 : ∃ (t : ThreadId) (f : MoveForm) (x : Fin 3) (v : Word) (s : State) (u0 : State) (w : IssueWord), (w = formWord f 0x0A1 (5 + x.val)) ∧ (s.fires t.val w { dst := 0x0A1, x := 5 + x.val, v := v }) ∧ (u0 = s.wordDone t.val w) ∧ (u0.zeroizing = false) ∧ (∀ a ∈ (u0.clu? (cluOf t.val)).acc, a.g ≤ u0.bankCycle t.val (bankPair v.toNat) (s.slotOf t.val)) ∧ (∀ b ∈ (u0.clu? (cluOf t.val)).bacc, b.g < u0.bankCycle t.val (bankPair v.toNat) (s.slotOf t.val)) ∧ ((u0.clu? (cluOf t.val)).fill = none) ∧ (u0.copsPull (cluOf t.val) = u0) ∧ (u0.cmemMergeOk (cluOf t.val) v.toNat (lsSize (5 + x.val)) = true) :=
  ⟨0, lf 0x100, 0, 0x100, runM [(0x100, 1), (0x101, 2), (0x102, 3), (0x103, 4)] 0 (formWord (lf 0x100) 0x0A1 5) (fun x => x) (z), _, _, rfl, fires_of (by decide), rfl, by decide⟩

theorem wit_memoryTriggersComplete_5 : ∃ (t : ThreadId) (f : MoveForm) (v : Word) (s : State) (u0 : State) (w : IssueWord), (w = formWord f 0x0C0 0) ∧ (s.fires t.val w { dst := 0x0C0, x := 0, v := v }) ∧ (u0 = s.wordDone t.val w) ∧ (u0.pkt t.val = false) :=
  ⟨0, lf 4, 4, runW 0 (formWord (lf 4) 0x0C0 0) (fun x => x) (z), _, _, rfl, fires_of (by decide), rfl, by decide⟩

theorem wit_memoryTriggersComplete_6 : ∃ (t : ThreadId) (f : MoveForm) (v : Word) (s : State) (u0 : State) (w : IssueWord), (w = formWord f 0x0C0 1) ∧ (s.fires t.val w { dst := 0x0C0, x := 1, v := v }) ∧ (u0 = s.wordDone t.val w) ∧ (u0.pkt t.val = false) :=
  ⟨0, lf 4, 4, runW 0 (formWord (lf 4) 0x0C0 1) (fun x => x) (z), _, _, rfl, fires_of (by decide), rfl, by decide⟩

theorem wit_memoryTriggersComplete_7 : ∃ (t : ThreadId) (f : MoveForm) (v : Word) (g : Nat) (s : State) (u0 : State) (w : IssueWord), (w = formWord f 0x0C0 0) ∧ (s.fires t.val w { dst := 0x0C0, x := 0, v := v }) ∧ (u0 = s.wordDone t.val w) ∧ (u0.pkt t.val = true) ∧ (u0.tbGrant t.val (s.slotOf t.val) = some g) ∧ (u0.polStatus (g / 4) (rgnOf t.val) (fld v 15 0) = 0) :=
  ⟨0, lf 5, 5, 672, runW 0 (formWord (lf 5) 0x0C0 0) (fun x => { x with t0 := 160, nextCyc := 168 }) (tbZ), _, _, rfl, fires_of (by decide), rfl, by decide⟩

theorem wit_memoryTriggersComplete_8 : ∃ (t : ThreadId) (f : MoveForm) (v : Word) (g : Nat) (s : State) (u0 : State) (w : IssueWord), (w = formWord f 0x0C0 1) ∧ (s.fires t.val w { dst := 0x0C0, x := 1, v := v }) ∧ (u0 = s.wordDone t.val w) ∧ (u0.pkt t.val = true) ∧ (u0.tbGrant t.val (s.slotOf t.val) = some g) ∧ (u0.polStatus (g / 4) (rgnOf t.val) (fld v 15 0) = 0) :=
  ⟨0, lf 5, 5, 672, runW 0 (formWord (lf 5) 0x0C0 1) (fun x => { x with t0 := 160, nextCyc := 168 }) (tbZ), _, _, rfl, fires_of (by decide), rfl, by decide⟩

theorem wit_memoryTriggersComplete_9 : ∃ (t : ThreadId) (f : MoveForm) (sb : Fin 16) (v : Word) (k : Nat) (o : Nat) (l : List DmHit) (s : State) (u0 : State) (w : IssueWord), (w = formWord f 0x0E1 sb.val) ∧ (s.fires t.val w { dst := 0x0E1, x := sb.val, v := v }) ∧ (u0 = s.wordDone t.val w) ∧ (u0.dmDecode (cluOf t.val) v.toNat = .spm k o) ∧ (u0.spmUe (cluOf t.val) k o = false) ∧ (l = (u0.clu? (cluOf t.val)).dmSame (s.slotOf t.val) v.toNat) :=
  ⟨0, lf 0x10000, 3, 0x10000, 7, 0, _, runW 0 (formWord (lf 0x10000) 0x0E1 3) (fun x => x) (dmZ), _, _, rfl, fires_of (by decide), rfl, by decide, by decide, rfl⟩

theorem wit_memoryTriggersComplete_10 : ∃ (t : ThreadId) (f : MoveForm) (sb : Fin 16) (v : Word) (a : Nat) (o : CdcOp) (s : State) (u0 : State) (w : IssueWord) (r : Word × Bool × Bool × State), (w = formWord f 0x0E1 sb.val) ∧ (s.fires t.val w { dst := 0x0E1, x := sb.val, v := v }) ∧ (u0 = s.wordDone t.val w) ∧ (u0.dmDecode (cluOf t.val) v.toNat = .mem a) ∧ (r = u0.cdcLoad (cluOf t.val) v.toNat a) ∧ (o = { thread := t.val, sb := sb.val, what := .load, addr := v.toNat, mem := a, was := (Arr.empty, Arr.empty), left := (Arr.empty, Arr.empty) }) ∧ ((u0.turnOf (cluOf t.val) (s.slotOf t.val)).follows o = false) :=
  ⟨0, lf 0x40, 3, 0x40, 0x40, _, runW 0 (formWord (lf 0x40) 0x0E1 3) (fun x => x) (dmZ), _, _, _, rfl, fires_of (by decide), rfl, by decide, rfl, rfl, by decide⟩

theorem wit_memoryTriggersComplete_11 : ∃ (t : ThreadId) (f : MoveForm) (sb : Fin 16) (v : Word) (last : Word) (k : Nat) (o : Nat) (l : List DmHit) (h : DmHit) (s : State) (u0 : State) (w : IssueWord), (w = formWord f 0x0E2 sb.val) ∧ (s.fires t.val w { dst := 0x0E2, x := sb.val, v := v }) ∧ (u0 = s.wordDone t.val w) ∧ (u0.dmDecode (cluOf t.val) v.toNat = .spm k o) ∧ (l = (u0.clu? (cluOf t.val)).dmSame (s.slotOf t.val) v.toNat) ∧ (h = { thread := t.val, sb := sb.val, addr := v.toNat, store := some ((u0.th t.val).opv 0x0E0), old := (l.head?.map (·.old)).getD (u0.dmPeek (cluOf t.val) v.toNat) }) ∧ (last = dmSeen (l ++ [h]) (s.slotOf t.val) 8 h.old) :=
  ⟨0, lf 0x10000, 3, 0x10000, _, 7, 0, _, _, runW 0 (formWord (lf 0x10000) 0x0E2 3) (fun x => x) (dmZ), _, _, rfl, fires_of (by decide), rfl, by decide, rfl, rfl, rfl⟩

theorem wit_memoryTriggersComplete_12 : ∃ (t : ThreadId) (f : MoveForm) (sb : Fin 16) (v : Word) (a : Nat) (o : CdcOp) (s : State) (u0 : State) (w : IssueWord) (r : Bool × Bool × State), (w = formWord f 0x0E2 sb.val) ∧ (s.fires t.val w { dst := 0x0E2, x := sb.val, v := v }) ∧ (u0 = s.wordDone t.val w) ∧ (u0.dmDecode (cluOf t.val) v.toNat = .mem a) ∧ (r = u0.cdcStore (cluOf t.val) v.toNat a ((u0.th t.val).opv 0x0E0)) ∧ (o = { thread := t.val, sb := sb.val, what := .store ((u0.th t.val).opv 0x0E0), addr := v.toNat, mem := a, was := (Arr.empty, Arr.empty), left := (Arr.empty, Arr.empty) }) ∧ ((u0.turnOf (cluOf t.val) (s.slotOf t.val)).follows o = false) :=
  ⟨0, lf 0x40, 3, 0x40, 0x40, _, runW 0 (formWord (lf 0x40) 0x0E2 3) (fun x => x) (dmZ), _, _, _, rfl, fires_of (by decide), rfl, by decide, rfl, rfl, by decide⟩

theorem wit_memoryTriggersComplete_14 : ∃ (t : ThreadId) (f : MoveForm) (n : Fin 4) (sb : Fin 16) (v : Word) (s : State) (u0 : State) (w : IssueWord), (w = formWord f (0x300 + 16 * n.val) sb.val) ∧ (s.fires t.val w { dst := 0x300 + 16 * n.val, x := sb.val, v := v }) ∧ (u0 = s.wordDone t.val w) :=
  ⟨0, lf 0x40, 2, 3, 0x40, runW 0 (formWord (lf 0x40) 0x320 3) (fun x => x) (z), _, _, rfl, fires_of (by decide), rfl⟩

theorem wit_memoryTriggersComplete_15 : ∃ (t : ThreadId) (f : MoveForm) (n : Fin 4) (sb : Fin 16) (v : Word) (s : State) (u0 : State) (w : IssueWord), (w = formWord f (0x300 + 16 * n.val + 1) sb.val) ∧ (s.fires t.val w { dst := 0x300 + 16 * n.val + 1, x := sb.val, v := v }) ∧ (u0 = s.wordDone t.val w) :=
  ⟨0, lf 0x40, 2, 3, 0x40, runW 0 (formWord (lf 0x40) 0x321 3) (fun x => x) (z), _, _, rfl, fires_of (by decide), rfl⟩

theorem wit_memoryTriggersComplete_16 : ∃ (t : ThreadId) (f : MoveForm) (n : Fin 4) (sb : Fin 16) (v : Word) (s : State) (u0 : State) (w : IssueWord), (w = formWord f (0x300 + 16 * n.val + 2) sb.val) ∧ (s.fires t.val w { dst := 0x300 + 16 * n.val + 2, x := sb.val, v := v }) ∧ (u0 = s.wordDone t.val w) :=
  ⟨0, lf 0x40, 2, 3, 0x40, runW 0 (formWord (lf 0x40) 0x322 3) (fun x => x) (z), _, _, rfl, fires_of (by decide), rfl⟩

theorem wit_controlMovesComplete_1 : ∃ (t : ThreadId) (f : MoveForm) (rel : Bool) (v : Word) (s : State) (w : IssueWord), (w = formWord f 0x380 (b2n rel)) ∧ (s.fires t.val w { dst := 0x380, x := b2n rel, v := v }) :=
  ⟨0, lf 0x40, true, 0x40, runW 0 (formWord (lf 0x40) 0x380 1) (fun x => x) (z), _, rfl, fires_of (by decide)⟩

theorem wit_controlMovesComplete_2 : ∃ (t : ThreadId) (f : MoveForm) (rel : Bool) (v : Word) (s : State) (w : IssueWord), (w = formWord f 0x381 (b2n rel)) ∧ (s.fires t.val w { dst := 0x381, x := b2n rel, v := v }) :=
  ⟨0, lf 0x40, false, 0x40, runW 0 (formWord (lf 0x40) 0x381 0) (fun x => x) (z), _, rfl, fires_of (by decide)⟩

theorem wit_controlMovesComplete_3 : ∃ (t : ThreadId) (f : MoveForm) (v : Word) (s : State) (w : IssueWord), (w = formWord f 0x382 0) ∧ (s.fires t.val w { dst := 0x382, x := 0, v := v }) :=
  ⟨0, lf 0x40, 0x40, runW 0 (formWord (lf 0x40) 0x382 0) (fun x => x) (z), _, rfl, fires_of (by decide)⟩

theorem wit_controlMovesComplete_4 : ∃ (t : ThreadId) (f : MoveForm) (v : Word) (s : State) (w : IssueWord), (w = formWord f 0x383 0) ∧ (s.fires t.val w { dst := 0x383, x := 0, v := v }) :=
  ⟨0, lf 0x40, 0x40, runW 0 (formWord (lf 0x40) 0x383 0) (fun x => { x with t0 := 160, nextCyc := 168 }) (spanZ), _, rfl, fires_of (by decide)⟩

theorem wit_controlMovesComplete_5 : ∃ (t : ThreadId) (f : MoveForm) (v : Word) (l : List Eff) (r : List Eff) (s : State) (w : IssueWord), (w = formWord f 0x385 0) ∧ (s.runs t.val w) ∧ (s.wordEffects t.val w = l ++ { dst := 0x385, x := 0, v := v } :: r) ∧ (∀ y ∈ l ++ r, isTrigger y.dst = false) ∧ (s.pkt t.val = false) ∧ ((s.th t.val).pc ≠ 16383) ∧ ((s.wordRegs t.val w).vec ≠ 0) ∧ ((s.th t.val).inTrap = false) :=
  ⟨0, lf 0x40, 0x40, [], [], runW 0 (formWord (lf 0x40) 0x385 0) (fun x => { x with vec := 7 }) (z), _, rfl, runs_of (by decide), by decide⟩

theorem wit_issueCommandsComplete_1 : ∃ (t : ThreadId) (w : IssueWord) (s : State), (s.runs t.val w) ∧ (s.trapFree t.val w) ∧ (∀ e ∈ s.wordEffects t.val w, isTrigger e.dst = false) :=
  ⟨0, longWord 0 0x003 0 0 9, runW 0 (longWord 0 0x003 0 0 9) (fun x => x) (z), runs_of (by decide), trapFree_of (by decide), by decide⟩

theorem wit_issueCommandsComplete_2 : ∃ (t : ThreadId) (w : IssueWord) (d : Nat) (s : State), (s.issues t.val w) ∧ (illegal w (s.pkt t.val) false false = some d) :=
  ⟨0, longWord 0 0 0 4 0, 6, runW 0 (longWord 0 0 0 4 0) (fun x => x) (z), issues_of (by decide), by decide⟩

theorem wit_issueCommandsComplete_3 : ∃ (t : ThreadId) (g : BitVec 4) (n : BitVec 16) (s : State) (w : IssueWord), (w = longWord g.toNat 0 0 1 n.toNat) ∧ (s.issues t.val w) ∧ (s.legal t.val w) ∧ ((s.th t.val).pc ≠ 16383) :=
  ⟨0, 0, 5, runW 0 (longWord 0 0 0 1 5) (fun x => x) (z), _, rfl, issues_of (by decide), legal_of (by decide), by decide⟩

theorem wit_issueCommandsComplete_4 : ∃ (t : ThreadId) (g : BitVec 4) (cap : BitVec 16) (k : Nat) (s : State) (w : IssueWord), (w = longWord g.toNat 0 0 2 cap.toNat) ∧ (s.issues t.val w) ∧ (s.legal t.val w) ∧ ((s.th t.val).pc ≠ 16383) ∧ (k = (if (s.wordStart t.val).rc = 0 then 65536 else (s.wordStart t.val).rc.toNat)) ∧ (k ≤ 65536) ∧ (guardTrue g.toNat (s.wordStart t.val).p = true) ∧ (cap ≠ 0 → k ≤ cap.toNat) :=
  ⟨0, 0, 9, 7, runW 0 (longWord 0 0 0 2 9) (fun x => { x with rc := 7 }) (z), _, rfl, issues_of (by decide), legal_of (by decide), by decide⟩

theorem wit_issueCommandsComplete_5 : ∃ (t : ThreadId) (r : Rep) (w : IssueWord) (s : State), ((s.th t.val).rep = some r) ∧ (s.canIssue t.val = true) ∧ (s.fetchWord (cluOf t.val) r.body = (w, 0, s)) ∧ ((s.th t.val).lateTrap = []) ∧ (r.live ≤ r.index) ∧ (r.body ≠ 16383) ∧ (illegal w (s.pkt t.val) r.first false = none) ∧ (unpopulated w = false) :=
  ⟨0, { live := 0, total := 3, capped := false, body := 0, index := 0, first := true }, longWord 0 0x003 0 0 9, runW 0 (longWord 0 0x003 0 0 9) (fun x => { x with pc := 1, rep := some { live := 0, total := 3, capped := false, body := 0, index := 0, first := true } }) (z), by decide⟩

theorem wit_issueCommandsComplete_6 : ∃ (t : ThreadId) (r : Rep) (w : IssueWord) (s : State) (v : State), ((s.th t.val).rep = some r) ∧ (s.canIssue t.val = true) ∧ (s.fetchWord (cluOf t.val) r.body = (w, 0, s)) ∧ ((s.th t.val).lateTrap = []) ∧ (r.index < r.live) ∧ (illegal w (s.pkt t.val) r.first false = none) ∧ (unpopulated w = false) ∧ ((wordKind w).moves ≠ []) ∧ (v = (s.atSlot t.val (s.slotOf t.val)).issueMoves t.val (s.slotOf t.val) r.body (if r.total ≤ r.index + 1 then r.body + 1 else r.body) (wordKind w).moves) ∧ ((v.th t.val).rep = some r) :=
  ⟨0, { live := 3, total := 3, capped := false, body := 0, index := 1, first := false }, longWord 0 0x003 0 0 9, runW 0 (longWord 0 0x003 0 0 9) (fun x => { x with pc := 1, rep := some { live := 3, total := 3, capped := false, body := 0, index := 1, first := false } }) (z), _, by decide, by decide, by decide, by decide, by decide, by decide, by decide, by decide, rfl, by decide⟩

theorem wit_issueCommandsComplete_7 : ∃ (t : ThreadId) (w : IssueWord) (s : State), (s.canIssue t.val = true) ∧ (s.pkt t.val = true) ∧ ((s.th t.val).nextCyc = (s.th t.val).t0) ∧ (s.fetchWord (cluOf t.val) (s.clu? (cluOf t.val)).entry = (w, 0, s)) ∧ (illegal w true false true = none) ∧ (wordKind w = .span s.span) ∧ ((s.clu? (cluOf t.val)).entry ≠ 16383) :=
  ⟨0, longWord 0 0 0 3 100, runW 0 (longWord 0 0 0 3 100) (fun x => { x with t0 := 160, nextCyc := 160 }) (spanZ), by decide⟩

theorem wit_issueCommandsComplete_8 : ∃ (t : ThreadId) (s : State), (s.pkt t.val = true) ∧ ((s.th t.val).st = .running) ∧ ((s.th t.val).ended = false) ∧ ((s.th t.val).stopped = false) ∧ (1 ≤ s.span) ∧ ((s.th t.val).t0 + 8 * s.span ≤ (s.th t.val).nextCyc) :=
  ⟨0, { (spanZ.modTh 0 fun x => { x with st := .running, t0 := 160, nextCyc := 960 }) with flights := [{ fl with delivered := true }] }, by decide⟩

theorem wit_lockMovesComplete_1 : ∃ (t : ThreadId) (f : MoveForm) (v : Word) (k : Nat × Nat) (s : State) (w : IssueWord), (w = formWord f 0x0F0 0) ∧ (s.fires t.val w { dst := 0x0F0, x := 0, v := v }) ∧ (lockName t.val v.toNat = some k) ∧ (∀ e, (s.lock (lockKey k.1 k.2)).turn = some e → e.cyc ≠ s.slotOf t.val) ∧ ((s.lock (lockKey k.1 k.2)).held = false) :=
  ⟨0, lf 9, 9, (cluPage 0 3, 9), runW 0 (formWord (lf 9) 0x0F0 0) (fun x => x) (lockZ (lockKey (cluPage 0 3) 9) fun l => { l with abandoned := true }), _, rfl, fires_of (by decide), by decide⟩

theorem wit_lockMovesComplete_2 : ∃ (t : ThreadId) (f : MoveForm) (v : Word) (k : Nat × Nat) (s : State) (w : IssueWord), (w = formWord f 0x0F0 0) ∧ (s.fires t.val w { dst := 0x0F0, x := 0, v := v }) ∧ (lockName t.val v.toNat = some k) ∧ (∀ e, (s.lock (lockKey k.1 k.2)).turn = some e → e.cyc ≠ s.slotOf t.val) ∧ ((s.lock (lockKey k.1 k.2)).held = true) :=
  ⟨0, lf 9, 9, (cluPage 0 3, 9), runW 0 (formWord (lf 9) 0x0F0 0) (fun x => x) (lockZ (lockKey (cluPage 0 3) 9) fun l => { l with held := true }), _, rfl, fires_of (by decide), by decide⟩

theorem wit_lockMovesComplete_3 : ∃ (t : ThreadId) (f : MoveForm) (v : Word) (k : Nat × Nat) (s : State) (w : IssueWord), (w = formWord f 0x0F0 1) ∧ (s.fires t.val w { dst := 0x0F0, x := 1, v := v }) ∧ (lockName t.val v.toNat = some k) ∧ (∀ e, (s.lock (lockKey k.1 k.2)).turn = some e → e.cyc ≠ s.slotOf t.val) ∧ ((s.lock (lockKey k.1 k.2)).held = false) :=
  ⟨0, lf 9, 9, (cluPage 0 3, 9), runW 0 (formWord (lf 9) 0x0F0 1) (fun x => x) (lockZ (lockKey (cluPage 0 3) 9) fun l => { l with abandoned := true }), _, rfl, fires_of (by decide), by decide⟩

theorem wit_lockMovesComplete_4 : ∃ (t : ThreadId) (f : MoveForm) (v : Word) (k : Nat × Nat) (s : State) (w : IssueWord), (w = formWord f 0x0F0 1) ∧ (s.fires t.val w { dst := 0x0F0, x := 1, v := v }) ∧ (lockName t.val v.toNat = some k) ∧ (∀ e, (s.lock (lockKey k.1 k.2)).turn = some e → e.cyc ≠ s.slotOf t.val) ∧ ((s.lock (lockKey k.1 k.2)).held = true) :=
  ⟨0, lf 9, 9, (cluPage 0 3, 9), runW 0 (formWord (lf 9) 0x0F0 1) (fun x => x) (lockZ (lockKey (cluPage 0 3) 9) fun l => { l with held := true, owner := 5 }), _, rfl, fires_of (by decide), by decide⟩

theorem wit_lockMovesComplete_5 : ∃ (t : ThreadId) (f : MoveForm) (v : Word) (k : Nat × Nat) (s : State) (w : IssueWord), (w = formWord f 0x0F0 2) ∧ (s.fires t.val w { dst := 0x0F0, x := 2, v := v }) ∧ (lockName t.val v.toNat = some k) ∧ (∀ e, (s.lock (lockKey k.1 k.2)).turn = some e → e.cyc ≠ s.slotOf t.val) ∧ ((s.lock (lockKey k.1 k.2)).held = true) :=
  ⟨0, lf 9, 9, (cluPage 0 3, 9), runW 0 (formWord (lf 9) 0x0F0 2) (fun x => x) (lockZ (lockKey (cluPage 0 3) 9) fun l => { l with held := true }), _, rfl, fires_of (by decide), by decide⟩

theorem wit_lockMovesComplete_6 : ∃ (t : ThreadId) (f : MoveForm) (v : Word) (k : Nat × Nat) (s : State) (w : IssueWord), (w = formWord f 0x0F0 2) ∧ (s.fires t.val w { dst := 0x0F0, x := 2, v := v }) ∧ (lockName t.val v.toNat = some k) ∧ (∀ e, (s.lock (lockKey k.1 k.2)).turn = some e → e.cyc ≠ s.slotOf t.val) ∧ ((s.lock (lockKey k.1 k.2)).held = false) :=
  ⟨0, lf 9, 9, (cluPage 0 3, 9), runW 0 (formWord (lf 9) 0x0F0 2) (fun x => x) (lockZ (lockKey (cluPage 0 3) 9) fun l => { l with abandoned := true }), _, rfl, fires_of (by decide), by decide⟩

theorem wit_lockMovesComplete_7 : ∃ (t : ThreadId) (f : MoveForm) (v : Word) (k : Nat × Nat) (r : Nat) (rs : List Nat) (s : State) (w : IssueWord), (w = formWord f 0x0F0 3) ∧ (s.fires t.val w { dst := 0x0F0, x := 3, v := v }) ∧ (lockName t.val v.toNat = some k) ∧ (∀ e, (s.lock (lockKey k.1 k.2)).turn = some e → e.cyc ≠ s.slotOf t.val) ∧ ((s.lock (lockKey k.1 k.2)).held = true) ∧ ((s.lock (lockKey k.1 k.2)).waiters = r :: rs) ∧ (r ≠ t.val) :=
  ⟨0, lf 9, 9, (cluPage 0 3, 9), 8, [9], runW 0 (formWord (lf 9) 0x0F0 3) (fun x => x) (lockZ (lockKey (cluPage 0 3) 9) fun l => { l with held := true, waiters := [8, 9] }), _, rfl, fires_of (by decide), by decide⟩

theorem wit_lockMovesComplete_8 : ∃ (t : ThreadId) (f : MoveForm) (v : Word) (k : Nat × Nat) (s : State) (w : IssueWord), (w = formWord f 0x0F0 3) ∧ (s.fires t.val w { dst := 0x0F0, x := 3, v := v }) ∧ (lockName t.val v.toNat = some k) ∧ (∀ e, (s.lock (lockKey k.1 k.2)).turn = some e → e.cyc ≠ s.slotOf t.val) ∧ ((s.lock (lockKey k.1 k.2)).held = true) ∧ ((s.lock (lockKey k.1 k.2)).waiters = []) ∧ ((s.lock (lockKey k.1 k.2)).armed = []) :=
  ⟨0, lf 9, 9, (cluPage 0 3, 9), runW 0 (formWord (lf 9) 0x0F0 3) (fun x => x) (lockZ (lockKey (cluPage 0 3) 9) fun l => { l with held := true }), _, rfl, fires_of (by decide), by decide⟩

theorem wit_lockMovesComplete_9 : ∃ (t : ThreadId) (f : MoveForm) (v : Word) (k : Nat × Nat) (s : State) (w : IssueWord), (w = formWord f 0x0F0 3) ∧ (s.fires t.val w { dst := 0x0F0, x := 3, v := v }) ∧ (lockName t.val v.toNat = some k) ∧ (∀ e, (s.lock (lockKey k.1 k.2)).turn = some e → e.cyc ≠ s.slotOf t.val) ∧ ((s.lock (lockKey k.1 k.2)).held = false) :=
  ⟨0, lf 9, 9, (cluPage 0 3, 9), runW 0 (formWord (lf 9) 0x0F0 3) (fun x => x) (lockZ (lockKey (cluPage 0 3) 9) fun l => { l with abandoned := true }), _, rfl, fires_of (by decide), by decide⟩

theorem wit_channelMovesComplete_1 : ∃ (t : ThreadId) (f : MoveForm) (n : Fin 8) (v : Word) (s : State) (u0 : State) (w : IssueWord) (i : Nat), (w = formWord f 0x109 n.val) ∧ (s.fires t.val w { dst := 0x109, x := n.val, v := v }) ∧ (u0 = s.wordDone t.val w) ∧ (i = ((u0.th t.val).opv 0x108).toNat % 32) ∧ (∀ e, (s.chan (cluOf t.val) i).turn = some e → e.cyc ≠ s.slotOf t.val) ∧ ((s.chan (cluOf t.val) i).msgs.length < 4) ∧ ((s.chan (cluOf t.val) i).recvq = []) ∧ ((s.chan (cluOf t.val) i).armed = []) :=
  ⟨0, lf 5, 2, 5, runW 0 (formWord (lf 5) 0x109 2) (fun x => { x with op := [(0x100, 3), (0x101, 4), (0x108, 7)] }) (chanZ 7 fun c => { c with msgs := [msg] }), _, _, _, rfl, fires_of (by decide), rfl, rfl, by decide⟩

theorem wit_channelMovesComplete_2 : ∃ (t : ThreadId) (f : MoveForm) (n : Fin 8) (v : Word) (s : State) (u0 : State) (w : IssueWord) (i : Nat), (w = formWord f 0x109 n.val) ∧ (s.fires t.val w { dst := 0x109, x := n.val, v := v }) ∧ (u0 = s.wordDone t.val w) ∧ (i = ((u0.th t.val).opv 0x108).toNat % 32) ∧ (∀ e, (s.chan (cluOf t.val) i).turn = some e → e.cyc ≠ s.slotOf t.val) ∧ (4 ≤ (s.chan (cluOf t.val) i).msgs.length) :=
  ⟨0, lf 5, 2, 5, runW 0 (formWord (lf 5) 0x109 2) (fun x => { x with op := [(0x100, 3), (0x101, 4), (0x108, 7)] }) (chanZ 7 fun c => { c with msgs := [msg, msg, msg, msg] }), _, _, _, rfl, fires_of (by decide), rfl, rfl, by decide⟩

theorem wit_channelMovesComplete_3 : ∃ (t : ThreadId) (f : MoveForm) (n : Fin 8) (v : Word) (s : State) (u0 : State) (w : IssueWord) (i : Nat), (w = formWord f 0x109 (8 + n.val)) ∧ (s.fires t.val w { dst := 0x109, x := 8 + n.val, v := v }) ∧ (u0 = s.wordDone t.val w) ∧ (i = ((u0.th t.val).opv 0x108).toNat % 32) ∧ (∀ e, (s.chan (cluOf t.val) i).turn = some e → e.cyc ≠ s.slotOf t.val) ∧ (4 ≤ (s.chan (cluOf t.val) i).msgs.length) :=
  ⟨0, lf 5, 2, 5, runW 0 (formWord (lf 5) 0x109 10) (fun x => { x with op := [(0x100, 3), (0x101, 4), (0x108, 7)] }) (chanZ 7 fun c => { c with msgs := [msg, msg, msg, msg] }), _, _, _, rfl, fires_of (by decide), rfl, rfl, by decide⟩

theorem wit_channelMovesComplete_4 : ∃ (t : ThreadId) (f : MoveForm) (n : Fin 8) (v : Word) (s : State) (u0 : State) (w : IssueWord) (i : Nat), (w = formWord f 0x109 (8 + n.val)) ∧ (s.fires t.val w { dst := 0x109, x := 8 + n.val, v := v }) ∧ (u0 = s.wordDone t.val w) ∧ (i = ((u0.th t.val).opv 0x108).toNat % 32) ∧ (∀ e, (s.chan (cluOf t.val) i).turn = some e → e.cyc ≠ s.slotOf t.val) ∧ ((s.chan (cluOf t.val) i).msgs.length < 4) ∧ ((s.chan (cluOf t.val) i).recvq = []) ∧ ((s.chan (cluOf t.val) i).armed = []) :=
  ⟨0, lf 5, 2, 5, runW 0 (formWord (lf 5) 0x109 10) (fun x => { x with op := [(0x100, 3), (0x101, 4), (0x108, 7)] }) (chanZ 7 fun c => { c with msgs := [msg] }), _, _, _, rfl, fires_of (by decide), rfl, rfl, by decide⟩

theorem wit_channelMovesComplete_5 : ∃ (t : ThreadId) (f : MoveForm) (v : Word) (m : Msg) (r : List Msg) (s : State) (u0 : State) (w : IssueWord), (w = formWord f 0x10A 0) ∧ (s.fires t.val w { dst := 0x10A, x := 0, v := v }) ∧ (u0 = s.wordDone t.val w) ∧ ((s.chan (cluOf t.val) (v.toNat % 32)).msgs = m :: r) ∧ (m.at_ ≤ s.slotOf t.val) ∧ ((s.chan (cluOf t.val) (v.toNat % 32)).sendq = []) :=
  ⟨0, lf 7, 7, msg, [msg], runW 0 (formWord (lf 7) 0x10A 0) (fun x => x) (chanZ 7 fun c => { c with msgs := [msg, msg] }), _, _, rfl, fires_of (by decide), rfl, by decide⟩

theorem wit_channelMovesComplete_6 : ∃ (t : ThreadId) (f : MoveForm) (v : Word) (s : State) (u0 : State) (w : IssueWord), (w = formWord f 0x10A 0) ∧ (s.fires t.val w { dst := 0x10A, x := 0, v := v }) ∧ (u0 = s.wordDone t.val w) ∧ ((s.chan (cluOf t.val) (v.toNat % 32)).msgs = []) :=
  ⟨0, lf 7, 7, runW 0 (formWord (lf 7) 0x10A 0) (fun x => x) (chanZ 7 fun c => { c with armed := [9] }), _, _, rfl, fires_of (by decide), rfl, by decide⟩

theorem wit_channelMovesComplete_7 : ∃ (t : ThreadId) (f : MoveForm) (v : Word) (m : Msg) (r : List Msg) (s : State) (u0 : State) (w : IssueWord), (w = formWord f 0x10A 1) ∧ (s.fires t.val w { dst := 0x10A, x := 1, v := v }) ∧ (u0 = s.wordDone t.val w) ∧ ((s.chan (cluOf t.val) (v.toNat % 32)).msgs = m :: r) ∧ ((s.chan (cluOf t.val) (v.toNat % 32)).sendq = []) :=
  ⟨0, lf 7, 7, msg, [msg], runW 0 (formWord (lf 7) 0x10A 1) (fun x => x) (chanZ 7 fun c => { c with msgs := [msg, msg] }), _, _, rfl, fires_of (by decide), rfl, by decide⟩

theorem wit_channelMovesComplete_8 : ∃ (t : ThreadId) (f : MoveForm) (v : Word) (s : State) (u0 : State) (w : IssueWord), (w = formWord f 0x10A 1) ∧ (s.fires t.val w { dst := 0x10A, x := 1, v := v }) ∧ (u0 = s.wordDone t.val w) ∧ ((s.chan (cluOf t.val) (v.toNat % 32)).msgs = []) :=
  ⟨0, lf 7, 7, runW 0 (formWord (lf 7) 0x10A 1) (fun x => x) (chanZ 7 fun c => { c with armed := [9] }), _, _, rfl, fires_of (by decide), rfl, by decide⟩

theorem wit_channelMovesComplete_9 : ∃ (t : ThreadId) (f : MoveForm) (v : Word) (s : State) (u0 : State) (w : IssueWord), (w = formWord f 0x10A 2) ∧ (s.fires t.val w { dst := 0x10A, x := 2, v := v }) ∧ (u0 = s.wordDone t.val w) ∧ ((s.chan (cluOf t.val) (v.toNat % 32)).msgs = []) :=
  ⟨0, lf 7, 7, runW 0 (formWord (lf 7) 0x10A 2) (fun x => x) (chanZ 7 fun c => { c with armed := [9] }), _, _, rfl, fires_of (by decide), rfl, by decide⟩

theorem wit_channelMovesComplete_10 : ∃ (t : ThreadId) (f : MoveForm) (v : Word) (s : State) (u0 : State) (w : IssueWord), (w = formWord f 0x10A 2) ∧ (s.fires t.val w { dst := 0x10A, x := 2, v := v }) ∧ (u0 = s.wordDone t.val w) ∧ ((s.chan (cluOf t.val) (v.toNat % 32)).msgs ≠ []) :=
  ⟨0, lf 7, 7, runW 0 (formWord (lf 7) 0x10A 2) (fun x => x) (chanZ 7 fun c => { c with msgs := [msg] }), _, _, rfl, fires_of (by decide), rfl, by decide⟩

theorem wit_threadMovesComplete_1 : ∃ (t : ThreadId) (f : MoveForm) (det : Bool) (v : Word) (k : Nat) (s : State) (u0 : State) (w : IssueWord), (w = formWord f 0x390 (b2n det)) ∧ (s.fires t.val w { dst := 0x390, x := b2n det, v := v }) ∧ (u0 = s.wordDone t.val w) ∧ (u0.forkCtx t.val = some k) ∧ (k ≠ t.val) ∧ (u0.placedAt k = none) :=
  ⟨0, lf 5, true, 5, 1, runW 0 (formWord (lf 5) 0x390 1) (fun x => x) (z), _, _, rfl, fires_of (by decide), rfl, by decide⟩

theorem wit_threadMovesComplete_2 : ∃ (t : ThreadId) (f : MoveForm) (det : Bool) (v : Word) (k : Nat) (p : Placed) (s : State) (u0 : State) (w : IssueWord), (w = formWord f 0x390 (b2n det)) ∧ (s.fires t.val w { dst := 0x390, x := b2n det, v := v }) ∧ (u0 = s.wordDone t.val w) ∧ (u0.forkCtx t.val = some k) ∧ (k ≠ t.val) ∧ (u0.placedAt k = some p) :=
  ⟨0, lf 5, false, 5, 1, { cyc := 0, tcb := 9, ctx := 1, place := 0x10000, seq := 0, wr := 0, rd := 0, lost := 0 }, runW 0 (formWord (lf 5) 0x390 0) (fun x => x) ((State.setTeller (withTcb 9 0x05200000 0x10000 z) 0 fun k => { k with restore := [(1, 9)], placed := [{ cyc := 0, tcb := 9, ctx := 1, place := 0x10000, seq := 0, wr := 0, rd := 0, lost := 0 }] })), _, _, rfl, fires_of (by decide), rfl, by decide⟩

theorem wit_threadMovesComplete_3 : ∃ (t : ThreadId) (f : MoveForm) (det : Bool) (v : Word) (s : State) (u0 : State) (w : IssueWord), (w = formWord f 0x390 (b2n det)) ∧ (s.fires t.val w { dst := 0x390, x := b2n det, v := v }) ∧ (u0 = s.wordDone t.val w) ∧ (u0.forkCtx t.val = none) :=
  ⟨0, lf 5, false, 5, runW 0 (formWord (lf 5) 0x390 0) (fun x => x) ({ z with thr := (List.range 64).map fun i => (i, { Thread.fresh with st := .running }) }), _, _, rfl, fires_of (by decide), rfl, by decide⟩

theorem wit_threadMovesComplete_4 : ∃ (t : ThreadId) (f : MoveForm) (v : Word) (k : Nat) (s : State) (u0 : State) (w : IssueWord), (w = formWord f 0x391 0) ∧ (s.fires t.val w { dst := 0x391, x := 0, v := v }) ∧ (u0 = s.wordDone t.val w) ∧ (threadOf v.toNat = some k) ∧ (k ≠ t.val) ∧ (tFind (u0.th t.val).dead k = none) ∧ ((s.th k).st = .exited) :=
  ⟨0, lf 2, 2, 1, runW 0 (formWord (lf 2) 0x391 0) (fun x => x) ((z.modTh 1 fun x => { x with st := .exited, exitVal := 88, parent := some 0 })), _, _, rfl, fires_of (by decide), rfl, by decide⟩

theorem wit_threadMovesComplete_5 : ∃ (t : ThreadId) (f : MoveForm) (v : Word) (k : Nat) (s : State) (u0 : State) (w : IssueWord), (w = formWord f 0x391 0) ∧ (s.fires t.val w { dst := 0x391, x := 0, v := v }) ∧ (u0 = s.wordDone t.val w) ∧ (threadOf v.toNat = some k) ∧ (k ≠ t.val) ∧ (tFind (u0.th t.val).dead k = none) ∧ ((s.th k).st ≠ .exited) :=
  ⟨0, lf 2, 2, 1, runW 0 (formWord (lf 2) 0x391 0) (fun x => x) ((z.modTh 1 fun x => { x with st := .running, exitVal := 88, parent := some 0 })), _, _, rfl, fires_of (by decide), rfl, by decide⟩

theorem wit_threadMovesComplete_6 : ∃ (t : ThreadId) (f : MoveForm) (v : Word) (n : Nat) (s : State) (u0 : State) (w : IssueWord), (w = formWord f 0x392 0) ∧ (s.fires t.val w { dst := 0x392, x := 0, v := v }) ∧ (u0 = s.wordDone t.val w) ∧ ((s.th t.val).tcb = some n) ∧ (u0.hasKid t.val = false) :=
  ⟨0, lf 2, 2, 7, runW 0 (formWord (lf 2) 0x392 0) (fun x => { x with tcb := some 7 }) (z), _, _, rfl, fires_of (by decide), rfl, by decide⟩

theorem wit_threadMovesComplete_7 : ∃ (t : ThreadId) (f : MoveForm) (v : Word) (s : State) (u0 : State) (w : IssueWord), (w = formWord f 0x392 0) ∧ (s.fires t.val w { dst := 0x392, x := 0, v := v }) ∧ (u0 = s.wordDone t.val w) ∧ ((s.th t.val).tcb = none) :=
  ⟨0, lf 2, 2, runW 0 (formWord (lf 2) 0x392 0) (fun x => x) (z), _, _, rfl, fires_of (by decide), rfl, by decide⟩

theorem wit_threadMovesComplete_8 : ∃ (t : ThreadId) (f : MoveForm) (v : Word) (s : State) (u0 : State) (w : IssueWord), (w = formWord f 0x392 0) ∧ (s.fires t.val w { dst := 0x392, x := 0, v := v }) ∧ (u0 = s.wordDone t.val w) ∧ (u0.hasKid t.val = true) :=
  ⟨0, lf 2, 2, runW 0 (formWord (lf 2) 0x392 0) (fun x => { x with tcb := some 7 }) ((z.modTh 1 fun x => { x with st := .running, forked := true, parent := some 0 })), _, _, rfl, fires_of (by decide), rfl, by decide⟩

theorem wit_threadMovesComplete_9 : ∃ (t : ThreadId) (f : MoveForm) (v : Word) (s : State) (u0 : State) (w : IssueWord) (m : BitVec 16), (w = formWord f 0x393 0) ∧ (s.fires t.val w { dst := 0x393, x := 0, v := v }) ∧ (u0 = s.wordDone t.val w) ∧ (m = BitVec.setWidth 16 v) ∧ (m ≠ 0) ∧ ((s.th t.val).ev &&& m ≠ 0) :=
  ⟨0, lf 6, 6, runW 0 (formWord (lf 6) 0x393 0) (fun x => { x with ev := 4 }) (z), _, _, _, rfl, fires_of (by decide), rfl, rfl, by decide⟩

theorem wit_threadMovesComplete_10 : ∃ (t : ThreadId) (f : MoveForm) (v : Word) (s : State) (u0 : State) (w : IssueWord) (m : BitVec 16), (w = formWord f 0x393 0) ∧ (s.fires t.val w { dst := 0x393, x := 0, v := v }) ∧ (u0 = s.wordDone t.val w) ∧ (m = BitVec.setWidth 16 v) ∧ (m ≠ 0) ∧ ((s.th t.val).ev &&& m = 0) :=
  ⟨0, lf 0x50006, 0x50006, runW 0 (formWord (lf 0x50006) 0x393 0) (fun x => { x with ev := 1 }) (z), _, _, _, rfl, fires_of (by decide), rfl, rfl, by decide⟩

theorem wit_threadMovesComplete_11 : ∃ (t : ThreadId) (f : MoveForm) (v : Word) (k : Nat) (s : State) (w : IssueWord), (w = formWord f 0x394 0) ∧ (s.fires t.val w { dst := 0x394, x := 0, v := v }) ∧ (threadOf v.toNat = some k) :=
  ⟨0, lf 0x50010, 0x50010, 8, runW 0 (formWord (lf 0x50010) 0x394 0) (fun x => x) (z), _, rfl, fires_of (by decide), by decide⟩

theorem wit_threadMovesComplete_12 : ∃ (t : ThreadId) (f : MoveForm) (v : Word) (p : Nat) (s : State) (w : IssueWord), (w = formWord f 0x395 0) ∧ (s.fires t.val w { dst := 0x395, x := 0, v := v }) ∧ ((s.th t.val).parent = some p) ∧ (p ≠ t.val) ∧ ((s.th p).parent ≠ some t.val) ∧ (¬((s.th p).st = .waitJoin ∧ (s.th p).waitObj = nw (ctxNo t.val))) :=
  ⟨0, lf 0x55, 0x55, 1, runW 0 (formWord (lf 0x55) 0x395 0) (fun x => { x with parent := some 1, forked := true }) ((z.modTh 1 fun x => { x with st := .running })), _, rfl, fires_of (by decide), by decide⟩

theorem wit_threadMovesComplete_13 : ∃ (t : ThreadId) (f : MoveForm) (v : Word) (p : Nat) (s : State) (w : IssueWord), (w = formWord f 0x395 0) ∧ (s.fires t.val w { dst := 0x395, x := 0, v := v }) ∧ ((s.th t.val).parent = some p) ∧ (p ≠ t.val) ∧ ((s.th p).parent ≠ some t.val) ∧ ((s.th p).st = .waitJoin) ∧ ((s.th p).waitObj = nw (ctxNo t.val)) :=
  ⟨0, lf 0x55, 0x55, 1, runW 0 (formWord (lf 0x55) 0x395 0) (fun x => { x with parent := some 1, forked := true }) ((z.modTh 1 fun x => { x with st := .waitJoin, waitObj := nw (ctxNo 0) })), _, rfl, fires_of (by decide), by decide⟩

theorem wit_threadMovesComplete_14 : ∃ (t : ThreadId) (f : MoveForm) (v : Word) (s : State) (u0 : State) (w : IssueWord) (m : BitVec 16), (w = formWord f 0x3A0 0) ∧ (s.fires t.val w { dst := 0x3A0, x := 0, v := v }) ∧ (u0 = s.wordDone t.val w) ∧ (m = BitVec.setWidth 16 v) ∧ ((s.wordStart t.val).sb &&& m = m) :=
  ⟨0, lf 3, 3, runW 0 (formWord (lf 3) 0x3A0 0) (fun x => { x with sb := 3 }) (z), _, _, _, rfl, fires_of (by decide), rfl, rfl, by decide⟩

theorem wit_threadMovesComplete_15 : ∃ (t : ThreadId) (f : MoveForm) (v : Word) (s : State) (u0 : State) (w : IssueWord) (m : BitVec 16), (w = formWord f 0x3A0 0) ∧ (s.fires t.val w { dst := 0x3A0, x := 0, v := v }) ∧ (u0 = s.wordDone t.val w) ∧ (m = BitVec.setWidth 16 v) ∧ ((s.wordStart t.val).sb &&& m ≠ m) ∧ (s.pkt t.val = false) :=
  ⟨0, lf 3, 3, runW 0 (formWord (lf 3) 0x3A0 0) (fun x => { x with sb := 2, sbOwned := 1 }) (z), _, _, _, rfl, fires_of (by decide), rfl, rfl, by decide⟩

theorem wit_threadMovesComplete_16 : ∃ (t : ThreadId) (f : MoveForm) (v : Word) (s : State) (w : IssueWord), (w = formWord f 0x395 0) ∧ (s.fires t.val w { dst := 0x395, x := 0, v := v }) ∧ ((s.th t.val).parent = none) :=
  ⟨0, lf 0x55, 0x55, runW 0 (formWord (lf 0x55) 0x395 0) (fun x => x) (z), _, rfl, fires_of (by decide), by decide⟩

theorem wit_threadMovesComplete_17 : ∃ (t : ThreadId) (f : MoveForm) (v : Word) (e : Word) (k : Nat) (s : State) (u0 : State) (w : IssueWord), (w = formWord f 0x391 0) ∧ (s.fires t.val w { dst := 0x391, x := 0, v := v }) ∧ (u0 = s.wordDone t.val w) ∧ (threadOf v.toNat = some k) ∧ (tFind (u0.th t.val).dead k = some e) :=
  ⟨0, lf 2, 2, 9, 1, runW 0 (formWord (lf 2) 0x391 0) (fun x => { x with dead := [(1, 9)] }) (z), _, _, rfl, fires_of (by decide), rfl, by decide⟩

theorem wit_threadMovesComplete_18 : ∃ (t : ThreadId) (f : MoveForm) (v : Word) (s : State) (u0 : State) (w : IssueWord), (w = formWord f 0x393 0) ∧ (s.fires t.val w { dst := 0x393, x := 0, v := v }) ∧ (u0 = s.wordDone t.val w) ∧ (BitVec.setWidth 16 v = (0 : BitVec 16)) :=
  ⟨0, lf 0x50000, 0x50000, runW 0 (formWord (lf 0x50000) 0x393 0) (fun x => x) (z), _, _, rfl, fires_of (by decide), rfl, by decide⟩

theorem wit_completionCommandsComplete_1 : ∃ (t : ThreadId) (q : TbOp) (r : List Word × Nat × State) (s : State), ((s.th t.val).tb = some q) ∧ (r = s.tbLookup (rgnOf t.val) s.cyc q.cnt q.val) :=
  ⟨8, { cnt := false, val := 3 }, _, z.modTh 8 fun x => { x with tb := some { cnt := false, val := 3 }, sbOwned := 0x8000 }, by decide, rfl⟩

theorem wit_completionCommandsComplete_2 : ∃ (t : ThreadId) (b : Fin 16) (o : DmOp) (r : List DmOp) (s : State), ((s.th t.val).dm = o :: r) ∧ (o.sb = b.val) ∧ (o.load = true) ∧ (o.poison = false) ∧ ((s.th t.val).st = .running) :=
  ⟨8, 3, spmOp true false, [spmOp false false], z.modTh 8 fun x => { x with dm := [spmOp true false, spmOp false false], st := .running, sbOwned := 8 }, by decide⟩

theorem wit_completionCommandsComplete_3 : ∃ (t : ThreadId) (b : Fin 16) (o : DmOp) (r : List DmOp) (s : State), ((s.th t.val).dm = o :: r) ∧ (o.sb = b.val) ∧ (o.load = true) ∧ (o.poison = true) ∧ ((s.th t.val).st = .running) :=
  ⟨8, 3, spmOp true true, [spmOp false false], z.modTh 8 fun x => { x with dm := [spmOp true true, spmOp false false], st := .running, sbOwned := 8 }, by decide⟩

theorem wit_completionCommandsComplete_4 : ∃ (t : ThreadId) (b : Fin 16) (o : DmOp) (r : List DmOp) (s : State), ((s.th t.val).dm = o :: r) ∧ (o.sb = b.val) ∧ (o.load = false) ∧ (o.poison = false) ∧ ((s.th t.val).st = .waitSb) ∧ (((s.th t.val).sb ||| BitVec.ofNat 16 (2 ^ b.val)) &&& (s.th t.val).mask = (s.th t.val).mask) ∧ ((s.th t.val).sbPois = 0) :=
  ⟨8, 3, spmOp false false, [spmOp true false], z.modTh 8 fun x => { x with dm := [spmOp false false, spmOp true false], st := .waitSb, sbOwned := 8, mask := 8 }, by decide⟩

theorem wit_completionCommandsComplete_5 : ∃ (c : ClusterId) (t : ThreadId) (m : Maint) (r : List Maint) (s : State), ((s.clu? c.val).maint = m :: r) ∧ (m.thread = some t.val) ∧ (m.wait = some 0) ∧ (m.arounds = []) ∧ ((s.th t.val).st = .running) ∧ (m.sb < 16) :=
  ⟨0, 8, mt, [], (z.modTh 8 fun x => { x with st := .running, sbOwned := 16 }).setClu 0 fun k => { k with maint := [mt] }, by decide⟩

theorem wit_completionCommandsComplete_6 : ∃ (c : ClusterId) (m : Maint) (r : List Maint) (s : State), ((s.clu? c.val).maint = m :: r) ∧ (m.thread = none) ∧ (m.wait = some 0) ∧ (m.arounds = []) :=
  ⟨0, { mt with thread := none }, [], z.setClu 0 fun k => { k with maint := [{ mt with thread := none }] }, by decide⟩

theorem wit_completionCommandsComplete_7 : ∃ (t : ThreadId) (e : Fin 16) (x : Bool) (s : State), (s.events.find? (fun q => decide (q.1 = t.val ∧ q.2.1 = e.val)) = some (t.val, e.val, x)) ∧ (s.pkt t.val = false) ∧ ((s.th t.val).st = .running) :=
  ⟨8, 3, true, { z.modTh 8 fun x => { x with st := .running, ev := 1 } with events := [(8, 2, false), (8, 3, true)] }, by decide⟩

theorem wit_completionCommandsComplete_8 : ∃ (t : ThreadId) (e : Fin 16) (x : Bool) (s : State), (s.events.find? (fun q => decide (q.1 = t.val ∧ q.2.1 = e.val)) = some (t.val, e.val, x)) ∧ (s.pkt t.val = false) ∧ ((s.th t.val).st = .waitEvent) ∧ ((s.th t.val).mask = BitVec.ofNat 16 (2 ^ e.val)) ∧ ((s.th t.val).ev = 0) :=
  ⟨8, 3, false, { z.modTh 8 fun x => { x with st := .waitEvent, mask := 8, timeout := some 9 } with events := [(8, 2, true), (8, 3, false)] }, by decide⟩

theorem wit_completionCommandsComplete_9 : ∃ (t : ThreadId) (e : Fin 16) (x : Bool) (s : State), (s.events.find? (fun q => decide (q.1 = t.val ∧ q.2.1 = e.val)) = some (t.val, e.val, x)) ∧ (s.pkt t.val = true) :=
  ⟨8, 3, false, { pktZ with events := [(8, 2, false), (8, 3, false)] }, by decide⟩

theorem wit_completionCommandsComplete_10 : ∃ (t : ThreadId) (c : Nat) (s : State), ((s.th t.val).timeout = some c) ∧ ((s.th t.val).st = .waitEvent) ∧ (((s.th t.val).ev ||| 0x2000) &&& (s.th t.val).mask ≠ 0) :=
  ⟨8, 900, z.modTh 8 fun x => { x with st := .waitEvent, mask := 0x2001, timeout := some 900 }, by decide⟩

theorem wit_killCommandsComplete_1 : ∃ (c : Fin 512) (i : Fin 8) (s : State), (s.domIsOn (domClu (c.val / 8)) = true) ∧ ((s.th (c.val * 8 + i.val)).st ≠ .resetting) ∧ ((s.th (c.val * 8 + i.val)).st = .idle → s.pkt (c.val * 8 + i.val) = true ∨ (s.restoring (c.val * 8 + i.val)).isSome = true) :=
  ⟨1, 3, (upDom 0 z).modTh 11 fun x => { x with st := .running, dm := [spmOp true true], sbOwned := 8 }, by decide⟩

theorem wit_killCommandsComplete_2 : ∃ (c : Fin 512) (s : State), (s.domIsOn (domClu (c.val / 8)) = true) :=
  ⟨1, upDom 0 z, by decide⟩

theorem wit_killCommandsComplete_3 : ∃ (l : BitVec 10) (s : State) (pg : Nat) (k : Nat), ((∃ c : ClusterId, pg = cluPage c.val 3 ∧ s.domIsOn (domClu c.val) = true) ∧ l.toNat < 256 ∨ ∃ r : RegionId, pg = rgnPage r.val 3 ∧ s.domIsOn (domRgn r.val) = true) ∧ (k = lockKey pg l.toNat) ∧ (∀ e, (s.lock k).turn = some e → e.cyc ≠ s.cyc) ∧ ((s.lock k).held = true) ∧ ((s.lock k).waiters = []) ∧ ((s.lock k).armed = []) :=
  ⟨7, upDom 0 (lockZ (lockKey (cluPage 0 3) 7) (fun l => { l with held := true, owner := 9 })), cluPage 0 3, lockKey (cluPage 0 3) 7, .inl ⟨⟨0, by decide⟩, by decide⟩, by decide⟩

theorem wit_killCommandsComplete_4 : ∃ (c : ClusterId) (s : State), (s.stalled c.val = true) ∧ (s.rb (ra (cluPage c.val 0) 0x180) 0 = false) :=
  ⟨0, z.modTh 3 fun x => { x with st := .waitLock }, by decide⟩

theorem wit_killCommandsComplete_5 : ∃ (c : ClusterId) (s : State), ((s.clu? c.val).packet = true) ∧ (64 < (s.clu? c.val).traps) :=
  ⟨0, pktZ.setClu 0 fun k => { k with packet := true, traps := 65 }, by decide⟩

theorem wit_clusterMemoryCommandsComplete_1 : ∃ (c : ClusterId) (o : Nat) (n : Nat) (s : State), (s.domIsOn (domClu c.val) = true) ∧ (o = s.rf (aCmem c.val 0x100) 19 0) ∧ (n = s.rf (aCmem c.val 0x104) 20 0) ∧ (s.rb (aCmem c.val 0x110) 31 = false) ∧ (o % 8 = 0) ∧ (n % 8 = 0) ∧ (n ≠ 0) ∧ (o + n ≤ 0x100000) ∧ (cmemArea o = cmemArea (o + n - 1)) ∧ (cmemArea o ≠ 2) ∧ (cmemArea o = 3 → s.progWritable c.val = true) :=
  ⟨0, 0x100, 64, upDom 0 ((z.setRf (aCmem 0 0x100) 19 0 256).setRf (aCmem 0 0x104) 20 0 64), by decide⟩

theorem wit_clusterMemoryCommandsComplete_2 : ∃ (c : ClusterId) (o : Nat) (n : Nat) (s : State), (s.domIsOn (domClu c.val) = true) ∧ (o = s.rf (aCmem c.val 0x100) 19 0) ∧ (n = s.rf (aCmem c.val 0x104) 20 0) ∧ (s.rb (aCmem c.val 0x110) 31 = false) ∧ (o % 8 ≠ 0 ∨ n % 8 ≠ 0 ∨ n = 0 ∨ 0x100000 < o + n ∨ cmemArea o ≠ cmemArea (o + n - 1) ∨ cmemArea o = 2) :=
  ⟨0, 0x104, 64, upDom 0 ((z.setRf (aCmem 0 0x100) 19 0 260).setRf (aCmem 0 0x104) 20 0 64), by decide⟩

theorem wit_clusterMemoryCommandsComplete_3 : ∃ (c : ClusterId) (f : CmemFill) (s : State) (v : State), ((s.clu? c.val).fill = some f) ∧ (f.done = 0) ∧ (cmemArea f.addr = 3 → s.progWritable c.val = true) ∧ (∀ a ∈ (s.clu? c.val).acc, a.g ≤ f.start) ∧ (∀ b ∈ (s.clu? c.val).bacc, b.g ≤ f.start) ∧ (v = s.upToCyc f.last) ∧ (∀ n, n < 4 → ∀ k ∈ (s.cop c.val n).head?, v.cyc < (s.cop c.val n).fetchAt k) :=
  ⟨0, { addr := 0x100, len := 16, pat := 0x123456789, start := 0, done := 0 }, z.setClu 0 fun k => { k with fill := some { addr := 0x100, len := 16, pat := 0x123456789, start := 0, done := 0 } }, _, by decide, by decide, by decide, by decide, by decide, rfl, by decide⟩

theorem wit_clusterMemoryCommandsComplete_4 : ∃ (c : ClusterId) (f : CmemFill) (s : State) (v : State), ((s.clu? c.val).fill = some f) ∧ (f.done = 0) ∧ (0 < f.len) ∧ (f.len ≤ 128) ∧ (cmemArea f.addr = 3 → s.progWritable c.val = true) ∧ (∀ a ∈ (s.clu? c.val).acc, a.g ≤ f.last) ∧ (∀ b ∈ (s.clu? c.val).bacc, b.g ≤ f.last) ∧ ((s.clu? c.val).collides f.last f.addr f.len = true) ∧ (v = s.upToCyc f.last) ∧ (∀ n, n < 4 → ∀ k ∈ (s.cop c.val n).head?, v.cyc < (s.cop c.val n).fetchAt k) :=
  ⟨0, { addr := 0x100, len := 16, pat := 0x123456789, start := 0, done := 0 }, z.setClu 0 fun k => { k with fill := some { addr := 0x100, len := 16, pat := 0x123456789, start := 0, done := 0 }, acc := [{ g := ({ addr := 0x100, len := 16, pat := 0x123456789, start := 0, done := 0 } : CmemFill).last, thread := 0, at_ := 0, x := 5, addr := 0x104, data := 7, done := true, old := Arr.empty, logged := false }] }, _, by decide, by decide, by decide, by decide, by decide, by decide, by decide, by decide, rfl, by decide⟩

theorem wit_clusterMemoryCommandsComplete_5 : ∃ (c : ClusterId) (f : CmemFill) (s : State), ((s.clu? c.val).fill = some f) ∧ (cmemArea f.addr = 3) ∧ (s.progWritable c.val = false) :=
  ⟨0, { addr := 0xE0000, len := 16, pat := 0x123456789, start := 0, done := 0 }, (runPg (cluPage 0 0) z).setClu 0 fun k => { k with fill := some { addr := 0xE0000, len := 16, pat := 0x123456789, start := 0, done := 0 } }, by decide⟩

theorem wit_clusterMemoryCommandsComplete_6 : ∃ (c : ClusterId) (i : Fin 512) (o : Nat) (b : List Byte) (s : State), (s.domIsOn (domClu c.val) = true) ∧ (o = s.rf (aCmem c.val 0x114) 19 11 * 2048 + 4 * i.val) ∧ (inKeyArea o = false) ∧ ((s.clu? c.val).fill = none) ∧ (∀ a ∈ (s.clu? c.val).acc, a.g < s.cyc) ∧ (∀ x ∈ (s.clu? c.val).bacc, x.g < s.cyc) ∧ (s.cmemRead c.val o 4 = (b, 0, s)) :=
  ⟨0, 64, 0x100, [1, 2, 3, 4], upDom 0 { z with cmem := { cells := [(0x100, 1), (0x101, 2), (0x102, 3), (0x103, 4)], poison := [], hurt := [] } }, by decide⟩

theorem wit_clusterMemoryCommandsComplete_7 : ∃ (c : ClusterId) (i : Fin 512) (o : Nat) (s : State), (s.domIsOn (domClu c.val) = true) ∧ (o = s.rf (aCmem c.val 0x114) 19 11 * 2048 + 4 * i.val) ∧ (inKeyArea o = false) ∧ ((s.clu? c.val).fill = none) ∧ (∀ a ∈ (s.clu? c.val).acc, a.g < s.cyc) ∧ (∀ x ∈ (s.clu? c.val).bacc, x.g ≤ s.cyc) ∧ (∀ n, n < 4 → ∀ k ∈ (s.cop c.val n).head?, s.cyc < (s.cop c.val n).fetchAt k) ∧ (cmemArea o = 3 → s.progWritable c.val = true) ∧ (s.cmemMergeOk c.val o 4 = true) :=
  ⟨0, 64, 0x100, upDom 0 { z with cmem := { cells := [(0x100, 1), (0x101, 2), (0x102, 3), (0x103, 4)], poison := [], hurt := [] } }, by decide⟩

theorem wit_clusterMemoryCommandsComplete_8 : ∃ (c : ClusterId) (i : Fin 512) (o : Nat) (s : State), (s.domIsOn (domClu c.val) = true) ∧ (o = s.rf (aCmem c.val 0x114) 19 11 * 2048 + 4 * i.val) ∧ (inKeyArea o = true) :=
  ⟨0, 64, 0xC8100, upDom 0 (z.setRf (aCmem 0 0x114) 19 11 0x190), by decide⟩

theorem wit_clusterMemoryCommandsComplete_9 : ∃ (c : ClusterId) (i : Fin 512) (o : Nat) (s : State), (s.domIsOn (domClu c.val) = true) ∧ (o = s.rf (aCmem c.val 0x114) 19 11 * 2048 + 4 * i.val) ∧ (inKeyArea o = true) :=
  ⟨0, 64, 0xC8100, upDom 0 (z.setRf (aCmem 0 0x114) 19 11 0x190), by decide⟩

theorem wit_clusterMemoryCommandsComplete_10 : ∃ (c : ClusterId) (s : State), (s.domIsOn (domClu c.val) = false) :=
  ⟨0, z, by decide⟩

theorem wit_clusterMemoryCommandsComplete_11 : ∃ (c : ClusterId) (s : State), (s.domIsOn (domClu c.val) = false) :=
  ⟨0, z, by decide⟩

theorem wit_clusterMemoryCommandsComplete_12 : ∃ (c : ClusterId) (s : State), (s.domIsOn (domClu c.val) = false) :=
  ⟨0, z, by decide⟩

theorem wit_cacheMaintenanceComplete_1 : ∃ (c : ClusterId) (src : Option ThreadId) (i : Nat) (w : Nat) (set : Nat) (tag : Nat) (a : Nat) (m : Maint) (l : Line) (s : State), (∀ t, src = some t → (s.turnOf c.val s.cyc).follows (m.op i t.val 1) = false) ∧ (maintNext (s.clu? c.val).maint (src.map (·.val)) 1 = some i) ∧ ((s.clu? c.val).maint[i]? = some m) ∧ (set = m.off / 64 % 1024) ∧ (tag = m.off / 65536) ∧ (s.dmDecode c.val m.off = .mem a) ∧ (s.tagBad c.val set = none) ∧ (s.findWay c.val set tag = some w) ∧ (tFind s.lines (lineKey c.val set w) = some l) ∧ (l.set = set) ∧ (l.tag = tag) ∧ (l.dirty = true) ∧ (l.bad = 0) ∧ (s.kl1 c.val 1 m.off = false) :=
  ⟨0, some 5, 0, 0, 1, 1, 0x10040, { mtc 1 with thread := some 5 }, line0, cacheT 1 z, fun _ _ => rfl, by decide⟩

theorem wit_cacheMaintenanceComplete_2 : ∃ (c : ClusterId) (src : Option ThreadId) (i : Nat) (w : Nat) (set : Nat) (tag : Nat) (a : Nat) (m : Maint) (s : State), (∀ t, src = some t → (s.turnOf c.val s.cyc).follows (m.op i t.val 2) = false) ∧ (maintNext (s.clu? c.val).maint (src.map (·.val)) 2 = some i) ∧ ((s.clu? c.val).maint[i]? = some m) ∧ (set = m.off / 64 % 1024) ∧ (tag = m.off / 65536) ∧ (s.dmDecode c.val m.off = .mem a) ∧ (s.tagBad c.val set = none) ∧ (s.findWay c.val set tag = some w) :=
  ⟨0, some 5, 0, 0, 1, 1, 0x10040, { mtc 2 with thread := some 5 }, cacheT 2 z, fun _ _ => rfl, by decide⟩

theorem wit_cacheMaintenanceComplete_3 : ∃ (c : ClusterId) (src : Option ThreadId) (i : Nat) (w : Nat) (set : Nat) (tag : Nat) (a : Nat) (m : Maint) (l : Line) (s : State), (∀ t, src = some t → (s.turnOf c.val s.cyc).follows (m.op i t.val 3) = false) ∧ (maintNext (s.clu? c.val).maint (src.map (·.val)) 3 = some i) ∧ ((s.clu? c.val).maint[i]? = some m) ∧ (set = m.off / 64 % 1024) ∧ (tag = m.off / 65536) ∧ (s.dmDecode c.val m.off = .mem a) ∧ (s.tagBad c.val set = none) ∧ (s.findWay c.val set tag = some w) ∧ (tFind s.lines (lineKey c.val set w) = some l) ∧ (l.set = set) ∧ (l.tag = tag) ∧ (l.dirty = true) ∧ (l.bad = 0) :=
  ⟨0, some 5, 0, 0, 1, 1, 0x10040, { mtc 3 with thread := some 5 }, line0, cacheT 3 z, fun _ _ => rfl, by decide⟩

theorem wit_cacheMaintenanceComplete_4 : ∃ (c : ClusterId) (src : Option ThreadId) (i : Nat) (m : Maint) (s : State), (∀ t, src = some t → (s.turnOf c.val s.cyc).follows (m.op i t.val 4) = false) ∧ (maintNext (s.clu? c.val).maint (src.map (·.val)) 4 = some i) ∧ ((s.clu? c.val).maint[i]? = some m) ∧ (s.flushAllStuck c.val = false) :=
  ⟨0, some 5, 0, { mtc 4 with thread := some 5 }, cacheT 4 z, fun _ _ => rfl, by decide⟩

theorem wit_cacheMaintenanceComplete_5 : ∃ (c : ClusterId) (src : Option ThreadId) (i : Nat) (m : Maint) (s : State), (∀ t, src = some t → (s.turnOf c.val s.cyc).follows (m.op i t.val 5) = false) ∧ (maintNext (s.clu? c.val).maint (src.map (·.val)) 5 = some i) ∧ ((s.clu? c.val).maint[i]? = some m) ∧ (s.pgHalted (cluPage c.val 2) = true) :=
  ⟨0, some 5, 0, { mtc 5 with thread := some 5 }, cacheT 5 z, fun _ _ => rfl, by decide⟩

theorem wit_cacheMaintenanceComplete_6 : ∃ (c : ClusterId) (src : Option ThreadId) (i : Nat) (m : Maint) (s : State), (maintNext (s.clu? c.val).maint (src.map (·.val)) 5 = some i) ∧ ((s.clu? c.val).maint[i]? = some m) ∧ (s.pgHalted (cluPage c.val 2) = false) :=
  ⟨0, none, 0, mtc 5, runPg (cluPage 0 2) (cacheZ 5 z), by decide⟩

theorem wit_cacheMaintenanceComplete_7 : ∃ (c : ClusterId) (src : Option ThreadId) (i : Nat) (m : Maint) (s : State), (maintNext (s.clu? c.val).maint (src.map (·.val)) 6 = some i) ∧ ((s.clu? c.val).maint[i]? = some m) :=
  ⟨0, none, 0, mtc 6, cacheZ 6 z, by decide⟩

theorem wit_cacheMaintenanceComplete_8 : ∃ (c : ClusterId) (w : Wb) (r : List Wb) (s : State), ((s.clu? c.val).wbs = w :: r) ∧ (∀ v ∈ r, ¬(v.set = w.set ∧ v.tag = w.tag)) :=
  ⟨0, { addr := 64, set := 0, tag := 0, data := [1] }, [], cacheZ 6 z, by decide⟩

theorem wit_cacheControlComplete_1 : ∃ (c : ClusterId) (v : Word) (s : State), (s.domIsOn (domClu c.val) = true) ∧ (s.pgHalted (cluPage c.val 2) = true) ∧ ((s.clu? c.val).needFlush = none) ∧ (fld v 6 4 ≤ 4) ∧ ((s.rf (aCdc c.val 0x110) 15 0 + fld v 6 4) * 65536 ≤ 0xFFFFE000) ∧ (s.cdcEn c.val = false) :=
  ⟨0, 0x20, upDom 0 (z.setRb (aCdc 0 0x100) 0 false), by decide⟩

theorem wit_cacheControlComplete_2 : ∃ (c : ClusterId) (v : Word) (s : State), (s.domIsOn (domClu c.val) = true) ∧ (s.pgHalted (cluPage c.val 2) = true) ∧ ((s.clu? c.val).needFlush = none) ∧ (fld v 6 4 ≤ 4) ∧ ((s.rf (aCdc c.val 0x110) 15 0 + fld v 6 4) * 65536 ≤ 0xFFFFE000) ∧ (s.cdcEn c.val = true) ∧ (bit v 0 = true) ∧ (s.spmWays c.val < fld v 6 4) ∧ (s.flushStuck c.val (fun w => !bit v 0 || decide (8 - fld v 6 4 ≤ w)) = false) :=
  ⟨0, 0x21, upDom 0 (cacheZ 6 z), by decide⟩

theorem wit_cacheControlComplete_3 : ∃ (c : ClusterId) (v : Word) (s : State), (s.domIsOn (domClu c.val) = true) ∧ (s.pgHalted (cluPage c.val 2) = true) ∧ ((s.clu? c.val).needFlush = none) ∧ (4 < fld v 6 4 ∨ 0xFFFFE000 < (s.rf (aCdc c.val 0x110) 15 0 + fld v 6 4) * 65536) :=
  ⟨0, 0x50, upDom 0 z, by decide⟩

theorem wit_cacheControlComplete_4 : ∃ (c : ClusterId) (s : State), (s.domIsOn (domClu c.val) = true) ∧ (s.pgHalted (cluPage c.val 2) = true) ∧ ((s.clu? c.val).needFlush = none) ∧ (s.spmWays c.val ≤ 4) ∧ ((s.rf (aCdc c.val 0x110) 15 0 + s.spmWays c.val) * 65536 ≤ 0xFFFFE000) ∧ (s.cdcEn c.val = true) ∧ (s.flushAllStuck c.val = false) :=
  ⟨0, upDom 0 (cacheZ 6 z), by decide⟩

theorem wit_cacheControlComplete_5 : ∃ (c : ClusterId) (s : State), (s.domIsOn (domClu c.val) = true) ∧ (s.pgHalted (cluPage c.val 2) = true) ∧ ((s.clu? c.val).needFlush = none) ∧ (s.spmWays c.val ≤ 4) ∧ ((s.rf (aCdc c.val 0x110) 15 0 + s.spmWays c.val) * 65536 ≤ 0xFFFFE000) ∧ (s.cdcEn c.val = true) ∧ (s.flushAllStuck c.val = true) :=
  ⟨0, upDom 0 { cacheZ 6 z with lines := [(lineKey 0 1 0, { line0 with bad := 1 })] }, by decide⟩

theorem wit_cacheControlComplete_6 : ∃ (c : ClusterId) (s : State), (s.domIsOn (domClu c.val) = true) ∧ (s.pgHalted (cluPage c.val 2) = true) ∧ ((s.clu? c.val).needFlush = none) ∧ (s.flushAllStuck c.val = false) :=
  ⟨0, upDom 0 (cacheZ 6 z), by decide⟩

theorem wit_cacheControlComplete_7 : ∃ (c : ClusterId) (v : Word) (s : State), ((s.clu? c.val).needFlush = some { reg := aCdc c.val 0x108, value := v, wait := 0 }) :=
  ⟨0, 0x21, z.setClu 0 fun k => { k with needFlush := some { reg := aCdc 0 0x108, value := 0x21, wait := 0 } }, by decide⟩

theorem wit_cacheControlComplete_8 : ∃ (c : ClusterId) (v : Word) (s : State), ((s.clu? c.val).needFlush = some { reg := aCdc c.val 0x100, value := v, wait := 0 }) ∧ (s.spmWays c.val < fld v 6 4) ∧ (fld v 6 4 ≤ 4) :=
  ⟨0, 0x21, z.setClu 0 fun k => { k with needFlush := some { reg := aCdc 0 0x100, value := 0x21, wait := 0 } }, by decide⟩

theorem wit_cacheControlComplete_9 : ∃ (c : ClusterId) (e : Nat) (s : State), ((s.clu? c.val).invEnd = some e) :=
  ⟨0, 9, z.setClu 0 fun k => { k with invEnd := some 9 }, by decide⟩

theorem wit_cacheControlComplete_10 : ∃ (c : ClusterId) (s : State), ((s.clu? c.val).invEnd = none) :=
  ⟨0, z.setClu 0 fun k => { k with invEnd := none }, by decide⟩

theorem wit_cacheControlComplete_11 : ∃ (c : ClusterId) (s : State), (s.domIsOn (domClu c.val) = false) :=
  ⟨0, z, by decide⟩

theorem wit_cacheControlComplete_12 : ∃ (c : ClusterId) (s : State), (s.domIsOn (domClu c.val) = false) :=
  ⟨0, z, by decide⟩

theorem wit_cacheControlComplete_13 : ∃ (c : ClusterId) (s : State), (s.domIsOn (domClu c.val) = false) :=
  ⟨0, z, by decide⟩

theorem wit_polynomialCommandsComplete_1 : ∃ (c : ClusterId) (k : CopCmd) (b : List Byte) (s : State) (s1 : State) (p : List Byte), (s.copNext s1 c.val 0 0x01 k b) ∧ (blkVar b < 2) ∧ (∀ x ∈ polyOf p, x < (ringOf (blkVar b)).q) ∧ (s1.copMay c.val 0 k [arg b 0 (lxLen b) false] [arg b 1 (lxLen b) false] [p]) :=
  ⟨0, cmd 0, blk [1, 0, 0, 0, 256, 1024, 0, 0, 0, 0, 0, 0, 0, 0, 0, 0], copZ 0 (blkF [1, 0, 0, 0, 256, 1024, 0, 0, 0, 0, 0, 0, 0, 0, 0, 0] 0) (id), (copZ 0 (blkF [1, 0, 0, 0, 256, 1024, 0, 0, 0, 0, 0, 0, 0, 0, 0, 0] 0) (id)).upToCyc (max 9 ((copZ 0 (blkF [1, 0, 0, 0, 256, 1024, 0, 0, 0, 0, 0, 0, 0, 0, 0, 0] 0) (id)).cop 0 0).freeAt), operand (blkF [1, 0, 0, 0, 256, 1024, 0, 0, 0, 0, 0, 0, 0, 0, 0, 0] 0) (arg (blk [1, 0, 0, 0, 256, 1024, 0, 0, 0, 0, 0, 0, 0, 0, 0, 0]) 0 (lxLen (blk [1, 0, 0, 0, 256, 1024, 0, 0, 0, 0, 0, 0, 0, 0, 0, 0])) false), copNext_of (by decide) (by decide) (by decide) (by decide), by decide, polyOf_small (by decide) (by decide), copMay_of rfl rfl (by decide)⟩

theorem wit_polynomialCommandsComplete_2 : ∃ (c : ClusterId) (k : CopCmd) (b : List Byte) (s : State) (s1 : State) (p : List Byte), (s.copNext s1 c.val 0 0x02 k b) ∧ (blkVar b < 2) ∧ (∀ x ∈ polyOf p, x < (ringOf (blkVar b)).q) ∧ (s1.copMay c.val 0 k [arg b 0 (lxLen b) false] [arg b 1 (lxLen b) false] [p]) :=
  ⟨0, cmd 0, blk [2, 0, 0, 0, 256, 1024, 0, 0, 0, 0, 0, 0, 0, 0, 0, 0], copZ 0 (blkF [2, 0, 0, 0, 256, 1024, 0, 0, 0, 0, 0, 0, 0, 0, 0, 0] 0) (id), (copZ 0 (blkF [2, 0, 0, 0, 256, 1024, 0, 0, 0, 0, 0, 0, 0, 0, 0, 0] 0) (id)).upToCyc (max 9 ((copZ 0 (blkF [2, 0, 0, 0, 256, 1024, 0, 0, 0, 0, 0, 0, 0, 0, 0, 0] 0) (id)).cop 0 0).freeAt), operand (blkF [2, 0, 0, 0, 256, 1024, 0, 0, 0, 0, 0, 0, 0, 0, 0, 0] 0) (arg (blk [2, 0, 0, 0, 256, 1024, 0, 0, 0, 0, 0, 0, 0, 0, 0, 0]) 0 (lxLen (blk [2, 0, 0, 0, 256, 1024, 0, 0, 0, 0, 0, 0, 0, 0, 0, 0])) false), copNext_of (by decide) (by decide) (by decide) (by decide), by decide, polyOf_small (by decide) (by decide), copMay_of rfl rfl (by decide)⟩

theorem wit_polynomialCommandsComplete_3 : ∃ (c : ClusterId) (k : CopCmd) (b : List Byte) (s : State) (s1 : State) (p : List Byte) (q : List Byte), (s.copNext s1 c.val 0 0x03 k b) ∧ (blkVar b < 2) ∧ (∀ x ∈ polyOf p, x < (ringOf (blkVar b)).q) ∧ (∀ x ∈ polyOf q, x < (ringOf (blkVar b)).q) ∧ (s1.copMay c.val 0 k [arg b 0 (lxLen b) false, arg b 1 (lxLen b) false] [arg b 2 (lxLen b) false] [p, q]) :=
  ⟨0, cmd 0, blk [3, 0, 0, 0, 256, 1024, 1536, 0, 0, 0, 0, 0, 0, 0, 0, 0], copZ 0 (blkF [3, 0, 0, 0, 256, 1024, 1536, 0, 0, 0, 0, 0, 0, 0, 0, 0] 0) (id), (copZ 0 (blkF [3, 0, 0, 0, 256, 1024, 1536, 0, 0, 0, 0, 0, 0, 0, 0, 0] 0) (id)).upToCyc (max 9 ((copZ 0 (blkF [3, 0, 0, 0, 256, 1024, 1536, 0, 0, 0, 0, 0, 0, 0, 0, 0] 0) (id)).cop 0 0).freeAt), operand (blkF [3, 0, 0, 0, 256, 1024, 1536, 0, 0, 0, 0, 0, 0, 0, 0, 0] 0) (arg (blk [3, 0, 0, 0, 256, 1024, 1536, 0, 0, 0, 0, 0, 0, 0, 0, 0]) 0 (lxLen (blk [3, 0, 0, 0, 256, 1024, 1536, 0, 0, 0, 0, 0, 0, 0, 0, 0])) false), operand (blkF [3, 0, 0, 0, 256, 1024, 1536, 0, 0, 0, 0, 0, 0, 0, 0, 0] 0) (arg (blk [3, 0, 0, 0, 256, 1024, 1536, 0, 0, 0, 0, 0, 0, 0, 0, 0]) 1 (lxLen (blk [3, 0, 0, 0, 256, 1024, 1536, 0, 0, 0, 0, 0, 0, 0, 0, 0])) false), copNext_of (by decide) (by decide) (by decide) (by decide), by decide, polyOf_small (by decide) (by decide), polyOf_small (by decide) (by decide), copMay_of rfl rfl (by decide)⟩

theorem wit_polynomialCommandsComplete_4 : ∃ (c : ClusterId) (k : CopCmd) (b : List Byte) (s : State) (s1 : State) (p : List Byte) (q : List Byte), (s.copNext s1 c.val 0 0x04 k b) ∧ (blkVar b < 2) ∧ (∀ x ∈ polyOf p, x < (ringOf (blkVar b)).q) ∧ (∀ x ∈ polyOf q, x < (ringOf (blkVar b)).q) ∧ (s1.copMay c.val 0 k [arg b 0 (lxLen b) false, arg b 1 (lxLen b) false] [arg b 2 (lxLen b) false] [p, q]) :=
  ⟨0, cmd 0, blk [4, 0, 0, 0, 256, 1024, 1536, 0, 0, 0, 0, 0, 0, 0, 0, 0], copZ 0 (blkF [4, 0, 0, 0, 256, 1024, 1536, 0, 0, 0, 0, 0, 0, 0, 0, 0] 0) (id), (copZ 0 (blkF [4, 0, 0, 0, 256, 1024, 1536, 0, 0, 0, 0, 0, 0, 0, 0, 0] 0) (id)).upToCyc (max 9 ((copZ 0 (blkF [4, 0, 0, 0, 256, 1024, 1536, 0, 0, 0, 0, 0, 0, 0, 0, 0] 0) (id)).cop 0 0).freeAt), operand (blkF [4, 0, 0, 0, 256, 1024, 1536, 0, 0, 0, 0, 0, 0, 0, 0, 0] 0) (arg (blk [4, 0, 0, 0, 256, 1024, 1536, 0, 0, 0, 0, 0, 0, 0, 0, 0]) 0 (lxLen (blk [4, 0, 0, 0, 256, 1024, 1536, 0, 0, 0, 0, 0, 0, 0, 0, 0])) false), operand (blkF [4, 0, 0, 0, 256, 1024, 1536, 0, 0, 0, 0, 0, 0, 0, 0, 0] 0) (arg (blk [4, 0, 0, 0, 256, 1024, 1536, 0, 0, 0, 0, 0, 0, 0, 0, 0]) 1 (lxLen (blk [4, 0, 0, 0, 256, 1024, 1536, 0, 0, 0, 0, 0, 0, 0, 0, 0])) false), copNext_of (by decide) (by decide) (by decide) (by decide), by decide, polyOf_small (by decide) (by decide), polyOf_small (by decide) (by decide), copMay_of rfl rfl (by decide)⟩

theorem wit_polynomialCommandsComplete_5 : ∃ (c : ClusterId) (k : CopCmd) (b : List Byte) (s : State) (s1 : State) (p : List Byte) (q : List Byte), (s.copNext s1 c.val 0 0x05 k b) ∧ (blkVar b < 2) ∧ (∀ x ∈ polyOf p, x < (ringOf (blkVar b)).q) ∧ (∀ x ∈ polyOf q, x < (ringOf (blkVar b)).q) ∧ (s1.copMay c.val 0 k [arg b 0 (lxLen b) false, arg b 1 (lxLen b) false] [arg b 2 (lxLen b) false] [p, q]) :=
  ⟨0, cmd 0, blk [5, 0, 0, 0, 256, 1024, 1536, 0, 0, 0, 0, 0, 0, 0, 0, 0], copZ 0 (blkF [5, 0, 0, 0, 256, 1024, 1536, 0, 0, 0, 0, 0, 0, 0, 0, 0] 0) (id), (copZ 0 (blkF [5, 0, 0, 0, 256, 1024, 1536, 0, 0, 0, 0, 0, 0, 0, 0, 0] 0) (id)).upToCyc (max 9 ((copZ 0 (blkF [5, 0, 0, 0, 256, 1024, 1536, 0, 0, 0, 0, 0, 0, 0, 0, 0] 0) (id)).cop 0 0).freeAt), operand (blkF [5, 0, 0, 0, 256, 1024, 1536, 0, 0, 0, 0, 0, 0, 0, 0, 0] 0) (arg (blk [5, 0, 0, 0, 256, 1024, 1536, 0, 0, 0, 0, 0, 0, 0, 0, 0]) 0 (lxLen (blk [5, 0, 0, 0, 256, 1024, 1536, 0, 0, 0, 0, 0, 0, 0, 0, 0])) false), operand (blkF [5, 0, 0, 0, 256, 1024, 1536, 0, 0, 0, 0, 0, 0, 0, 0, 0] 0) (arg (blk [5, 0, 0, 0, 256, 1024, 1536, 0, 0, 0, 0, 0, 0, 0, 0, 0]) 1 (lxLen (blk [5, 0, 0, 0, 256, 1024, 1536, 0, 0, 0, 0, 0, 0, 0, 0, 0])) false), copNext_of (by decide) (by decide) (by decide) (by decide), by decide, polyOf_small (by decide) (by decide), polyOf_small (by decide) (by decide), copMay_of rfl rfl (by decide)⟩

theorem wit_polynomialCommandsComplete_6 : ∃ (c : ClusterId) (k : CopCmd) (b : List Byte) (s : State) (s1 : State), (s.copNext s1 c.val 0 0x01 k b) ∧ (2 ≤ blkVar b) :=
  ⟨0, cmd 0, blk [513, 0, 0, 0, 256, 1024, 0, 0, 0, 0, 0, 0, 0, 0, 0, 0], copZ 0 (blkF [513, 0, 0, 0, 256, 1024, 0, 0, 0, 0, 0, 0, 0, 0, 0, 0] 0) (id), (copZ 0 (blkF [513, 0, 0, 0, 256, 1024, 0, 0, 0, 0, 0, 0, 0, 0, 0, 0] 0) (id)).upToCyc (max 9 ((copZ 0 (blkF [513, 0, 0, 0, 256, 1024, 0, 0, 0, 0, 0, 0, 0, 0, 0, 0] 0) (id)).cop 0 0).freeAt), copNext_of (by decide) (by decide) (by decide) (by decide), by decide⟩

theorem wit_polynomialCommandsComplete_7 : ∃ (c : ClusterId) (k : CopCmd) (b : List Byte) (s : State) (s1 : State), (s.copNext s1 c.val 0 0x04 k b) ∧ (blkVar b < 2) ∧ ((arg b 2 (lxLen b) false).ok = false) :=
  ⟨0, cmd 0, blk [4, 0, 0, 0, 256, 1024, 1540, 0, 0, 0, 0, 0, 0, 0, 0, 0], copZ 0 (blkF [4, 0, 0, 0, 256, 1024, 1540, 0, 0, 0, 0, 0, 0, 0, 0, 0] 0) (id), (copZ 0 (blkF [4, 0, 0, 0, 256, 1024, 1540, 0, 0, 0, 0, 0, 0, 0, 0, 0] 0) (id)).upToCyc (max 9 ((copZ 0 (blkF [4, 0, 0, 0, 256, 1024, 1540, 0, 0, 0, 0, 0, 0, 0, 0, 0] 0) (id)).cop 0 0).freeAt), copNext_of (by decide) (by decide) (by decide) (by decide), by decide⟩

theorem wit_polynomialCommandsComplete_8 : ∃ (c : ClusterId) (k : CopCmd) (b : List Byte) (s : State) (s1 : State) (p : List Byte), (s.copNext s1 c.val 0 0x01 k b) ∧ (blkVar b < 2) ∧ (∃ x ∈ polyOf p, (ringOf (blkVar b)).q ≤ x) ∧ (s1.copMay c.val 0 k [arg b 0 (lxLen b) false] [arg b 1 (lxLen b) false] [p]) :=
  ⟨0, cmd 0, blk [1, 0, 0, 0, 256, 1024, 0, 0, 0, 0, 0, 0, 0, 0, 0, 0], copZ 0 (blkF [1, 0, 0, 0, 256, 1024, 0, 0, 0, 0, 0, 0, 0, 0, 0, 0] 255) (id), (copZ 0 (blkF [1, 0, 0, 0, 256, 1024, 0, 0, 0, 0, 0, 0, 0, 0, 0, 0] 255) (id)).upToCyc (max 9 ((copZ 0 (blkF [1, 0, 0, 0, 256, 1024, 0, 0, 0, 0, 0, 0, 0, 0, 0, 0] 255) (id)).cop 0 0).freeAt), operand (blkF [1, 0, 0, 0, 256, 1024, 0, 0, 0, 0, 0, 0, 0, 0, 0, 0] 255) (arg (blk [1, 0, 0, 0, 256, 1024, 0, 0, 0, 0, 0, 0, 0, 0, 0, 0]) 0 (lxLen (blk [1, 0, 0, 0, 256, 1024, 0, 0, 0, 0, 0, 0, 0, 0, 0, 0])) false), copNext_of (by decide) (by decide) (by decide) (by decide), by decide, by rw [operand_const (by decide)]; exact polyOf_big (by decide) (by decide), copMay_of rfl rfl (by decide)⟩

theorem wit_latticeSchemeCommandsComplete_1 : ∃ (c : ClusterId) (k : CopCmd) (b : List Byte) (s : State) (s1 : State) (p : List Byte), (s.copNext s1 c.val 0 0x10 k b) ∧ (s1.copMay c.val 0 k [arg b 0 64 true] [arg b 1 1568 false, arg b 2 3168 true] [p]) :=
  ⟨0, cmd 0, blk [16, 0, 0, 0, 0xC8000, 1024, 0xC8800, 0, 0, 0, 0, 0, 0, 0, 0, 0], copZ 0 (blkF [16, 0, 0, 0, 0xC8000, 1024, 0xC8800, 0, 0, 0, 0, 0, 0, 0, 0, 0] 0) (id), (copZ 0 (blkF [16, 0, 0, 0, 0xC8000, 1024, 0xC8800, 0, 0, 0, 0, 0, 0, 0, 0, 0] 0) (id)).upToCyc (max 9 ((copZ 0 (blkF [16, 0, 0, 0, 0xC8000, 1024, 0xC8800, 0, 0, 0, 0, 0, 0, 0, 0, 0] 0) (id)).cop 0 0).freeAt), operand (blkF [16, 0, 0, 0, 0xC8000, 1024, 0xC8800, 0, 0, 0, 0, 0, 0, 0, 0, 0] 0) (arg (blk [16, 0, 0, 0, 0xC8000, 1024, 0xC8800, 0, 0, 0, 0, 0, 0, 0, 0, 0]) 0 64 true), copNext_of (by decide) (by decide) (by decide) (by decide), copMay_of rfl rfl (by decide)⟩

theorem wit_latticeSchemeCommandsComplete_2 : ∃ (c : ClusterId) (k : CopCmd) (b : List Byte) (s : State) (s1 : State) (p : List Byte) (q : List Byte), (s.copNext s1 c.val 0 0x11 k b) ∧ (kemEkOk p = true) ∧ (s1.copMay c.val 0 k [arg b 0 1568 false, arg b 1 32 true] [arg b 2 1568 false, arg b 3 32 true] [p, q]) :=
  ⟨0, cmd 0, blk [17, 0, 0, 0, 256, 0xC8000, 2048, 0xC8800, 0, 0, 0, 0, 0, 0, 0, 0], copZ 0 (blkF [17, 0, 0, 0, 256, 0xC8000, 2048, 0xC8800, 0, 0, 0, 0, 0, 0, 0, 0] 0) (id), (copZ 0 (blkF [17, 0, 0, 0, 256, 0xC8000, 2048, 0xC8800, 0, 0, 0, 0, 0, 0, 0, 0] 0) (id)).upToCyc (max 9 ((copZ 0 (blkF [17, 0, 0, 0, 256, 0xC8000, 2048, 0xC8800, 0, 0, 0, 0, 0, 0, 0, 0] 0) (id)).cop 0 0).freeAt), operand (blkF [17, 0, 0, 0, 256, 0xC8000, 2048, 0xC8800, 0, 0, 0, 0, 0, 0, 0, 0] 0) (arg (blk [17, 0, 0, 0, 256, 0xC8000, 2048, 0xC8800, 0, 0, 0, 0, 0, 0, 0, 0]) 0 1568 false), operand (blkF [17, 0, 0, 0, 256, 0xC8000, 2048, 0xC8800, 0, 0, 0, 0, 0, 0, 0, 0] 0) (arg (blk [17, 0, 0, 0, 256, 0xC8000, 2048, 0xC8800, 0, 0, 0, 0, 0, 0, 0, 0]) 1 32 true), copNext_of (by decide) (by decide) (by decide) (by decide), kemEkOk_zero (operand_zero (by decide)), copMay_of rfl rfl (by decide)⟩

theorem wit_latticeSchemeCommandsComplete_3 : ∃ (c : ClusterId) (k : CopCmd) (b : List Byte) (s : State) (s1 : State) (p : List Byte) (q : List Byte), (s.copNext s1 c.val 0 0x11 k b) ∧ (kemEkOk p = false) ∧ (s1.copMay c.val 0 k [arg b 0 1568 false, arg b 1 32 true] [arg b 2 1568 false, arg b 3 32 true] [p, q]) :=
  ⟨0, cmd 0, blk [17, 0, 0, 0, 256, 0xC8000, 2048, 0xC8800, 0, 0, 0, 0, 0, 0, 0, 0], copZ 0 (blkF [17, 0, 0, 0, 256, 0xC8000, 2048, 0xC8800, 0, 0, 0, 0, 0, 0, 0, 0] 255) (id), (copZ 0 (blkF [17, 0, 0, 0, 256, 0xC8000, 2048, 0xC8800, 0, 0, 0, 0, 0, 0, 0, 0] 255) (id)).upToCyc (max 9 ((copZ 0 (blkF [17, 0, 0, 0, 256, 0xC8000, 2048, 0xC8800, 0, 0, 0, 0, 0, 0, 0, 0] 255) (id)).cop 0 0).freeAt), operand (blkF [17, 0, 0, 0, 256, 0xC8000, 2048, 0xC8800, 0, 0, 0, 0, 0, 0, 0, 0] 255) (arg (blk [17, 0, 0, 0, 256, 0xC8000, 2048, 0xC8800, 0, 0, 0, 0, 0, 0, 0, 0]) 0 1568 false), operand (blkF [17, 0, 0, 0, 256, 0xC8000, 2048, 0xC8800, 0, 0, 0, 0, 0, 0, 0, 0] 255) (arg (blk [17, 0, 0, 0, 256, 0xC8000, 2048, 0xC8800, 0, 0, 0, 0, 0, 0, 0, 0]) 1 32 true), copNext_of (by decide) (by decide) (by decide) (by decide), by rw [operand_const (by decide)]; exact kemEkOk_big (by decide), copMay_of rfl rfl (by decide)⟩

theorem wit_latticeSchemeCommandsComplete_4 : ∃ (c : ClusterId) (k : CopCmd) (b : List Byte) (s : State) (s1 : State) (p : List Byte) (q : List Byte), (s.copNext s1 c.val 0 0x12 k b) ∧ (s1.copMay c.val 0 k [arg b 0 3168 true, arg b 1 1568 false] [arg b 2 32 true] [p, q]) :=
  ⟨0, cmd 0, blk [18, 0, 0, 0, 0xC8000, 256, 0xC8800, 0, 0, 0, 0, 0, 0, 0, 0, 0], copZ 0 (blkF [18, 0, 0, 0, 0xC8000, 256, 0xC8800, 0, 0, 0, 0, 0, 0, 0, 0, 0] 0) (id), (copZ 0 (blkF [18, 0, 0, 0, 0xC8000, 256, 0xC8800, 0, 0, 0, 0, 0, 0, 0, 0, 0] 0) (id)).upToCyc (max 9 ((copZ 0 (blkF [18, 0, 0, 0, 0xC8000, 256, 0xC8800, 0, 0, 0, 0, 0, 0, 0, 0, 0] 0) (id)).cop 0 0).freeAt), operand (blkF [18, 0, 0, 0, 0xC8000, 256, 0xC8800, 0, 0, 0, 0, 0, 0, 0, 0, 0] 0) (arg (blk [18, 0, 0, 0, 0xC8000, 256, 0xC8800, 0, 0, 0, 0, 0, 0, 0, 0, 0]) 0 3168 true), operand (blkF [18, 0, 0, 0, 0xC8000, 256, 0xC8800, 0, 0, 0, 0, 0, 0, 0, 0, 0] 0) (arg (blk [18, 0, 0, 0, 0xC8000, 256, 0xC8800, 0, 0, 0, 0, 0, 0, 0, 0, 0]) 1 1568 false), copNext_of (by decide) (by decide) (by decide) (by decide), copMay_of rfl rfl (by decide)⟩

theorem wit_latticeSchemeCommandsComplete_5 : ∃ (c : ClusterId) (k : CopCmd) (b : List Byte) (s : State) (s1 : State) (p : List Byte) (m : List Byte) (g : List Byte), (s.copNext s1 c.val 0 0x20 k b) ∧ (blkLen b 1 ≤ 65536) ∧ (blkLen2 b ≤ 1280) ∧ (s1.copMay c.val 0 k [arg b 0 1793 false, arg b 1 (blkLen b 1) false, arg b 2 (blkLen2 b) false] [] [p, m, g]) :=
  ⟨0, cmd 0, blk [32, 0, 0, 100, 256, 2048, 2304, 0, 0, 0, 1280, 1280, 0, 1280, 0, 0], copZ 0 (blkF [32, 0, 0, 100, 256, 2048, 2304, 0, 0, 0, 1280, 1280, 0, 1280, 0, 0] 0) (id), (copZ 0 (blkF [32, 0, 0, 100, 256, 2048, 2304, 0, 0, 0, 1280, 1280, 0, 1280, 0, 0] 0) (id)).upToCyc (max 9 ((copZ 0 (blkF [32, 0, 0, 100, 256, 2048, 2304, 0, 0, 0, 1280, 1280, 0, 1280, 0, 0] 0) (id)).cop 0 0).freeAt), operand (blkF [32, 0, 0, 100, 256, 2048, 2304, 0, 0, 0, 1280, 1280, 0, 1280, 0, 0] 0) (arg (blk [32, 0, 0, 100, 256, 2048, 2304, 0, 0, 0, 1280, 1280, 0, 1280, 0, 0]) 0 1793 false), operand (blkF [32, 0, 0, 100, 256, 2048, 2304, 0, 0, 0, 1280, 1280, 0, 1280, 0, 0] 0) (arg (blk [32, 0, 0, 100, 256, 2048, 2304, 0, 0, 0, 1280, 1280, 0, 1280, 0, 0]) 1 (blkLen (blk [32, 0, 0, 100, 256, 2048, 2304, 0, 0, 0, 1280, 1280, 0, 1280, 0, 0]) 1) false), operand (blkF [32, 0, 0, 100, 256, 2048, 2304, 0, 0, 0, 1280, 1280, 0, 1280, 0, 0] 0) (arg (blk [32, 0, 0, 100, 256, 2048, 2304, 0, 0, 0, 1280, 1280, 0, 1280, 0, 0]) 2 (blkLen2 (blk [32, 0, 0, 100, 256, 2048, 2304, 0, 0, 0, 1280, 1280, 0, 1280, 0, 0])) false), copNext_of (by decide) (by decide) (by decide) (by decide), by decide, Nat.le_of_eq (blkLen2_of (b := blk [32, 0, 0, 100, 256, 2048, 2304, 0, 0, 0, 1280, 1280, 0, 1280, 0, 0]) (n := 1280) (by decide) (by decide) (by decide)), copMay_of rfl rfl (by rw [blkLen2_of (b := blk [32, 0, 0, 100, 256, 2048, 2304, 0, 0, 0, 1280, 1280, 0, 1280, 0, 0]) (n := 1280) (by decide) (by decide) (by decide)]; decide)⟩

theorem wit_spongeCommandsComplete_1 : ∃ (c : ClusterId) (k : CopCmd) (b : List Byte) (s : State) (s1 : State), (s.copNext s1 c.val 1 0x01 k b) ∧ (blkVar b < 5) ∧ (s1.copMay c.val 1 k [] [] []) :=
  ⟨0, cmd 0, blk [769, 0, 0, 0, 0, 0, 0, 0, 0, 0, 0, 0, 0, 0, 0, 0], copZ 1 (blkF [769, 0, 0, 0, 0, 0, 0, 0, 0, 0, 0, 0, 0, 0, 0, 0] 0) (id), (copZ 1 (blkF [769, 0, 0, 0, 0, 0, 0, 0, 0, 0, 0, 0, 0, 0, 0, 0] 0) (id)).upToCyc (max 9 ((copZ 1 (blkF [769, 0, 0, 0, 0, 0, 0, 0, 0, 0, 0, 0, 0, 0, 0, 0] 0) (id)).cop 0 1).freeAt), copNext_of (by decide) (by decide) (by decide) (by decide), by decide, copMay_of rfl rfl (by decide)⟩

theorem wit_spongeCommandsComplete_2 : ∃ (c : ClusterId) (k : CopCmd) (b : List Byte) (s : State) (s1 : State) (p : List Byte) (r : List Byte × Nat × Nat), (s.copNext s1 c.val 1 0x02 k b) ∧ (blkLen b 0 ≤ 262144) ∧ ((s1.cop c.val 1).valid = true) ∧ (spSqueezed (s1.cop c.val 1).state = false) ∧ (r = spAbsorb (spRate (spAlg (s1.cop c.val 1).state)) ((s1.cop c.val 1).state.take 200) (spPos (s1.cop c.val 1).state) p) ∧ (s1.copMay c.val 1 k [arg b 0 (blkLen b 0) false] [] [p]) :=
  ⟨0, cmd 0, blk [2, 0, 200, 0, 256, 0, 0, 0, 0, 0, 0, 0, 0, 0, 0, 0], copZ 1 (blkF [2, 0, 200, 0, 256, 0, 0, 0, 0, 0, 0, 0, 0, 0, 0, 0] 0) (fun c => { c with valid := true, state := spState spZero 0 false 0 }), (copZ 1 (blkF [2, 0, 200, 0, 256, 0, 0, 0, 0, 0, 0, 0, 0, 0, 0, 0] 0) (fun c => { c with valid := true, state := spState spZero 0 false 0 })).upToCyc (max 9 ((copZ 1 (blkF [2, 0, 200, 0, 256, 0, 0, 0, 0, 0, 0, 0, 0, 0, 0, 0] 0) (fun c => { c with valid := true, state := spState spZero 0 false 0 })).cop 0 1).freeAt), operand (blkF [2, 0, 200, 0, 256, 0, 0, 0, 0, 0, 0, 0, 0, 0, 0, 0] 0) (arg (blk [2, 0, 200, 0, 256, 0, 0, 0, 0, 0, 0, 0, 0, 0, 0, 0]) 0 (blkLen (blk [2, 0, 200, 0, 256, 0, 0, 0, 0, 0, 0, 0, 0, 0, 0, 0]) 0) false), _, copNext_of (by decide) (by decide) (by decide) (by decide), by decide, by decide, by decide, rfl, copMay_of rfl rfl (by decide)⟩

theorem wit_spongeCommandsComplete_3 : ∃ (c : ClusterId) (k : CopCmd) (b : List Byte) (s : State) (s1 : State), (s.copNext s1 c.val 1 0x02 k b) ∧ (blkLen b 0 ≤ 262144) ∧ ((arg b 0 (blkLen b 0) false).ok = true) ∧ ((s1.cop c.val 1).valid = false) :=
  ⟨0, cmd 0, blk [2, 0, 200, 0, 256, 0, 0, 0, 0, 0, 0, 0, 0, 0, 0, 0], copZ 1 (blkF [2, 0, 200, 0, 256, 0, 0, 0, 0, 0, 0, 0, 0, 0, 0, 0] 0) (id), (copZ 1 (blkF [2, 0, 200, 0, 256, 0, 0, 0, 0, 0, 0, 0, 0, 0, 0, 0] 0) (id)).upToCyc (max 9 ((copZ 1 (blkF [2, 0, 200, 0, 256, 0, 0, 0, 0, 0, 0, 0, 0, 0, 0, 0] 0) (id)).cop 0 1).freeAt), copNext_of (by decide) (by decide) (by decide) (by decide), by decide⟩

theorem wit_spongeCommandsComplete_4 : ∃ (c : ClusterId) (k : CopCmd) (b : List Byte) (s : State) (s1 : State) (r : List Byte × List Byte × Nat × Nat), (s.copNext s1 c.val 1 0x03 k b) ∧ ((s1.cop c.val 1).valid = true) ∧ (spOutOk (spAlg (s1.cop c.val 1).state) (blkLen b 1) = true) ∧ (spSqueezed (s1.cop c.val 1).state = false) ∧ (r = spSqueeze (spRate (spAlg (s1.cop c.val 1).state)) (spPad (spAlg (s1.cop c.val 1).state) ((s1.cop c.val 1).state.take 200) (spPos (s1.cop c.val 1).state)) 0 (blkLen b 1)) ∧ (s1.copMay c.val 1 k [] [arg b 1 (blkLen b 1) false] []) :=
  ⟨0, cmd 0, blk [3, 0, 0, 300, 0, 1024, 0, 0, 0, 0, 0, 0, 0, 0, 0, 0], copZ 1 (blkF [3, 0, 0, 300, 0, 1024, 0, 0, 0, 0, 0, 0, 0, 0, 0, 0] 0) (fun c => { c with valid := true, state := spState spZero 3 false 0 }), (copZ 1 (blkF [3, 0, 0, 300, 0, 1024, 0, 0, 0, 0, 0, 0, 0, 0, 0, 0] 0) (fun c => { c with valid := true, state := spState spZero 3 false 0 })).upToCyc (max 9 ((copZ 1 (blkF [3, 0, 0, 300, 0, 1024, 0, 0, 0, 0, 0, 0, 0, 0, 0, 0] 0) (fun c => { c with valid := true, state := spState spZero 3 false 0 })).cop 0 1).freeAt), _, copNext_of (by decide) (by decide) (by decide) (by decide), by decide, by decide, by decide, rfl, copMay_of rfl rfl (by decide)⟩

theorem wit_spongeCommandsComplete_5 : ∃ (c : ClusterId) (k : CopCmd) (b : List Byte) (s : State) (s1 : State), (s.copNext s1 c.val 1 0x03 k b) ∧ ((s1.cop c.val 1).valid = true) ∧ (spOutOk (spAlg (s1.cop c.val 1).state) (blkLen b 1) = false) ∧ ((arg b 1 (blkLen b 1) false).ok = true) :=
  ⟨0, cmd 0, blk [3, 0, 0, 300, 0, 1024, 0, 0, 0, 0, 0, 0, 0, 0, 0, 0], copZ 1 (blkF [3, 0, 0, 300, 0, 1024, 0, 0, 0, 0, 0, 0, 0, 0, 0, 0] 0) (fun c => { c with valid := true, state := spState spZero 0 false 0 }), (copZ 1 (blkF [3, 0, 0, 300, 0, 1024, 0, 0, 0, 0, 0, 0, 0, 0, 0, 0] 0) (fun c => { c with valid := true, state := spState spZero 0 false 0 })).upToCyc (max 9 ((copZ 1 (blkF [3, 0, 0, 300, 0, 1024, 0, 0, 0, 0, 0, 0, 0, 0, 0, 0] 0) (fun c => { c with valid := true, state := spState spZero 0 false 0 })).cop 0 1).freeAt), copNext_of (by decide) (by decide) (by decide) (by decide), by decide⟩

theorem wit_spongeCommandsComplete_6 : ∃ (c : ClusterId) (k : CopCmd) (b : List Byte) (s : State) (s1 : State) (p : List Byte), (s.copNext s1 c.val 1 0x04 k b) ∧ (blkVar b < 5) ∧ (blkLen b 0 ≤ 262144) ∧ (spOutOk (blkVar b) (blkLen b 1) = true) ∧ (s1.copMay c.val 1 k [arg b 0 (blkLen b 0) false] [arg b 1 (blkLen b 1) false] [p]) :=
  ⟨0, cmd 0, blk [772, 0, 200, 300, 256, 1024, 0, 0, 0, 0, 0, 0, 0, 0, 0, 0], copZ 1 (blkF [772, 0, 200, 300, 256, 1024, 0, 0, 0, 0, 0, 0, 0, 0, 0, 0] 0) (id), (copZ 1 (blkF [772, 0, 200, 300, 256, 1024, 0, 0, 0, 0, 0, 0, 0, 0, 0, 0] 0) (id)).upToCyc (max 9 ((copZ 1 (blkF [772, 0, 200, 300, 256, 1024, 0, 0, 0, 0, 0, 0, 0, 0, 0, 0] 0) (id)).cop 0 1).freeAt), operand (blkF [772, 0, 200, 300, 256, 1024, 0, 0, 0, 0, 0, 0, 0, 0, 0, 0] 0) (arg (blk [772, 0, 200, 300, 256, 1024, 0, 0, 0, 0, 0, 0, 0, 0, 0, 0]) 0 (blkLen (blk [772, 0, 200, 300, 256, 1024, 0, 0, 0, 0, 0, 0, 0, 0, 0, 0]) 0) false), copNext_of (by decide) (by decide) (by decide) (by decide), by decide, by decide, by decide, copMay_of rfl rfl (by decide)⟩

theorem wit_spongeCommandsComplete_7 : ∃ (c : ClusterId) (k : CopCmd) (b : List Byte) (s : State) (s1 : State) (p : List Byte), (s.copNext s1 c.val 1 0x05 k b) ∧ (s1.copMay c.val 1 k [arg b 0 200 false] [arg b 1 200 false] [p]) :=
  ⟨0, cmd 0, blk [5, 0, 0, 0, 256, 1024, 0, 0, 0, 0, 0, 0, 0, 0, 0, 0], copZ 1 (blkF [5, 0, 0, 0, 256, 1024, 0, 0, 0, 0, 0, 0, 0, 0, 0, 0] 0) (id), (copZ 1 (blkF [5, 0, 0, 0, 256, 1024, 0, 0, 0, 0, 0, 0, 0, 0, 0, 0] 0) (id)).upToCyc (max 9 ((copZ 1 (blkF [5, 0, 0, 0, 256, 1024, 0, 0, 0, 0, 0, 0, 0, 0, 0, 0] 0) (id)).cop 0 1).freeAt), operand (blkF [5, 0, 0, 0, 256, 1024, 0, 0, 0, 0, 0, 0, 0, 0, 0, 0] 0) (arg (blk [5, 0, 0, 0, 256, 1024, 0, 0, 0, 0, 0, 0, 0, 0, 0, 0]) 0 200 false), copNext_of (by decide) (by decide) (by decide) (by decide), copMay_of rfl rfl (by decide)⟩

theorem wit_spongeCommandsComplete_8 : ∃ (c : ClusterId) (k : CopCmd) (b : List Byte) (s : State) (s1 : State), (s.copNext s1 c.val 1 0x06 k b) ∧ (blkLen b 1 = 32 ∨ blkLen b 1 = 64) ∧ ((arg b 1 (blkLen b 1) false).ok = true) ∧ (s1.rngFailed = false) :=
  ⟨0, cmd 0, blk [6, 0, 0, 64, 256, 1024, 0, 0, 0, 0, 0, 0, 0, 0, 0, 0], copZ 1 (blkF [6, 0, 0, 64, 256, 1024, 0, 0, 0, 0, 0, 0, 0, 0, 0, 0] 0) (id), (copZ 1 (blkF [6, 0, 0, 64, 256, 1024, 0, 0, 0, 0, 0, 0, 0, 0, 0, 0] 0) (id)).upToCyc (max 9 ((copZ 1 (blkF [6, 0, 0, 64, 256, 1024, 0, 0, 0, 0, 0, 0, 0, 0, 0, 0] 0) (id)).cop 0 1).freeAt), copNext_of (by decide) (by decide) (by decide) (by decide), by decide⟩

theorem wit_curveCommandsComplete_1 : ∃ (c : ClusterId) (k : CopCmd) (b : List Byte) (s : State) (s1 : State) (p : List Byte) (q : List Byte) (r : Nat), (s.copNext s1 c.val 2 0x01 k b) ∧ (blkVar b % 2 = 0) ∧ (r = x25519Fn (leNat p) (leNat q)) ∧ (s1.copMay c.val 2 k [arg b 0 32 true, arg b 1 32 false] [arg b 2 32 true] [p, q]) :=
  ⟨0, cmd 0, blk [1, 0, 0, 0, 0xC8000, 256, 0xC8800, 0, 0, 0, 0, 0, 0, 0, 0, 0], copZ 2 (blkF [1, 0, 0, 0, 0xC8000, 256, 0xC8800, 0, 0, 0, 0, 0, 0, 0, 0, 0] 0) (id), (copZ 2 (blkF [1, 0, 0, 0, 0xC8000, 256, 0xC8800, 0, 0, 0, 0, 0, 0, 0, 0, 0] 0) (id)).upToCyc (max 9 ((copZ 2 (blkF [1, 0, 0, 0, 0xC8000, 256, 0xC8800, 0, 0, 0, 0, 0, 0, 0, 0, 0] 0) (id)).cop 0 2).freeAt), operand (blkF [1, 0, 0, 0, 0xC8000, 256, 0xC8800, 0, 0, 0, 0, 0, 0, 0, 0, 0] 0) (arg (blk [1, 0, 0, 0, 0xC8000, 256, 0xC8800, 0, 0, 0, 0, 0, 0, 0, 0, 0]) 0 32 true), operand (blkF [1, 0, 0, 0, 0xC8000, 256, 0xC8800, 0, 0, 0, 0, 0, 0, 0, 0, 0] 0) (arg (blk [1, 0, 0, 0, 0xC8000, 256, 0xC8800, 0, 0, 0, 0, 0, 0, 0, 0, 0]) 1 32 false), _, copNext_of (by decide) (by decide) (by decide) (by decide), by decide, rfl, copMay_of rfl rfl (by decide)⟩

theorem wit_curveCommandsComplete_2 : ∃ (c : ClusterId) (k : CopCmd) (b : List Byte) (s : State) (s1 : State) (p : List Byte) (r : Nat), (s.copNext s1 c.val 2 0x01 k b) ∧ (blkVar b % 2 = 1) ∧ (r = x25519Fn (leNat p) 9) ∧ (s1.copMay c.val 2 k [arg b 0 32 true] [arg b 2 32 true] [p]) :=
  ⟨0, cmd 0, blk [257, 0, 0, 0, 0xC8000, 256, 0xC8800, 0, 0, 0, 0, 0, 0, 0, 0, 0], copZ 2 (blkF [257, 0, 0, 0, 0xC8000, 256, 0xC8800, 0, 0, 0, 0, 0, 0, 0, 0, 0] 0) (id), (copZ 2 (blkF [257, 0, 0, 0, 0xC8000, 256, 0xC8800, 0, 0, 0, 0, 0, 0, 0, 0, 0] 0) (id)).upToCyc (max 9 ((copZ 2 (blkF [257, 0, 0, 0, 0xC8000, 256, 0xC8800, 0, 0, 0, 0, 0, 0, 0, 0, 0] 0) (id)).cop 0 2).freeAt), operand (blkF [257, 0, 0, 0, 0xC8000, 256, 0xC8800, 0, 0, 0, 0, 0, 0, 0, 0, 0] 0) (arg (blk [257, 0, 0, 0, 0xC8000, 256, 0xC8800, 0, 0, 0, 0, 0, 0, 0, 0, 0]) 0 32 true), _, copNext_of (by decide) (by decide) (by decide) (by decide), by decide, rfl, copMay_of rfl rfl (by decide)⟩

theorem wit_curveCommandsComplete_3 : ∃ (c : ClusterId) (k : CopCmd) (b : List Byte) (s : State) (s1 : State), (s.copNext s1 c.val 2 0x01 k b) ∧ (blkVar b % 2 = 0) ∧ (∀ a ∈ [arg b 0 32 true, arg b 1 32 false, arg b 2 32 true], a.ok = true) ∧ (blkPtr b 0 < 0xC8000) :=
  ⟨0, cmd 0, blk [1, 0, 0, 0, 512, 256, 0xC8800, 0, 0, 0, 0, 0, 0, 0, 0, 0], copZ 2 (blkF [1, 0, 0, 0, 512, 256, 0xC8800, 0, 0, 0, 0, 0, 0, 0, 0, 0] 0) (id), (copZ 2 (blkF [1, 0, 0, 0, 512, 256, 0xC8800, 0, 0, 0, 0, 0, 0, 0, 0, 0] 0) (id)).upToCyc (max 9 ((copZ 2 (blkF [1, 0, 0, 0, 512, 256, 0xC8800, 0, 0, 0, 0, 0, 0, 0, 0, 0] 0) (id)).cop 0 2).freeAt), copNext_of (by decide) (by decide) (by decide) (by decide), by decide⟩

theorem wit_curveCommandsComplete_4 : ∃ (c : ClusterId) (k : CopCmd) (b : List Byte) (s : State) (s1 : State) (p : List Byte) (q : List Byte) (r : Nat × Nat), (s.copNext s1 c.val 2 0x02 k b) ∧ (blkVar b % 2 = 0) ∧ (p384On (leAt q 0 48) (leAt q 48 48) = true) ∧ (p384Mult (leNat p) (leAt q 0 48) (leAt q 48 48) = some r) ∧ (s1.copMay c.val 2 k [arg b 0 48 true, arg b 1 96 false] [arg b 2 96 true] [p, q]) :=
  ⟨0, cmd 0, blk [2, 0, 0, 0, 0xC8000, 256, 0xC8800, 0, 0, 0, 0, 0, 0, 0, 0, 0], copZ 2 (curveF [2, 0, 0, 0, 0xC8000, 256, 0xC8800, 0, 0, 0, 0, 0, 0, 0, 0, 0]) (id), (copZ 2 (curveF [2, 0, 0, 0, 0xC8000, 256, 0xC8800, 0, 0, 0, 0, 0, 0, 0, 0, 0]) (id)).upToCyc (max 9 ((copZ 2 (curveF [2, 0, 0, 0, 0xC8000, 256, 0xC8800, 0, 0, 0, 0, 0, 0, 0, 0, 0]) (id)).cop 0 2).freeAt), operand (curveF [2, 0, 0, 0, 0xC8000, 256, 0xC8800, 0, 0, 0, 0, 0, 0, 0, 0, 0]) (arg (blk [2, 0, 0, 0, 0xC8000, 256, 0xC8800, 0, 0, 0, 0, 0, 0, 0, 0, 0]) 0 48 true), operand (curveF [2, 0, 0, 0, 0xC8000, 256, 0xC8800, 0, 0, 0, 0, 0, 0, 0, 0, 0]) (arg (blk [2, 0, 0, 0, 0xC8000, 256, 0xC8800, 0, 0, 0, 0, 0, 0, 0, 0, 0]) 1 96 false), p384G, copNext_of (by decide) (by decide) (by decide) (by decide), by decide, by decide +kernel, by decide +kernel, copMay_of rfl rfl (by decide)⟩

theorem wit_curveCommandsComplete_5 : ∃ (c : ClusterId) (k : CopCmd) (b : List Byte) (s : State) (s1 : State) (p : List Byte) (q : List Byte), (s.copNext s1 c.val 2 0x02 k b) ∧ (blkVar b % 2 = 0) ∧ (p384On (leAt q 0 48) (leAt q 48 48) = false) ∧ (s1.copMay c.val 2 k [arg b 0 48 true, arg b 1 96 false] [arg b 2 96 true] [p, q]) :=
  ⟨0, cmd 0, blk [2, 0, 0, 0, 0xC8000, 256, 0xC8800, 0, 0, 0, 0, 0, 0, 0, 0, 0], copZ 2 (blkF [2, 0, 0, 0, 0xC8000, 256, 0xC8800, 0, 0, 0, 0, 0, 0, 0, 0, 0] 0) (id), (copZ 2 (blkF [2, 0, 0, 0, 0xC8000, 256, 0xC8800, 0, 0, 0, 0, 0, 0, 0, 0, 0] 0) (id)).upToCyc (max 9 ((copZ 2 (blkF [2, 0, 0, 0, 0xC8000, 256, 0xC8800, 0, 0, 0, 0, 0, 0, 0, 0, 0] 0) (id)).cop 0 2).freeAt), operand (blkF [2, 0, 0, 0, 0xC8000, 256, 0xC8800, 0, 0, 0, 0, 0, 0, 0, 0, 0] 0) (arg (blk [2, 0, 0, 0, 0xC8000, 256, 0xC8800, 0, 0, 0, 0, 0, 0, 0, 0, 0]) 0 48 true), operand (blkF [2, 0, 0, 0, 0xC8000, 256, 0xC8800, 0, 0, 0, 0, 0, 0, 0, 0, 0] 0) (arg (blk [2, 0, 0, 0, 0xC8000, 256, 0xC8800, 0, 0, 0, 0, 0, 0, 0, 0, 0]) 1 96 false), copNext_of (by decide) (by decide) (by decide) (by decide), by decide, by decide, copMay_of rfl rfl (by decide)⟩

theorem wit_curveCommandsComplete_6 : ∃ (c : ClusterId) (k : CopCmd) (b : List Byte) (s : State) (s1 : State) (p : List Byte) (q : List Byte), (s.copNext s1 c.val 2 0x10 k b) ∧ (s1.copMay c.val 2 k [arg b 0 (ecBytes (blkVar b)) false, arg b 1 (ecBytes (blkVar b)) false] [arg b 2 (ecBytes (blkVar b)) false] [p, q]) :=
  ⟨0, cmd 0, blk [16, 0, 0, 0, 256, 512, 768, 0, 0, 0, 0, 0, 0, 0, 0, 0], copZ 2 (blkF [16, 0, 0, 0, 256, 512, 768, 0, 0, 0, 0, 0, 0, 0, 0, 0] 7) (id), (copZ 2 (blkF [16, 0, 0, 0, 256, 512, 768, 0, 0, 0, 0, 0, 0, 0, 0, 0] 7) (id)).upToCyc (max 9 ((copZ 2 (blkF [16, 0, 0, 0, 256, 512, 768, 0, 0, 0, 0, 0, 0, 0, 0, 0] 7) (id)).cop 0 2).freeAt), operand (blkF [16, 0, 0, 0, 256, 512, 768, 0, 0, 0, 0, 0, 0, 0, 0, 0] 7) (arg (blk [16, 0, 0, 0, 256, 512, 768, 0, 0, 0, 0, 0, 0, 0, 0, 0]) 0 (ecBytes (blkVar (blk [16, 0, 0, 0, 256, 512, 768, 0, 0, 0, 0, 0, 0, 0, 0, 0]))) false), operand (blkF [16, 0, 0, 0, 256, 512, 768, 0, 0, 0, 0, 0, 0, 0, 0, 0] 7) (arg (blk [16, 0, 0, 0, 256, 512, 768, 0, 0, 0, 0, 0, 0, 0, 0, 0]) 1 (ecBytes (blkVar (blk [16, 0, 0, 0, 256, 512, 768, 0, 0, 0, 0, 0, 0, 0, 0, 0]))) false), copNext_of (by decide) (by decide) (by decide) (by decide), copMay_of rfl rfl (by decide)⟩

theorem wit_curveCommandsComplete_7 : ∃ (c : ClusterId) (k : CopCmd) (b : List Byte) (s : State) (s1 : State) (p : List Byte) (q : List Byte), (s.copNext s1 c.val 2 0x11 k b) ∧ (s1.copMay c.val 2 k [arg b 0 (ecBytes (blkVar b)) false, arg b 1 (ecBytes (blkVar b)) false] [arg b 2 (ecBytes (blkVar b)) false] [p, q]) :=
  ⟨0, cmd 0, blk [273, 0, 0, 0, 256, 512, 768, 0, 0, 0, 0, 0, 0, 0, 0, 0], copZ 2 (blkF [273, 0, 0, 0, 256, 512, 768, 0, 0, 0, 0, 0, 0, 0, 0, 0] 7) (id), (copZ 2 (blkF [273, 0, 0, 0, 256, 512, 768, 0, 0, 0, 0, 0, 0, 0, 0, 0] 7) (id)).upToCyc (max 9 ((copZ 2 (blkF [273, 0, 0, 0, 256, 512, 768, 0, 0, 0, 0, 0, 0, 0, 0, 0] 7) (id)).cop 0 2).freeAt), operand (blkF [273, 0, 0, 0, 256, 512, 768, 0, 0, 0, 0, 0, 0, 0, 0, 0] 7) (arg (blk [273, 0, 0, 0, 256, 512, 768, 0, 0, 0, 0, 0, 0, 0, 0, 0]) 0 (ecBytes (blkVar (blk [273, 0, 0, 0, 256, 512, 768, 0, 0, 0, 0, 0, 0, 0, 0, 0]))) false), operand (blkF [273, 0, 0, 0, 256, 512, 768, 0, 0, 0, 0, 0, 0, 0, 0, 0] 7) (arg (blk [273, 0, 0, 0, 256, 512, 768, 0, 0, 0, 0, 0, 0, 0, 0, 0]) 1 (ecBytes (blkVar (blk [273, 0, 0, 0, 256, 512, 768, 0, 0, 0, 0, 0, 0, 0, 0, 0]))) false), copNext_of (by decide) (by decide) (by decide) (by decide), copMay_of rfl rfl (by decide)⟩

theorem wit_curveCommandsComplete_8 : ∃ (c : ClusterId) (k : CopCmd) (b : List Byte) (s : State) (s1 : State) (p : List Byte) (q : List Byte), (s.copNext s1 c.val 2 0x12 k b) ∧ (s1.copMay c.val 2 k [arg b 0 (ecBytes (blkVar b)) false, arg b 1 (ecBytes (blkVar b)) false] [arg b 2 (ecBytes (blkVar b)) false] [p, q]) :=
  ⟨0, cmd 0, blk [18, 0, 0, 0, 256, 512, 768, 0, 0, 0, 0, 0, 0, 0, 0, 0], copZ 2 (blkF [18, 0, 0, 0, 256, 512, 768, 0, 0, 0, 0, 0, 0, 0, 0, 0] 7) (id), (copZ 2 (blkF [18, 0, 0, 0, 256, 512, 768, 0, 0, 0, 0, 0, 0, 0, 0, 0] 7) (id)).upToCyc (max 9 ((copZ 2 (blkF [18, 0, 0, 0, 256, 512, 768, 0, 0, 0, 0, 0, 0, 0, 0, 0] 7) (id)).cop 0 2).freeAt), operand (blkF [18, 0, 0, 0, 256, 512, 768, 0, 0, 0, 0, 0, 0, 0, 0, 0] 7) (arg (blk [18, 0, 0, 0, 256, 512, 768, 0, 0, 0, 0, 0, 0, 0, 0, 0]) 0 (ecBytes (blkVar (blk [18, 0, 0, 0, 256, 512, 768, 0, 0, 0, 0, 0, 0, 0, 0, 0]))) false), operand (blkF [18, 0, 0, 0, 256, 512, 768, 0, 0, 0, 0, 0, 0, 0, 0, 0] 7) (arg (blk [18, 0, 0, 0, 256, 512, 768, 0, 0, 0, 0, 0, 0, 0, 0, 0]) 1 (ecBytes (blkVar (blk [18, 0, 0, 0, 256, 512, 768, 0, 0, 0, 0, 0, 0, 0, 0, 0]))) false), copNext_of (by decide) (by decide) (by decide) (by decide), copMay_of rfl rfl (by decide)⟩

theorem wit_curveCommandsComplete_9 : ∃ (c : ClusterId) (k : CopCmd) (b : List Byte) (s : State) (s1 : State) (p : List Byte), (s.copNext s1 c.val 2 0x13 k b) ∧ (leNat p % ecPrime (blkVar b) ≠ 0) ∧ (s1.copMay c.val 2 k [arg b 0 (ecBytes (blkVar b)) false] [arg b 1 (ecBytes (blkVar b)) false] [p]) :=
  ⟨0, cmd 0, blk [19, 0, 0, 0, 256, 512, 0, 0, 0, 0, 0, 0, 0, 0, 0, 0], copZ 2 (blkF [19, 0, 0, 0, 256, 512, 0, 0, 0, 0, 0, 0, 0, 0, 0, 0] 7) (id), (copZ 2 (blkF [19, 0, 0, 0, 256, 512, 0, 0, 0, 0, 0, 0, 0, 0, 0, 0] 7) (id)).upToCyc (max 9 ((copZ 2 (blkF [19, 0, 0, 0, 256, 512, 0, 0, 0, 0, 0, 0, 0, 0, 0, 0] 7) (id)).cop 0 2).freeAt), operand (blkF [19, 0, 0, 0, 256, 512, 0, 0, 0, 0, 0, 0, 0, 0, 0, 0] 7) (arg (blk [19, 0, 0, 0, 256, 512, 0, 0, 0, 0, 0, 0, 0, 0, 0, 0]) 0 (ecBytes (blkVar (blk [19, 0, 0, 0, 256, 512, 0, 0, 0, 0, 0, 0, 0, 0, 0, 0]))) false), copNext_of (by decide) (by decide) (by decide) (by decide), by decide, copMay_of rfl rfl (by decide)⟩

theorem wit_keyWrapCommandsComplete_1 : ∃ (c : ClusterId) (k : CopCmd) (b : List Byte) (s : State) (s1 : State) (p : List Byte), (s.copNext s1 c.val 3 0x01 k b) ∧ (blkLen b 0 = 16 ∨ blkLen b 0 = 32) ∧ (s1.copMay c.val 3 k [arg b 0 (blkLen b 0) true] [] [p]) :=
  ⟨0, cmd 0, blk [1, 0, 16, 0, 0xC8000, 0, 0, 0, 0, 0, 0, 0, 0, 0, 0, 0], copZ 3 (blkF [1, 0, 16, 0, 0xC8000, 0, 0, 0, 0, 0, 0, 0, 0, 0, 0, 0] 0) (id), (copZ 3 (blkF [1, 0, 16, 0, 0xC8000, 0, 0, 0, 0, 0, 0, 0, 0, 0, 0, 0] 0) (id)).upToCyc (max 9 ((copZ 3 (blkF [1, 0, 16, 0, 0xC8000, 0, 0, 0, 0, 0, 0, 0, 0, 0, 0, 0] 0) (id)).cop 0 3).freeAt), operand (blkF [1, 0, 16, 0, 0xC8000, 0, 0, 0, 0, 0, 0, 0, 0, 0, 0, 0] 0) (arg (blk [1, 0, 16, 0, 0xC8000, 0, 0, 0, 0, 0, 0, 0, 0, 0, 0, 0]) 0 (blkLen (blk [1, 0, 16, 0, 0xC8000, 0, 0, 0, 0, 0, 0, 0, 0, 0, 0, 0]) 0) true), copNext_of (by decide) (by decide) (by decide) (by decide), by decide, copMay_of rfl rfl (by decide)⟩

theorem wit_keyWrapCommandsComplete_2 : ∃ (c : ClusterId) (k : CopCmd) (b : List Byte) (s : State) (s1 : State) (p : List Byte), (s.copNext s1 c.val 3 0x02 k b) ∧ (blkVar b = 0) ∧ (blkLen b 0 % 8 = 0) ∧ (16 ≤ blkLen b 0) ∧ ((s1.kekOf c.val b) ≠ []) ∧ (s1.copMay c.val 3 k [arg b 0 (blkLen b 0) true] [arg b 1 ((blkLen b 0 + 15) / 8 * 8) false] [p]) :=
  ⟨0, cmd 0, blk [2, 0, 16, 0, 0xC8000, 256, 0, 0, 0, 0, 0, 0, 0, 0, 0, 0], copZ 3 (blkF [2, 0, 16, 0, 0xC8000, 256, 0, 0, 0, 0, 0, 0, 0, 0, 0, 0] 0) (id), (copZ 3 (blkF [2, 0, 16, 0, 0xC8000, 256, 0, 0, 0, 0, 0, 0, 0, 0, 0, 0] 0) (id)).upToCyc (max 9 ((copZ 3 (blkF [2, 0, 16, 0, 0xC8000, 256, 0, 0, 0, 0, 0, 0, 0, 0, 0, 0] 0) (id)).cop 0 3).freeAt), operand (blkF [2, 0, 16, 0, 0xC8000, 256, 0, 0, 0, 0, 0, 0, 0, 0, 0, 0] 0) (arg (blk [2, 0, 16, 0, 0xC8000, 256, 0, 0, 0, 0, 0, 0, 0, 0, 0, 0]) 0 (blkLen (blk [2, 0, 16, 0, 0xC8000, 256, 0, 0, 0, 0, 0, 0, 0, 0, 0, 0]) 0) true), copNext_of (by decide) (by decide) (by decide) (by decide), by decide, by decide, by decide, by decide, copMay_of rfl rfl (by decide)⟩

theorem wit_keyWrapCommandsComplete_3 : ∃ (c : ClusterId) (k : CopCmd) (b : List Byte) (s : State) (s1 : State) (p : List Byte), (s.copNext s1 c.val 3 0x02 k b) ∧ (blkVar b = 1) ∧ (1 ≤ blkLen b 0) ∧ (blkLen b 0 ≤ 512) ∧ ((s1.kekOf c.val b) ≠ []) ∧ (s1.copMay c.val 3 k [arg b 0 (blkLen b 0) true] [arg b 1 ((blkLen b 0 + 15) / 8 * 8) false] [p]) :=
  ⟨0, cmd 0, blk [258, 0, 7, 0, 0xC8000, 256, 0, 0, 0, 0, 0, 0, 0, 0, 0, 0], copZ 3 (blkF [258, 0, 7, 0, 0xC8000, 256, 0, 0, 0, 0, 0, 0, 0, 0, 0, 0] 0) (id), (copZ 3 (blkF [258, 0, 7, 0, 0xC8000, 256, 0, 0, 0, 0, 0, 0, 0, 0, 0, 0] 0) (id)).upToCyc (max 9 ((copZ 3 (blkF [258, 0, 7, 0, 0xC8000, 256, 0, 0, 0, 0, 0, 0, 0, 0, 0, 0] 0) (id)).cop 0 3).freeAt), operand (blkF [258, 0, 7, 0, 0xC8000, 256, 0, 0, 0, 0, 0, 0, 0, 0, 0, 0] 0) (arg (blk [258, 0, 7, 0, 0xC8000, 256, 0, 0, 0, 0, 0, 0, 0, 0, 0, 0]) 0 (blkLen (blk [258, 0, 7, 0, 0xC8000, 256, 0, 0, 0, 0, 0, 0, 0, 0, 0, 0]) 0) true), copNext_of (by decide) (by decide) (by decide) (by decide), by decide, by decide, by decide, by decide, copMay_of rfl rfl (by decide)⟩

theorem wit_keyWrapCommandsComplete_4 : ∃ (c : ClusterId) (k : CopCmd) (b : List Byte) (s : State) (s1 : State), (s.copNext s1 c.val 3 0x02 k b) ∧ (blkVar b = 1) ∧ (1 ≤ blkLen b 0) ∧ (blkLen b 0 ≤ 512) ∧ (∀ a ∈ [arg b 0 (blkLen b 0) true, arg b 1 ((blkLen b 0 + 15) / 8 * 8) false], a.ok = true ∧ a.keyOk = true) ∧ ((s1.kekOf c.val b) = []) :=
  ⟨0, cmd 0, blk [258, 0, 7, 0, 0xC8000, 256, 0, 0, 0, 0, 1, 0, 0, 0, 0, 0], copZ 3 (blkF [258, 0, 7, 0, 0xC8000, 256, 0, 0, 0, 0, 1, 0, 0, 0, 0, 0] 0) (id), (copZ 3 (blkF [258, 0, 7, 0, 0xC8000, 256, 0, 0, 0, 0, 1, 0, 0, 0, 0, 0] 0) (id)).upToCyc (max 9 ((copZ 3 (blkF [258, 0, 7, 0, 0xC8000, 256, 0, 0, 0, 0, 1, 0, 0, 0, 0, 0] 0) (id)).cop 0 3).freeAt), copNext_of (by decide) (by decide) (by decide) (by decide), by decide⟩

theorem wit_keyWrapCommandsComplete_8 : ∃ (c : ClusterId) (k : CopCmd) (b : List Byte) (s : State) (s1 : State) (p : List Byte) (q : List Byte), (s.copNext s1 c.val 3 0x05 k b) ∧ (ownKey b = false) ∧ ((s1.cop c.val 3).valid = true) ∧ (s1.copMay c.val 3 k [arg b 0 12 false, arg b 1 (blkLen b 1) false] [arg b 2 16 false] [p, q]) :=
  ⟨0, cmd 0, blk [5, 0, 0, 20, 256, 512, 768, 0, 0, 0, 0, 0, 0, 0, 0, 0], copZ 3 (blkF [5, 0, 0, 20, 256, 512, 768, 0, 0, 0, 0, 0, 0, 0, 0, 0] 0) (fun c => { c with valid := true, state := (List.range 16).map (BitVec.ofNat 8) }), (copZ 3 (blkF [5, 0, 0, 20, 256, 512, 768, 0, 0, 0, 0, 0, 0, 0, 0, 0] 0) (fun c => { c with valid := true, state := (List.range 16).map (BitVec.ofNat 8) })).upToCyc (max 9 ((copZ 3 (blkF [5, 0, 0, 20, 256, 512, 768, 0, 0, 0, 0, 0, 0, 0, 0, 0] 0) (fun c => { c with valid := true, state := (List.range 16).map (BitVec.ofNat 8) })).cop 0 3).freeAt), operand (blkF [5, 0, 0, 20, 256, 512, 768, 0, 0, 0, 0, 0, 0, 0, 0, 0] 0) (arg (blk [5, 0, 0, 20, 256, 512, 768, 0, 0, 0, 0, 0, 0, 0, 0, 0]) 0 12 false), operand (blkF [5, 0, 0, 20, 256, 512, 768, 0, 0, 0, 0, 0, 0, 0, 0, 0] 0) (arg (blk [5, 0, 0, 20, 256, 512, 768, 0, 0, 0, 0, 0, 0, 0, 0, 0]) 1 (blkLen (blk [5, 0, 0, 20, 256, 512, 768, 0, 0, 0, 0, 0, 0, 0, 0, 0]) 1) false), copNext_of (by decide) (by decide) (by decide) (by decide), by decide, by decide, copMay_of rfl rfl (by decide)⟩

theorem wit_keyWrapCommandsComplete_9 : ∃ (c : ClusterId) (k : CopCmd) (b : List Byte) (s : State) (s1 : State) (p : List Byte) (q : List Byte) (key : List Byte), (s.copNext s1 c.val 3 0x05 k b) ∧ (ownKey b = true) ∧ (blkLen2 b = 16 ∨ blkLen2 b = 32) ∧ (s1.copMay c.val 3 k [arg b 0 12 false, arg b 1 (blkLen b 1) false, arg b 3 (blkLen2 b) true] [arg b 2 16 false] [p, q, key]) :=
  ⟨0, cmd 0, blk [5, 0, 0, 20, 256, 512, 768, 0xC8000, 0, 0, 16, 16, 1, 16, 0, 0], copZ 3 (blkF [5, 0, 0, 20, 256, 512, 768, 0xC8000, 0, 0, 16, 16, 1, 16, 0, 0] 0) (id), (copZ 3 (blkF [5, 0, 0, 20, 256, 512, 768, 0xC8000, 0, 0, 16, 16, 1, 16, 0, 0] 0) (id)).upToCyc (max 9 ((copZ 3 (blkF [5, 0, 0, 20, 256, 512, 768, 0xC8000, 0, 0, 16, 16, 1, 16, 0, 0] 0) (id)).cop 0 3).freeAt), operand (blkF [5, 0, 0, 20, 256, 512, 768, 0xC8000, 0, 0, 16, 16, 1, 16, 0, 0] 0) (arg (blk [5, 0, 0, 20, 256, 512, 768, 0xC8000, 0, 0, 16, 16, 1, 16, 0, 0]) 0 12 false), operand (blkF [5, 0, 0, 20, 256, 512, 768, 0xC8000, 0, 0, 16, 16, 1, 16, 0, 0] 0) (arg (blk [5, 0, 0, 20, 256, 512, 768, 0xC8000, 0, 0, 16, 16, 1, 16, 0, 0]) 1 (blkLen (blk [5, 0, 0, 20, 256, 512, 768, 0xC8000, 0, 0, 16, 16, 1, 16, 0, 0]) 1) false), operand (blkF [5, 0, 0, 20, 256, 512, 768, 0xC8000, 0, 0, 16, 16, 1, 16, 0, 0] 0) (arg (blk [5, 0, 0, 20, 256, 512, 768, 0xC8000, 0, 0, 16, 16, 1, 16, 0, 0]) 3 (blkLen2 (blk [5, 0, 0, 20, 256, 512, 768, 0xC8000, 0, 0, 16, 16, 1, 16, 0, 0])) true), copNext_of (by decide) (by decide) (by decide) (by decide), by decide, .inl (blkLen2_of (b := blk [5, 0, 0, 20, 256, 512, 768, 0xC8000, 0, 0, 16, 16, 1, 16, 0, 0]) (n := 16) (by decide) (by decide) (by decide)), copMay_of rfl rfl (by rw [blkLen2_of (b := blk [5, 0, 0, 20, 256, 512, 768, 0xC8000, 0, 0, 16, 16, 1, 16, 0, 0]) (n := 16) (by decide) (by decide) (by decide)]; decide)⟩

theorem wit_keyWrapCommandsComplete_10 : ∃ (c : ClusterId) (k : CopCmd) (b : List Byte) (s : State) (s1 : State) (p : List Byte), (s.copNext s1 c.val 3 0x06 k b) ∧ (ownKey b = false) ∧ ((s1.cop c.val 3).valid = true) ∧ (s1.copMay c.val 3 k [arg b 0 16 false] [arg b 1 16 false] [p]) :=
  ⟨0, cmd 0, blk [262, 0, 0, 0, 256, 512, 0, 0, 0, 0, 0, 0, 0, 0, 0, 0], copZ 3 (blkF [262, 0, 0, 0, 256, 512, 0, 0, 0, 0, 0, 0, 0, 0, 0, 0] 0) (fun c => { c with valid := true, state := (List.range 16).map (BitVec.ofNat 8) }), (copZ 3 (blkF [262, 0, 0, 0, 256, 512, 0, 0, 0, 0, 0, 0, 0, 0, 0, 0] 0) (fun c => { c with valid := true, state := (List.range 16).map (BitVec.ofNat 8) })).upToCyc (max 9 ((copZ 3 (blkF [262, 0, 0, 0, 256, 512, 0, 0, 0, 0, 0, 0, 0, 0, 0, 0] 0) (fun c => { c with valid := true, state := (List.range 16).map (BitVec.ofNat 8) })).cop 0 3).freeAt), operand (blkF [262, 0, 0, 0, 256, 512, 0, 0, 0, 0, 0, 0, 0, 0, 0, 0] 0) (arg (blk [262, 0, 0, 0, 256, 512, 0, 0, 0, 0, 0, 0, 0, 0, 0, 0]) 0 16 false), copNext_of (by decide) (by decide) (by decide) (by decide), by decide, by decide, copMay_of rfl rfl (by decide)⟩

theorem wit_keyWrapCommandsComplete_11 : ∃ (c : ClusterId) (k : CopCmd) (b : List Byte) (s : State) (s1 : State) (p : List Byte) (key : List Byte), (s.copNext s1 c.val 3 0x06 k b) ∧ (ownKey b = true) ∧ (blkLen2 b = 16 ∨ blkLen2 b = 32) ∧ (s1.copMay c.val 3 k [arg b 0 16 false, arg b 3 (blkLen2 b) true] [arg b 1 16 false] [p, key]) :=
  ⟨0, cmd 0, blk [6, 0, 0, 0, 256, 512, 0, 0xC8000, 0, 0, 16, 16, 1, 16, 0, 0], copZ 3 (blkF [6, 0, 0, 0, 256, 512, 0, 0xC8000, 0, 0, 16, 16, 1, 16, 0, 0] 0) (id), (copZ 3 (blkF [6, 0, 0, 0, 256, 512, 0, 0xC8000, 0, 0, 16, 16, 1, 16, 0, 0] 0) (id)).upToCyc (max 9 ((copZ 3 (blkF [6, 0, 0, 0, 256, 512, 0, 0xC8000, 0, 0, 16, 16, 1, 16, 0, 0] 0) (id)).cop 0 3).freeAt), operand (blkF [6, 0, 0, 0, 256, 512, 0, 0xC8000, 0, 0, 16, 16, 1, 16, 0, 0] 0) (arg (blk [6, 0, 0, 0, 256, 512, 0, 0xC8000, 0, 0, 16, 16, 1, 16, 0, 0]) 0 16 false), operand (blkF [6, 0, 0, 0, 256, 512, 0, 0xC8000, 0, 0, 16, 16, 1, 16, 0, 0] 0) (arg (blk [6, 0, 0, 0, 256, 512, 0, 0xC8000, 0, 0, 16, 16, 1, 16, 0, 0]) 3 (blkLen2 (blk [6, 0, 0, 0, 256, 512, 0, 0xC8000, 0, 0, 16, 16, 1, 16, 0, 0])) true), copNext_of (by decide) (by decide) (by decide) (by decide), by decide, .inl (blkLen2_of (b := blk [6, 0, 0, 0, 256, 512, 0, 0xC8000, 0, 0, 16, 16, 1, 16, 0, 0]) (n := 16) (by decide) (by decide) (by decide)), copMay_of rfl rfl (by rw [blkLen2_of (b := blk [6, 0, 0, 0, 256, 512, 0, 0xC8000, 0, 0, 16, 16, 1, 16, 0, 0]) (n := 16) (by decide) (by decide) (by decide)]; decide)⟩

theorem wit_coprocessorContextCommandsComplete_1 : ∃ (c : ClusterId) (n : Fin 4) (k : CopCmd) (s : State) (s1 : State), ((s.cop c.val n.val).run = none) ∧ ((s.cop c.val n.val).queue.head? = some k) ∧ (k.kind = 1) ∧ (s1 = s.upToCyc (max k.at_ (s.cop c.val n.val).freeAt)) ∧ ((saveArg n.val k.ptr).ok = true) ∧ ((saveArg n.val k.ptr).keyOk = true) ∧ (s.rb (ra (cluPage c.val 4) 0x110) n.val = false) :=
  ⟨0, 0, { cmd 1 with ptr := 0x100 }, { z with cops := [(0, { Cop.idle with queue := [{ cmd 1 with ptr := 0x100 }], state := [1, 2, 3], valid := true })] }, ({ z with cops := [(0, { Cop.idle with queue := [{ cmd 1 with ptr := 0x100 }], state := [1, 2, 3], valid := true })] }).upToCyc 9, by decide⟩

theorem wit_coprocessorContextCommandsComplete_4 : ∃ (c : ClusterId) (n : Fin 4) (r : CopRun) (o : Nat) (b : List Byte) (s : State), ((s.cop c.val n.val).run = some r) ∧ (r.writes = [(o, b)]) ∧ (r.vault = none) ∧ (r.cmd.kind = 0) ∧ (r.cmd.gone = false) ∧ (r.code < 256) ∧ ((s.clu? c.val).collides r.due o b.length = false) ∧ ((s.clu? c.val).collides r.due (r.cmd.ptr + 4) 4 = false) ∧ (∀ a ∈ (s.clu? c.val).acc, a.g ≤ r.due) ∧ (∀ a ∈ (s.clu? c.val).bacc, a.g ≤ r.due) ∧ (∀ m, m < 4 → ∀ k ∈ (s.cop c.val m).head?, (s.upToCyc r.due).cyc < (s.cop c.val m).fetchAt k) ∧ (s.cmemMergeOk c.val o b.length = true) ∧ ((s.cmemPut c.val o b).cmemMergeOk c.val (r.cmd.ptr + 4) 4 = true) ∧ ((s.th r.cmd.thread).st = .running) ∧ (r.cmd.sb < 16) :=
  ⟨0, 0, crun, 8, [1, 2, 3, 4, 5, 6, 7, 8], { (z.modTh 8 fun x => { x with st := .running, sbOwned := 8 }) with cops := [(0, { Cop.idle with run := some crun })], cmem := { cells := (List.range 16).map fun i => (i, 0), poison := [], hurt := [] } }, by decide⟩

theorem wit_coprocessorContextCommandsComplete_5 : ∃ (c : ClusterId) (n : Fin 4) (r : CopRun) (s : State), ((s.cop c.val n.val).run = some r) ∧ (r.writes = []) ∧ (r.vault = none) ∧ (r.cmd.kind = 0) ∧ (r.cmd.gone = false) ∧ (r.code < 256) ∧ ((s.clu? c.val).collides r.due (r.cmd.ptr + 4) 4 = true) ∧ (∀ a ∈ (s.clu? c.val).acc, a.g ≤ r.due) ∧ (∀ a ∈ (s.clu? c.val).bacc, a.g ≤ r.due) ∧ (∀ m, m < 4 → ∀ k ∈ (s.cop c.val m).head?, (s.upToCyc r.due).cyc < (s.cop c.val m).fetchAt k) :=
  ⟨0, 0, { crun with writes := [] }, { ((z.modTh 8 fun x => { x with st := .running, sbOwned := 8 }).setClu 0 fun k => { k with acc := [{ g := 70, thread := 0, at_ := 0, x := 5, addr := 4, data := 7, done := true, old := Arr.empty, logged := false }] }) with cops := [(0, { Cop.idle with run := some { crun with writes := [] } })] }, by decide⟩

theorem wit_coprocessorContextCommandsComplete_6 : ∃ (c : ClusterId) (n : Fin 4) (r : CopRun) (s : State), ((s.cop c.val n.val).run = some r) ∧ (r.cmd.gone = true) ∧ (∀ a ∈ (s.clu? c.val).acc, a.g ≤ r.due) ∧ (∀ a ∈ (s.clu? c.val).bacc, a.g ≤ r.due) ∧ (∀ m, m < 4 → ∀ k ∈ (s.cop c.val m).head?, (s.upToCyc r.due).cyc < (s.cop c.val m).fetchAt k) :=
  ⟨0, 0, { crun with cmd := { cmd 0 with gone := true } }, { (z.modTh 8 fun x => { x with st := .running }) with cops := [(0, { Cop.idle with run := some { crun with cmd := { cmd 0 with gone := true } } })] }, by decide⟩

theorem wit_tellerStagingComplete_1 : ∃ (r : RegionId) (e : Stage) (q : List Stage) (s : State), (∀ x ∈ (s.teller r.val).stage, 1 ≤ x.op ∧ x.op ≤ 5) ∧ ((s.teller r.val).stage.length < 64) ∧ ((s.teller r.val).dues = e :: q) ∧ (e.thread = none) :=
  ⟨0, stg 2, [stg 3], telZ fun k => { k with dues := [stg 2, stg 3], stage := [stg 1] }, by decide +kernel⟩

theorem wit_tellerStagingComplete_2 : ∃ (r : RegionId) (i : Nat) (s : State), (∀ x ∈ (s.teller r.val).stage, 1 ≤ x.op ∧ x.op ≤ 5) ∧ ((s.teller r.val).stage.length < 64) ∧ ((s.teller r.val).dues = []) ∧ (s.bindPend r.val = some i) :=
  ⟨0, 77, (telZ fun k => { k with stage := [stg 1] }).setRb (aTel 0 (0x800 + 4 * 77)) 30 true, by decide +kernel⟩

theorem wit_tellerStagingComplete_3 : ∃ (r : RegionId) (cons : Nat) (n : Nat) (a : Nat) (b : List Byte) (p : Bool) (s : State), (∀ x ∈ (s.teller r.val).stage, 1 ≤ x.op ∧ x.op ≤ 5) ∧ ((s.teller r.val).stage.length < 64) ∧ ((s.teller r.val).dues = []) ∧ (s.bindPend r.val = none) ∧ (cons = s.rf (aTel r.val 0x120) 15 0) ∧ (n = s.rf (aTel r.val 0x118) 4 0) ∧ (s.rf (aTel r.val 0x11C) 15 0 % 2 ^ n ≠ cons % 2 ^ n) ∧ (n ≤ 16) ∧ (a = s.rf (aTel r.val 0x110) 31 12 * 4096 + (s.reg (aTel r.val 0x114)).toNat * 2 ^ 32 + 4 * (cons % 2 ^ n)) ∧ (s.dramRead a 4 = (b, p, s)) :=
  ⟨0, 0, 4, 0x1000, [9, 0, 0x50, 0x20], false, dramW 0x1000 [0x20500009, 0] (((z.setRf (aTel 0 0x118) 4 0 4).setRf (aTel 0 0x11C) 15 0 1).setReg (aTel 0 0x110) 0x1000), by decide +kernel⟩

theorem wit_tellerStagingComplete_4 : ∃ (r : RegionId) (n : Nat) (e : Stage) (a : List Stage) (q : List Stage) (t : Nat) (sb : Nat) (s : State), (∀ x ∈ (s.teller r.val).stage, 1 ≤ x.op ∧ x.op ≤ 5) ∧ ((s.teller r.val).stage.length < 64) ∧ ((s.teller r.val).dues = []) ∧ (s.bindPend r.val = none) ∧ (n = s.rf (aTel r.val 0x118) 4 0) ∧ (s.rf (aTel r.val 0x11C) 15 0 % 2 ^ n = s.rf (aTel r.val 0x120) 15 0 % 2 ^ n) ∧ ((s.teller r.val).waiting = a ++ e :: q) ∧ (e.thread = some (t, sb)) ∧ (sb < 16) ∧ (∀ x ∈ a, ∃ k, x.thread = some k ∧ rotRank 32 (t / 8) s.cyc < rotRank 32 (k.1 / 8) s.cyc) ∧ (∀ x ∈ q, ∃ k, x.thread = some k ∧ rotRank 32 (t / 8) s.cyc ≤ rotRank 32 (k.1 / 8) s.cyc) :=
  ⟨0, 0, { stg 2 with thread := some (8, 3) }, [], [{ stg 1 with thread := some (9, 4) }], 8, 3, (telZ fun k => { k with waiting := [{ stg 2 with thread := some (8, 3) }, { stg 1 with thread := some (9, 4) }] }).modTh 8 fun x => { x with sbOwned := 8 }, by decide +kernel, by decide +kernel, by rfl, by decide +kernel, by decide +kernel, by decide +kernel, by rfl, by decide +kernel, by decide +kernel, fun _ h => absurd h (List.not_mem_nil), List.forall_mem_singleton.2 ⟨(9, 4), rfl, Nat.le_refl _⟩⟩

theorem wit_tellerStagingComplete_6 : ∃ (r : RegionId) (i : Fin 512) (s : State), (s.rb (aTel r.val (0x800 + 4 * i.val)) 31 = true) :=
  ⟨0, 5, z.setRb (aTel 0 (0x800 + 4 * 5)) 31 true, by decide +kernel⟩

theorem wit_tellerStagingComplete_7 : ∃ (r : RegionId) (i : Fin 512) (s : State), (s.rb (aTel r.val (0x800 + 4 * i.val)) 31 = false) :=
  ⟨0, 5, z, by decide +kernel⟩

theorem wit_tellerStagingComplete_8 : ∃ (r : RegionId) (n : Nat) (x : Tcb) (s : State) (v : State), (v = s.upToCyc (roundCeil s.cycCeil)) ∧ ((r.val * 4096 + n, x) ∈ s.tcbs) ∧ (n < 4096) ∧ (x.state = 3) ∧ (x.deadline ≠ 0) ∧ (x.deadline ≤ v.tb) ∧ (∀ d ∈ (s.teller r.val).dues, ¬(d.tcb = n ∧ d.reason = 3)) :=
  ⟨0, 9, { Tcb.fresh with ctrl := 0x300000, deadline := 1 }, { z with now := 100000000, tcbs := [(9, { Tcb.fresh with ctrl := 0x300000, deadline := 1 })] }, _, rfl, by decide +kernel⟩

theorem wit_tellerCommandsComplete_1 : ∃ (r : RegionId) (e : Stage) (q : List Stage) (b : List Byte) (s : State) (v : State) (w : State), ((s.teller r.val).stage = e :: q) ∧ (e.op = 1) ∧ (v = s.setTeller r.val (fun k => { k with stage := q })) ∧ (v.dramRead (v.tcbAddr r.val e.tcb 0) 8 = (b, false, w)) ∧ ((s.tcb r.val e.tcb).state = 0 ∨ (s.tcb r.val e.tcb).state = 4 ∨ (s.tcb r.val e.tcb).state = 5) ∧ (bit (leWord b) 31 = true) ∧ (fld (leWord b) 23 20 = 0) :=
  ⟨0, stg 1, [stg 2], [0, 0, 0, 0x85, 0, 0, 1, 0], State.setTeller (dramW 4608 [0x85000000, 0x10000] z) 0 fun k => { k with stage := [{ stg 1 with aux := 0 }, stg 2] }, _, (State.setTeller (dramW 4608 [0x85000000, 0x10000] z) 0 fun k => { k with stage := [{ stg 1 with aux := 0 }, stg 2] }).setTeller 0 fun k => { k with stage := [stg 2] }, by decide, by decide, rfl, by rfl, by decide⟩

theorem wit_tellerCommandsComplete_2 : ∃ (r : RegionId) (e : Stage) (q : List Stage) (b : List Byte) (p : Bool) (s : State) (v : State) (w : State), ((s.teller r.val).stage = e :: q) ∧ (e.op = 1) ∧ (v = s.setTeller r.val (fun k => { k with stage := q })) ∧ (v.dramRead (v.tcbAddr r.val e.tcb 0) 8 = (b, p, w)) ∧ ((s.tcb r.val e.tcb).state = 1 ∨ (s.tcb r.val e.tcb).state = 2 ∨ (s.tcb r.val e.tcb).state = 3 ∨ bit (leWord b) 31 = false ∨ fld (leWord b) 23 20 ≠ 0) :=
  ⟨0, stg 1, [stg 2], [0, 0, 0, 0x85, 0, 0, 1, 0], false, State.setTeller (dramW 4608 [0x85000000, 0x10000] (withTcb 9 0x05300000 0 z)) 0 fun k => { k with stage := [{ stg 1 with aux := 0 }, stg 2] }, _, (State.setTeller (dramW 4608 [0x85000000, 0x10000] (withTcb 9 0x05300000 0 z)) 0 fun k => { k with stage := [{ stg 1 with aux := 0 }, stg 2] }).setTeller 0 fun k => { k with stage := [stg 2] }, by decide, by decide, rfl, by rfl, by decide⟩

theorem wit_tellerCommandsComplete_3 : ∃ (r : RegionId) (e : Stage) (q : List Stage) (x : Tcb) (p : Nat) (s : State), ((s.teller r.val).stage = e :: q) ∧ (e.op = 2) ∧ (x = s.tcb r.val e.tcb) ∧ (x.state = 3) ∧ (p = x.newPrio.getD x.prio) ∧ (p < 64) :=
  ⟨0, stg 2, [stg 2], _, _, State.setTeller (withTcb 9 0x05300000 0 z) 0 fun k => { k with stage := [{ stg 2 with aux := 0 }, stg 2] }, by decide, by decide, rfl, by decide, rfl, by decide⟩

theorem wit_tellerCommandsComplete_4 : ∃ (r : RegionId) (e : Stage) (q : List Stage) (s : State), ((s.teller r.val).stage = e :: q) ∧ (e.op = 2) ∧ ((s.tcb r.val e.tcb).state = 0 ∨ 3 < (s.tcb r.val e.tcb).state) :=
  ⟨0, stg 2, [stg 2], State.setTeller (withTcb 9 0x05400000 0 z) 0 fun k => { k with stage := [{ stg 2 with aux := 0 }, stg 2] }, by decide⟩

theorem wit_tellerCommandsComplete_5 : ∃ (r : RegionId) (e : Stage) (q : List Stage) (s : State), ((s.teller r.val).stage = e :: q) ∧ (e.op = 2) ∧ ((s.tcb r.val e.tcb).state = 1 ∨ (s.tcb r.val e.tcb).state = 2) :=
  ⟨0, stg 2, [stg 2], State.setTeller (withTcb 9 0x05200000 0 z) 0 fun k => { k with stage := [{ stg 2 with aux := 0 }, stg 2] }, by decide⟩

theorem wit_tellerCommandsComplete_6 : ∃ (r : RegionId) (e : Stage) (q : List Stage) (t : Nat) (n : Nat) (s : State), ((s.teller r.val).stage = e :: q) ∧ (e.op = 3) ∧ (e.own = some n) ∧ ((s.tcb r.val n).state = 2) ∧ ((s.tcb r.val n).ctx = some t) ∧ (s.hasKid t = false) ∧ ((s.tcb r.val n).wakePend = false) :=
  ⟨0, { stg 3 with own := some 9 }, [stg 2], 8, 9, State.setTeller ({ (z.modTh 8 fun x => { x with tcb := some 9, st := .running }) with tcbs := [(9, { Tcb.fresh with ctrl := 0x07200000, ctx := some 8 })] }) 0 fun k => { k with stage := [{ stg 3 with own := some 9 }, stg 2] }, by decide⟩

theorem wit_tellerCommandsComplete_7 : ∃ (r : RegionId) (e : Stage) (q : List Stage) (t : Nat) (n : Nat) (s : State), ((s.teller r.val).stage = e :: q) ∧ (e.op = 3) ∧ (e.own = some n) ∧ (((s.tcb r.val n).state = 2 ∧ (s.tcb r.val n).ctx = some t ∧ s.hasKid t = false) ∨ (s.tcb r.val n).state = 1) ∧ ((s.tcb r.val n).wakePend = true) :=
  ⟨0, { stg 3 with own := some 9 }, [stg 2], 8, 9, State.setTeller ({ (z.modTh 8 fun x => { x with tcb := some 9, st := .running }) with tcbs := [(9, { Tcb.fresh with ctrl := 0x47200000, ctx := some 8 })] }) 0 fun k => { k with stage := [{ stg 3 with own := some 9 }, stg 2] }, by decide⟩

theorem wit_tellerCommandsComplete_8 : ∃ (r : RegionId) (e : Stage) (q : List Stage) (n : Nat) (b : List Byte) (p : Bool) (s : State) (v : State) (w : State), ((s.teller r.val).stage = e :: q) ∧ (e.op = 3) ∧ (e.own = some n) ∧ ((s.tcb r.val n).state = 1) ∧ ((s.tcb r.val n).wakePend = false) ∧ (v = (s.setTeller r.val fun k => { k with stage := q }).setTeller r.val (fun k => { k with ready := k.ready.filter (fun e => e.2 ≠ n), noPlace := k.noPlace.filter (· ≠ n) })) ∧ (v.dramRead (v.tcbAddr r.val n 8) 8 = (b, p, w)) :=
  ⟨0, { stg 3 with own := some 9 }, [stg 2], 9, [7, 0, 0, 0, 8, 0, 0, 0], false, State.setTeller (dramW 4608 [0x85000000, 0x10000, 7, 8] (withTcb 9 0x07100000 0 z)) 0 fun k => { k with stage := [{ stg 3 with own := some 9 }, stg 2] }, _, ((State.setTeller (dramW 4608 [0x85000000, 0x10000, 7, 8] (withTcb 9 0x07100000 0 z)) 0 fun k => { k with stage := [{ stg 3 with own := some 9 }, stg 2] }).setTeller 0 fun k => { k with stage := [stg 2] }).setTeller 0 (fun k => { k with ready := k.ready.filter (fun e => e.2 ≠ 9), noPlace := k.noPlace.filter (· ≠ 9) }), by decide, by decide, by decide, by decide, by decide, rfl, by rfl⟩

theorem wit_tellerCommandsComplete_9 : ∃ (r : RegionId) (e : Stage) (q : List Stage) (n : Nat) (s : State), ((s.teller r.val).stage = e :: q) ∧ (e.op = 3) ∧ (e.own = some n) ∧ ((s.tcb r.val n).state = 0 ∨ 3 ≤ (s.tcb r.val n).state ∨ ((s.tcb r.val n).state = 2 ∧ ∀ t ∈ (s.tcb r.val n).ctx, s.hasKid t = true)) :=
  ⟨0, { stg 3 with own := some 9 }, [stg 2], 9, State.setTeller (z) 0 fun k => { k with stage := [{ stg 3 with own := some 9 }, stg 2] }, by decide⟩

theorem wit_tellerCommandsComplete_10 : ∃ (r : RegionId) (e : Stage) (q : List Stage) (s : State), ((s.teller r.val).stage = e :: q) ∧ (e.op = 3) ∧ (e.own = none) :=
  ⟨0, stg 3, [stg 2], State.setTeller (z) 0 fun k => { k with stage := [{ stg 3 with aux := 0 }, stg 2] }, by decide⟩

theorem wit_tellerCommandsComplete_11 : ∃ (r : RegionId) (e : Stage) (q : List Stage) (s : State), ((s.teller r.val).stage = e :: q) ∧ (e.op = 4) ∧ (e.prio < 64) ∧ ((s.tcb r.val e.tcb).state = 1) :=
  ⟨0, stg 4, [stg 2], (State.setTeller (withTcb 9 0x07100000 0 z) 0 fun k => { k with stage := [stg 4, stg 2], ready := [(7, 9), (8, 10)] }), by decide⟩

theorem wit_tellerCommandsComplete_12 : ∃ (r : RegionId) (e : Stage) (q : List Stage) (s : State), ((s.teller r.val).stage = e :: q) ∧ (e.op = 4) ∧ ((s.tcb r.val e.tcb).state = 2 ∨ (s.tcb r.val e.tcb).state = 3) :=
  ⟨0, stg 4, [stg 2], (State.setTeller (withTcb 9 0x07200000 0 z) 0 fun k => { k with stage := [stg 4, stg 2] }), by decide⟩

theorem wit_tellerCommandsComplete_13 : ∃ (r : RegionId) (e : Stage) (q : List Stage) (s : State), ((s.teller r.val).stage = e :: q) ∧ (e.op = 5) ∧ ((s.tcb r.val e.tcb).state = 1 ∨ (s.tcb r.val e.tcb).state = 3) :=
  ⟨0, stg 5, [stg 2], (State.setTeller (withTcb 9 0x07100000 0 z) 0 fun k => { k with stage := [stg 5, stg 2], ready := [(7, 9), (8, 10)] }), by decide⟩

theorem wit_tellerCommandsComplete_14 : ∃ (r : RegionId) (e : Stage) (q : List Stage) (t : Nat) (s : State), ((s.teller r.val).stage = e :: q) ∧ (e.op = 5) ∧ ((s.tcb r.val e.tcb).state = 2) ∧ ((s.tcb r.val e.tcb).ctx = some t) ∧ (rgnOf t = r.val) ∧ (tFind (s.teller r.val).restore t = none) ∧ ((s.th t).st ≠ .resetting) ∧ ((s.th t).st ≠ .idle) :=
  ⟨0, stg 5, [stg 2], 8, State.setTeller ({ (z.modTh 8 fun x => { x with tcb := some 9, st := .running }) with tcbs := [(9, { Tcb.fresh with ctrl := 0x07200000, ctx := some 8 })] }) 0 fun k => { k with stage := [{ stg 5 with aux := 0 }, stg 2] }, by decide⟩

theorem wit_tellerCommandsComplete_15 : ∃ (r : RegionId) (e : Stage) (q : List Stage) (t : Nat) (s : State), ((s.teller r.val).stage = e :: q) ∧ (e.op = 5) ∧ ((s.tcb r.val e.tcb).state = 2) ∧ ((s.tcb r.val e.tcb).ctx = some t) ∧ (tFind (s.teller r.val).restore t = some e.tcb) :=
  ⟨0, stg 5, [stg 2], 8, State.setTeller ({ z with tcbs := [(9, { Tcb.fresh with ctrl := 0x07200000, ctx := some 8 })] }) 0 fun k => { k with restore := [(8, 9)], stage := [stg 5, stg 2] }, by decide⟩

theorem wit_tellerDispatchComplete_2 : ∃ (r : RegionId) (p : Nat) (n : Nat) (t : Nat) (why : Nat) (s : State), (s.readyHead r.val = some (p, n)) ∧ (s.findPlace r.val (s.tcb r.val n).place = some (t, why)) :=
  ⟨0, 5, 9, 0, 9, State.setTeller (withTcb 9 0x05100000 0x10000 z) 0 fun k => { k with ready := [(5, 9)] }, by decide⟩

theorem wit_tellerDispatchComplete_3 : ∃ (r : RegionId) (p : Nat) (n : Nat) (t : Nat) (s : State), (s.readyHead r.val = some (p, n)) ∧ (s.findPlace r.val (s.tcb r.val n).place = none) ∧ (s.preempting r.val n = false) ∧ (pickVictim (s.victims r.val p (s.allowed r.val (s.tcb r.val n).place)) = some t) :=
  ⟨0, 5, 9, 0, State.setTeller (busyZ z) 0 fun k => { k with ready := [(5, 9)] }, by decide⟩

theorem wit_tellerDispatchComplete_4 : ∃ (r : RegionId) (p : Nat) (n : Nat) (s : State), (s.readyHead r.val = some (p, n)) ∧ (s.findPlace r.val (s.tcb r.val n).place = none) ∧ (s.preempting r.val n = true ∨ s.victims r.val p (s.allowed r.val (s.tcb r.val n).place) = []) :=
  ⟨0, 5, 9, State.setTeller ({ busyZ z with tcbs := [(7, { Tcb.fresh with ctrl := 0x01200001 }), (9, { Tcb.fresh with ctrl := 0x05100000, place := 0x10000 })] }) 0 fun k => { k with ready := [(5, 9)] }, by decide⟩

theorem wit_tellerDispatchComplete_5 : ∃ (r : RegionId) (e : Nat × Nat) (s : State), (s.heads r.val = [e]) ∧ (s.placeless r.val e = true) ∧ ((s.teller r.val).noPlace.contains e.2 = false) :=
  ⟨0, (5, 9), State.setTeller (withTcb 9 0x05100000 0x8000 z) 0 fun k => { k with ready := [(5, 9)] }, by decide⟩

theorem wit_tellerDispatchComplete_6 : ∃ (s : State) (v : State), (v = s.upToCyc (roundCeil s.cycCeil)) :=
  ⟨State.setTeller (busyZ { z with now := 100000000 }) 0 fun k => { k with ready := [(30, 9)] }, _, rfl⟩

theorem wit_tellerDispatchComplete_9 : ∃ (t : ThreadId) (r : Nat) (n : Nat) (k : Nat) (m : Nat) (p : Nat) (s : State), (r = rgnOf t.val) ∧ ((s.th t.val).saveReq = some (k, m)) ∧ (k ≠ 3) ∧ ((s.th t.val).tcb = some n) ∧ ((s.th t.val).sbOwned = 0) ∧ (k = 4 ∨ s.hasKid t.val = false) ∧ ((s.th t.val).lateTrap = []) ∧ (k = 0 → m ≠ n ∧ (s.tcb r m).state ≠ 1) ∧ (p = (s.tcb r n).newPrio.getD (s.tcb r n).prio) ∧ (p < 64) :=
  ⟨8, 0, 9, 1, 0, _, (withTcb 9 0x05200000 0 z).modTh 8 fun x => { x with tcb := some 9, st := .running, saveReq := some (1, 0) }, by decide, by decide, by decide, by decide, by decide, by decide, by decide, by decide, rfl, by decide⟩

theorem wit_tellerDispatchComplete_10 : ∃ (t : ThreadId) (r : Nat) (n : Nat) (m : Nat) (s : State), (r = rgnOf t.val) ∧ ((s.th t.val).saveReq = some (0, m)) ∧ ((s.th t.val).tcb = some n) ∧ ((s.th t.val).sbOwned = 0) ∧ (s.hasKid t.val = false) ∧ ((s.th t.val).lateTrap = []) ∧ ((s.th t.val).pend = []) ∧ (tFind (s.teller r).restore t.val = none) ∧ (m ≠ n) ∧ ((s.tcb r m).state = 1) ∧ ((s.allowed r (s.tcb r m).place).contains (cluOf t.val) = true) :=
  ⟨8, 0, 9, 6, (State.setTeller { z with tcbs := [(6, { Tcb.fresh with ctrl := 0x05100000, place := 0x10000 }), (9, { Tcb.fresh with ctrl := 0x05200000, ctx := some 8 })] } 0 fun k => { k with ready := [(5, 6)] }).modTh 8 fun x => { x with tcb := some 9, st := .running, saveReq := some (0, 6) }, by decide⟩

theorem wit_tellerDispatchComplete_11 : ∃ (t : ThreadId) (r : Nat) (n : Nat) (m : Nat) (s : State), (r = rgnOf t.val) ∧ ((s.th t.val).saveReq = some (3, m)) ∧ ((s.th t.val).tcb = some n) ∧ ((s.th t.val).sbOwned = 0) ∧ (s.hasKid t.val = false) ∧ ((s.th t.val).lateTrap = []) :=
  ⟨8, 0, 9, 0, (withTcb 9 0x05200000 0 z).modTh 8 fun x => { x with tcb := some 9, st := .running, saveReq := some (3, 0) }, by decide⟩

theorem wit_tellerDispatchComplete_12 : ∃ (t : ThreadId) (s : State), ((s.th t.val).saveReq = none ∨ (s.th t.val).tcb = none ∨ (s.th t.val).sbOwned ≠ 0) :=
  ⟨8, (withTcb 9 0x05200000 0 z).modTh 8 fun x => { x with tcb := some 9, st := .running, saveReq := some (3, 0), sbOwned := 1 }, by decide⟩

theorem wit_tellerDispatchComplete_13 : ∃ (t : ThreadId) (k : Nat) (m : Nat) (s : State), ((s.th t.val).saveReq = some (k, m)) ∧ (k ≠ 4) ∧ (s.hasKid t.val = true) :=
  ⟨8, 1, 0, ((withTcb 9 0x05200000 0 z).modTh 8 fun x => { x with tcb := some 9, st := .running, saveReq := some (1, 0) }).modTh 9 fun x => { x with st := .running, forked := true, parent := some 8 }, by decide⟩

theorem wit_tellerDispatchComplete_14 : ∃ (t : ThreadId) (n : Nat) (b : List Byte) (s : State) (v : State), (tFind (s.teller (rgnOf t.val)).restore t.val = some n) ∧ (s.dramRead (s.tcbAddr (rgnOf t.val) n 0x20) 0x1C8 = (b, false, v)) :=
  ⟨8, 9, (restoreZ.dramRead (restoreZ.tcbAddr (rgnOf (8 : ThreadId).val) 9 0x20) 0x1C8).1, restoreZ, (restoreZ.dramRead (restoreZ.tcbAddr (rgnOf (8 : ThreadId).val) 9 0x20) 0x1C8).2.2, by decide, flag_eta (by decide +kernel)⟩

theorem wit_tellerDispatchComplete_15 : ∃ (t : ThreadId) (n : Nat) (b : List Byte) (s : State) (v : State), (tFind (s.teller (rgnOf t.val)).restore t.val = some n) ∧ (s.dramRead (s.tcbAddr (rgnOf t.val) n 0x20) 0x1C8 = (b, true, v)) :=
  ⟨8, 9, (restoreP.dramRead (restoreP.tcbAddr (rgnOf (8 : ThreadId).val) 9 0x20) 0x1C8).1, restoreP, (restoreP.dramRead (restoreP.tcbAddr (rgnOf (8 : ThreadId).val) 9 0x20) 0x1C8).2.2, by decide, flag_eta (by decide +kernel)⟩

theorem wit_tellerDispatchComplete_16 : ∃ (t : ThreadId) (s : State), (tFind (s.teller (rgnOf t.val)).restore t.val = none) :=
  ⟨8, z, by decide⟩

theorem wit_savedContextComesBack_1 : ∃ (x : Thread) (y : Thread), (y = Thread.ofImage x.image) ∧ (x.waitAt = none) ∧ (x.pc < 16384) :=
  ⟨{ Thread.fresh with w := [(3, 7)], p := 5, lr := 9, pc := 100 }, _, rfl, by decide⟩

theorem wit_flowTableCommandsComplete_1 : ∃ (d : PDie) (img : List Nat) (i : Nat) (s : State), (s.rb (aCls d.val 0x144) 30 = false) ∧ (s.rb (aCls d.val 0x130) 31 = false) ∧ ((s.pd d.val).reloc = none) ∧ (s.learnIdle = true) ∧ (img = (List.range 16).map (fun i => (s.reg (aCls d.val (0x180 + 4 * i))).toNat)) ∧ (entType img = 2 ∨ entType img = 3) ∧ (s.ftFind d.val img = (none, false, s)) ∧ (s.ftFree d.val false (waysOf (s.ftBuckets d.val false img).1 ++ waysOf (s.ftBuckets d.val false img).2) = some i) :=
  ⟨0, ftImg, ftAt, ftZ, by decide +kernel⟩

theorem wit_flowTableCommandsComplete_2 : ∃ (d : PDie) (img : List Nat) (i : Nat) (e : List Nat) (t : Bool) (s : State), (s.rb (aCls d.val 0x144) 30 = false) ∧ (s.rb (aCls d.val 0x130) 31 = false) ∧ ((s.pd d.val).reloc = none) ∧ (s.learnIdle = true) ∧ (img = (List.range 16).map (fun i => (s.reg (aCls d.val (0x180 + 4 * i))).toNat)) ∧ (entType img = 2 ∨ entType img = 3) ∧ (s.ftFind d.val img = (some (t, i, e), false, s)) :=
  ⟨0, ftImg, ftAt, entStored ftImg false, false, ftE, by decide +kernel⟩

theorem wit_flowTableCommandsComplete_3 : ∃ (d : PDie) (img : List Nat) (i : Nat) (e : List Nat) (s : State), (s.rb (aCls d.val 0x144) 30 = false) ∧ (s.rb (aCls d.val 0x130) 31 = false) ∧ ((s.pd d.val).reloc = none) ∧ (s.learnIdle = true) ∧ (img = (List.range 16).map (fun i => (s.reg (aCls d.val (0x180 + 4 * i))).toNat)) ∧ (entType img ≠ 1) ∧ (s.ftFind d.val img = (some (false, i, e), false, s)) :=
  ⟨0, ftImg, ftAt, entStored ftImg false, ftE, by decide +kernel⟩

theorem wit_flowTableCommandsComplete_4 : ∃ (d : PDie) (img : List Nat) (i : Nat) (e : List Nat) (s : State), (s.rb (aCls d.val 0x144) 30 = false) ∧ (s.rb (aCls d.val 0x130) 31 = false) ∧ ((s.pd d.val).reloc = none) ∧ (s.learnIdle = true) ∧ (img = (List.range 16).map (fun i => (s.reg (aCls d.val (0x180 + 4 * i))).toNat)) ∧ (entType img ≠ 1) ∧ (s.ftFind d.val img = (some (false, i, e), false, s)) :=
  ⟨0, ftImg, ftAt, entStored ftImg false, ftE, by decide +kernel⟩

theorem wit_flowTableCommandsComplete_5 : ∃ (d : PDie) (img : List Nat) (i : Nat) (e : List Nat) (s : State), (s.rb (aCls d.val 0x144) 30 = false) ∧ (s.rb (aCls d.val 0x130) 31 = false) ∧ ((s.pd d.val).reloc = none) ∧ (s.learnIdle = true) ∧ (img = (List.range 16).map (fun i => (s.reg (aCls d.val (0x180 + 4 * i))).toNat)) ∧ (entType img ≠ 1) ∧ (s.ftFind d.val img = (some (false, i, e), false, s)) :=
  ⟨0, ftImg, ftAt, entStored ftImg false, ftE, by decide +kernel⟩

theorem wit_flowTableCommandsComplete_6 : ∃ (d : PDie) (img : List Nat) (i : Nat) (e : List Nat) (s : State), (s.rb (aCls d.val 0x144) 30 = false) ∧ (s.rb (aCls d.val 0x130) 31 = false) ∧ ((s.pd d.val).reloc = none) ∧ (s.learnIdle = true) ∧ (img = (List.range 16).map (fun i => (s.reg (aCls d.val (0x180 + 4 * i))).toNat)) ∧ (entType img ≠ 1) ∧ (s.ftFind d.val img = (some (false, i, e), false, s)) ∧ (s.ftHit.before s.fab (ftSlot d.val false i) = none) :=
  ⟨0, ftImg, ftAt, entStored ftImg false, ftE, by decide +kernel⟩

theorem wit_flowTableCommandsComplete_7 : ∃ (d : PDie) (img : List Nat) (i : Nat) (e : List Nat) (s : State), (s.rb (aCls d.val 0x144) 30 = false) ∧ (s.rb (aCls d.val 0x130) 31 = false) ∧ ((s.pd d.val).reloc = none) ∧ (s.learnIdle = true) ∧ (img = (List.range 16).map (fun i => (s.reg (aCls d.val (0x180 + 4 * i))).toNat)) ∧ (entType img ≠ 1) ∧ (s.ftFind d.val img = (some (false, i, e), false, s)) ∧ (s.ftHit.before s.fab (ftSlot d.val false i) ≠ none) :=
  ⟨0, ftImg, ftAt, entStored ftImg false, { ftE with ftHit := Was.empty.put 0 (ftSlot 0 false ftAt) () }, by decide +kernel⟩

theorem wit_flowTableCommandsComplete_8 : ∃ (d : PDie) (img : List Nat) (s : State), (s.rb (aCls d.val 0x144) 30 = false) ∧ (s.rb (aCls d.val 0x130) 31 = false) ∧ ((s.pd d.val).reloc = none) ∧ (s.learnIdle = true) ∧ (img = (List.range 16).map (fun i => (s.reg (aCls d.val (0x180 + 4 * i))).toNat)) ∧ (entType img ≠ 1) ∧ (s.ftFind d.val img = (none, false, s)) :=
  ⟨0, ftImg, ftZ, by decide +kernel⟩

theorem wit_flowTableCommandsComplete_9 : ∃ (d : PDie) (i : Nat) (e : List Nat) (s : State), (s.rb (aCls d.val 0x144) 30 = false) ∧ (s.rb (aCls d.val 0x130) 31 = false) ∧ ((s.pd d.val).reloc = none) ∧ (s.learnIdle = true) ∧ (s.ftLocPlace d.val false (s.reg (aCls d.val 0x148)).toNat = some i) ∧ (e = tGet (fun _ => zeroEntry) s.ft (ftKey d.val false i)) ∧ (tFind s.ftBad (ftKey d.val false i) = none) :=
  ⟨0, ftAt, entStored ftImg false, ftE.setReg (aCls 0 0x148) (nw ftAt), by decide +kernel⟩

theorem wit_flowTableCommandsComplete_10 : ∃ (d : PDie) (s : State), (s.rb (aCls d.val 0x144) 30 = false) ∧ (s.rb (aCls d.val 0x130) 31 = true) ∧ (s.rf (aCls d.val 0x130) 13 0 ≠ s.rf (aCls d.val 0x14C) 13 0) :=
  ⟨0, (z.setRb (aCls 0 0x130) 31 true).setRf (aCls 0 0x130) 13 0 5, by decide +kernel⟩

theorem wit_flowTableCommandsComplete_11 : ∃ (d : PDie) (s : State), (s.rb (aCls d.val 0x144) 30 = true) :=
  ⟨0, z.setRb (aCls 0 0x144) 30 true, by decide +kernel⟩

theorem wit_flowTableCommandsComplete_12 : ∃ (d : PDie) (img : List Nat) (s : State), (s.rb (aCls d.val 0x144) 30 = false) ∧ (s.rb (aCls d.val 0x130) 31 = false) ∧ ((s.pd d.val).reloc = none) ∧ (img = (List.range 16).map (fun i => (s.reg (aCls d.val (0x180 + 4 * i))).toNat)) ∧ (entType img = 1) :=
  ⟨0, 0x100000 :: List.replicate 15 0, z.setReg (aCls 0 0x180) 0x100000, by decide +kernel⟩

theorem wit_flowTableCommandsComplete_13 : ∃ (d : PDie) (n : Fin 4) (a : Nat) (i : Nat) (b : List Byte) (e : List Nat) (s : State), (s.ringHead d.val n.val = some a) ∧ (∀ m < n.val, s.ringHead d.val m = none) ∧ (s.ftWaiting d.val n.val = false) ∧ ((s.pd d.val).reloc = none) ∧ (s.learnIdle = true) ∧ (s.dramRead a 128 = (b, false, s)) ∧ (leAt b 0 4 / 2 ^ 28 = 2) ∧ (s.rb (aCls d.val 0x130) 31 = false) ∧ (entType (entryWords (b.drop 64)) ≠ 1) ∧ (s.ftFind d.val (entryWords (b.drop 64)) = (some (false, i, e), false, s)) :=
  ⟨0, 1, 0x1080, ftAt, (List.range 128).map (fun i => if i = 3 then 0x20 else if i = 66 then 0x20 else 0), entStored ftImg false, ringZ 1 ([0x20000000] ++ List.replicate 15 0 ++ [0x200000] ++ List.replicate 15 0) ftE, by decide +kernel⟩

theorem wit_flowTableCommandsComplete_14 : ∃ (d : PDie) (n : Fin 4) (m : Fin 4) (a : Nat) (b : Nat) (s : State), (s.ringHead d.val n.val = some a) ∧ (m < n) ∧ (s.ringHead d.val m.val = some b) :=
  ⟨0, 1, 0, 0x1080, 0x1080, (((ringZ 1 [0] z).setReg (aRing 0 0) 0x1000).setReg (aRing 0 0 + 8) 4).modPd 0 fun x => { x with rings := [(0, (0, 1)), (1, (0, 1))] }, by decide +kernel⟩

theorem wit_flowTableCommandsComplete_15 : ∃ (d : PDie) (n : Fin 4) (b : List Byte) (s : State), (s.ringOn d.val n.val = true) ∧ (s.dramRange (s.ringBase d.val n.val) 8 = true) ∧ (∀ m : Fin 4, m ≠ n → s.ringOn d.val m.val = false) ∧ (s.dramRead (s.ringBase d.val n.val) 4 = (b, false, s)) ∧ (leNat b % s.ringSize d.val n.val = (s.ringAt d.val n.val).1) :=
  ⟨0, 1, [0, 0, 0, 0], pollZ 1, by decide +kernel⟩

theorem wit_flowTableFindsWhatItInserts_1 : ∃ (d : PDie) (e : List Nat) (i : Nat) (s : State) (u : State), (e.length = 16) ∧ (∀ w ∈ e, w < 2 ^ 32) ∧ (s.ftDram d.val = false) ∧ (∀ j ∈ s.ftCands d.val false e, tFind s.ftBad (ftKey d.val false j) = none) ∧ (s.ftInsert d.val false e = (.done ftOk 0 (some i), u)) :=
  ⟨0, ftImg, ftAt, ftZ, (ftZ.ftInsert 0 false ftImg).2, by decide +kernel⟩

theorem wit_learnCommandsComplete_1 : ∃ (h : Nat) (o : Nat) (p : Nat) (l : Learn) (m : Learn) (s : State), (s.learnNext h = some (o, l)) ∧ (p = h ∨ p = 1 - h) ∧ (m ∈ (s.pd p).learnq) ∧ (homeDie (learnKey m.key) = h) :=
  ⟨0, 0, 0, lrn, lrn, lrnZ [], by decide +kernel⟩

theorem wit_learnCommandsComplete_2 : ∃ (d : PDie) (s : State), ((s.pd d.val).learning = none) ∧ (∀ o < 2, ∀ l ∈ (s.pd o).learnq, homeDie (learnKey l.key) ≠ d.val) :=
  ⟨0, z, by decide +kernel⟩

theorem wit_learnCommandsComplete_3 : ∃ (d : PDie) (o : Nat) (l : Learn) (i : Nat) (e : List Nat) (s : State) (v : State), ((s.pd d.val).learning = none) ∧ (s.learnNext d.val = some (o, l)) ∧ (l.cmd = none) ∧ (v = (s.modPd o fun x => { x with learnq := x.learnq.erase l }).upTo l.at_) ∧ (v.ftSearch d.val false (learnKey l.key) = ([], false, v)) ∧ (e = entStored (entLearn ((learnKey l.key ++ List.replicate 4 0).set 12 (s.lrnTmpl d.val l.port)) l.port l.sa l.ts) true) ∧ (v.ftFree d.val false (waysOf (s.ftBuckets d.val false e).1 ++ waysOf (s.ftBuckets d.val false e).2) = some i) :=
  ⟨0, 0, lrn, lrnAt, _, lrnZ [], _, by decide +kernel, by decide +kernel, by decide +kernel, rfl, by decide +kernel, rfl, by decide +kernel⟩

theorem wit_learnCommandsComplete_4 : ∃ (d : PDie) (o : Nat) (l : Learn) (i : Nat) (e : List Nat) (s : State) (v : State), ((s.pd d.val).learning = none) ∧ (s.learnNext d.val = some (o, l)) ∧ (l.cmd = none) ∧ (v = (s.modPd o fun x => { x with learnq := x.learnq.erase l }).upTo l.at_) ∧ (v.ftSearch d.val false (learnKey l.key) = ([(i, e)], false, v)) ∧ (entStatic e = false) ∧ (entPort e = l.port) ∧ (entSa e = l.sa) ∧ ((e.getD 0 0).testBit 28 = false) :=
  ⟨0, 0, lrn, lrnAt, entBit lrnE 28 false, lrnZ [(ftKey 0 false lrnAt, entBit lrnE 28 false)], _, by decide +kernel, by decide +kernel, by decide +kernel, rfl, by decide +kernel⟩

theorem wit_learnCommandsComplete_5 : ∃ (d : PDie) (w : LearnWait) (i : Nat) (e : List Nat) (x : List Nat) (s : State) (v : State), ((s.pd d.val).learning = some w) ∧ (w.ev.cmd = none) ∧ (w.code = 0) ∧ (w.entry = some e) ∧ (v = (s.modPd d.val fun x => { x with learning := none })) ∧ (v.ftSearch (1 - d.val) false e = ([(i, x)], false, v)) :=
  ⟨0, { ev := lrn, entry := some lrnE, code := 0, moves := 0, loc := some lrnAt }, lrnAt, lrnE, lrnE, { pdZ (fun x => { x with learning := some { ev := lrn, entry := some lrnE, code := 0, moves := 0, loc := some lrnAt } }) with ft := [(ftKey 1 false lrnAt, lrnE)] }, _, by decide +kernel, by decide +kernel, by decide +kernel, by decide +kernel, rfl, by decide +kernel⟩

theorem wit_learnCommandsComplete_6 : ∃ (d : PDie) (r : Reloc) (m : Nat × Nat) (ms : List (Nat × Nat)) (s : State), ((s.pd d.val).reloc = some r) ∧ (r.moves = m :: ms) ∧ (r.phase = 1) ∧ (stashAt ≤ r.stash) ∧ (m.2 < stashAt) ∧ (tFind s.ftBad (ftKey d.val true r.stash) = none) :=
  ⟨0, rlc 1, (5, 9), [], pdZ fun x => { x with reloc := some (rlc 1) }, by decide +kernel⟩

theorem wit_learnCommandsComplete_7 : ∃ (d : PDie) (r : Reloc) (m : Nat × Nat) (s : State), ((s.pd d.val).reloc = some r) ∧ (r.moves = [m]) ∧ (r.phase = 3) ∧ (r.via = 4) ∧ (stashAt ≤ r.stash) ∧ (r.done < 8) ∧ (tFind s.ftBad (ftKey d.val true r.stash) = none) ∧ ((s.ftRead d.val true m.2).2.1 = false) :=
  ⟨0, rlc 3, (5, 9), dramW (z.ftAddr 0 9) (List.replicate 16 0) (pdZ fun x => { x with reloc := some (rlc 3) }), by decide +kernel⟩

theorem wit_learnCommandsComplete_8 : ∃ (d : PDie) (r : Reloc) (m : Nat × Nat) (ms : List (Nat × Nat)) (f : Flaw) (s : State), ((s.pd d.val).reloc = some r) ∧ (r.moves = m :: ms) ∧ (r.phase = 1) ∧ (r.via = 4) ∧ (stashAt ≤ r.stash) ∧ (tFind s.ftBad (ftKey d.val true r.stash) = some f) ∧ (f.ue = true) :=
  ⟨0, rlc 1, (5, 9), [], { ue := true, word := 0, bit := 0, synd := 0 }, { (pdZ fun x => { x with reloc := some (rlc 1) }) with ftBad := [(ftKey 0 true stashAt, { ue := true, word := 0, bit := 0, synd := 0 })] }, by decide +kernel⟩

theorem wit_saTableCommandsComplete_1 : ∃ (d : PDie) (i : Nat) (s : State), (i = s.rf (ra (satPage d.val) 0x104) 19 0) ∧ (i / 2 ^ 19 = d.val) ∧ (s.rb (ra (satPage d.val) 0x130) 31 = false) ∧ ((saW (s.satData d.val) 0).testBit 31 = true → saImageOk i (s.satData d.val) = true) ∧ ((s.saRead d.val i).2.1 = true ∨ saState (s.saRead d.val i).1 = 0) :=
  ⟨0, 0, satZ, by decide⟩

theorem wit_saTableCommandsComplete_2 : ∃ (d : PDie) (i : Nat) (s : State), (i = s.rf (ra (satPage d.val) 0x104) 19 0) ∧ (i / 2 ^ 19 = d.val) ∧ (s.rb (ra (satPage d.val) 0x130) 31 = false) ∧ ((saW (s.satData d.val) 0).testBit 31 = true → saImageOk i (s.satData d.val) = true) ∧ ((s.saRead d.val i).2.1 = false) ∧ (saState (s.saRead d.val i).1 ≠ 0) ∧ ((s.pd d.val).life.length < 64) :=
  ⟨0, 0, { z with sat := { cells := (List.range 96).map fun j => (satAt 0 0 + j, if j = 3 then 2 else 0), poison := [], hurt := [] } }, by decide +kernel⟩

theorem wit_saTableCommandsComplete_3 : ∃ (d : PDie) (i : Nat) (s : State), (i = s.rf (ra (satPage d.val) 0x104) 19 0) ∧ (i / 2 ^ 19 = d.val) ∧ (s.rb (ra (satPage d.val) 0x130) 31 = false) ∧ ((saW (s.satData d.val) 0).testBit 31 = true) ∧ (saImageOk i (s.satData d.val) = false) :=
  ⟨0, 0, z.setReg (ra (satPage 0) 0x180) 0x80000001, by decide⟩

theorem wit_saTableCommandsComplete_4 : ∃ (d : PDie) (i : Nat) (r : List Nat) (s : State), (i = s.rf (ra (satPage d.val) 0x104) 19 0) ∧ (i / 2 ^ 19 = d.val) ∧ (s.saRead d.val i = (r, false, s)) :=
  ⟨0, 0, List.replicate 24 0, satZ, by decide⟩

theorem wit_saTableCommandsComplete_5 : ∃ (d : PDie) (i : Nat) (r : List Nat) (s : State), (i = s.rf (ra (satPage d.val) 0x104) 19 0) ∧ (i / 2 ^ 19 = d.val) ∧ (s.rb (ra (satPage d.val) 0x130) 31 = false) ∧ (s.saRead d.val i = (r, false, s)) :=
  ⟨0, 0, List.replicate 24 0, satZ, by decide⟩

theorem wit_saTableCommandsComplete_6 : ∃ (d : PDie) (i : Nat) (r : List Nat) (s : State), (i = s.rf (ra (satPage d.val) 0x104) 19 0) ∧ (i / 2 ^ 19 = d.val) ∧ (s.rb (ra (satPage d.val) 0x130) 31 = false) ∧ (s.saRead d.val i = (r, false, s)) :=
  ⟨0, 0, List.replicate 24 0, satZ, by decide⟩

theorem wit_saTableCommandsComplete_7 : ∃ (d : PDie) (i : Nat) (r : List Nat) (s : State), (i = s.rf (ra (satPage d.val) 0x104) 19 0) ∧ (i / 2 ^ 19 = d.val) ∧ (s.rb (ra (satPage d.val) 0x130) 31 = false) ∧ (s.saRead d.val i = (r, false, s)) ∧ ((saW r 0).testBit 30 = false) ∧ (saQ r 8 < saQ (s.satData d.val) 8) :=
  ⟨0, 0, List.replicate 24 0, satZ.setReg (ra (satPage 0) 0x1A0) 5, by decide⟩

theorem wit_saTableCommandsComplete_8 : ∃ (d : PDie) (i : Nat) (r : List Nat) (s : State), (i = s.rf (ra (satPage d.val) 0x104) 19 0) ∧ (i / 2 ^ 19 = d.val) ∧ (s.rb (ra (satPage d.val) 0x130) 31 = false) ∧ (s.saRead d.val i = (r, false, s)) ∧ ((saW r 0).testBit 30 = false) ∧ (saQ (s.satData d.val) 8 ≤ saQ r 8) :=
  ⟨0, 0, List.replicate 24 0, satZ, by decide⟩

theorem wit_saTableCommandsComplete_9 : ∃ (d : PDie) (i : Nat) (r : List Nat) (s : State), (i = s.rf (ra (satPage d.val) 0x104) 19 0) ∧ (i / 2 ^ 19 = d.val) ∧ (s.rb (ra (satPage d.val) 0x130) 31 = false) ∧ (s.saRead d.val i = (r, false, s)) :=
  ⟨0, 0, List.replicate 24 0, satZ, by decide⟩

theorem wit_saTableCommandsComplete_10 : ∃ (d : PDie) (k : Nat) (i : Nat) (r : List (Nat × Nat)) (s : State), ((s.pd d.val).life = (k, i) :: r) :=
  ⟨0, 1, 77, [(0, 5)], pdZ fun x => { x with life := [(1, 77), (0, 5)] }, by decide⟩

theorem wit_saTableCommandsComplete_11 : ∃ (d : PDie) (s : State), ((s.pd d.val).life = []) :=
  ⟨0, z, by decide⟩

theorem wit_saTableCommandsComplete_12 : ∃ (v : Word), (bit v 31 = true) :=
  ⟨0x80000005, by decide⟩

theorem wit_saTableCommandsComplete_13 : ∃ (v : Word), (bit v 31 = false) :=
  ⟨5, by decide⟩

theorem wit_policyAndWriteLockCommandsComplete_1 : ∃ (r : RegionId) (s : State), (s.domIsOn (domRgn r.val) = true) ∧ (s.writeRegion = some r.val) ∧ (s.rb (aPol r.val 0x140) 31 = false) ∧ (∀ e ∈ s.clu, ∀ a ∈ e.2.tbClaims, a.g / 4 ≤ s.cyc) :=
  ⟨0, upDom (domRgn 0) (upDom (domRgn 1) z), by decide⟩

theorem wit_policyAndWriteLockCommandsComplete_2 : ∃ (r : RegionId) (s : State), (s.domIsOn (domRgn r.val) = true) ∧ (s.writeRegion ≠ some r.val) :=
  ⟨1, upDom (domRgn 0) (upDom (domRgn 1) z), by decide⟩

theorem wit_policyAndWriteLockCommandsComplete_3 : ∃ (r : RegionId) (s : State), (s.domIsOn (domRgn r.val) = true) ∧ (s.writeRegion ≠ some r.val) :=
  ⟨1, upDom (domRgn 0) (upDom (domRgn 1) z), by decide⟩

theorem wit_policyAndWriteLockCommandsComplete_4 : ∃ (r : RegionId) (s : State), (s.domIsOn (domRgn r.val) = true) ∧ (s.writeRegion = some r.val) ∧ (s.rb (aPol r.val 0x140) 31 = false) ∧ (s.gsa.length < 1024) :=
  ⟨0, upDom (domRgn 0) (upDom (domRgn 1) z), by decide⟩

theorem wit_policyAndWriteLockCommandsComplete_5 : ∃ (r : RegionId) (i : BitVec 16) (s : State), (s.domIsOn (domRgn r.val) = true) ∧ (s.rb (aPol r.val 0x140) 31 = false) ∧ (∀ j : Fin 8, tFind s.polBad ((r.val * 65536 + i.toNat) * 8 + j.val) = none) :=
  ⟨1, 5, { upDom (domRgn 0) (upDom (domRgn 1) z) with pol := [((65536 + 5) * 8 + 1, 7)] }, by decide⟩

theorem wit_policyAndWriteLockCommandsComplete_7 : ∃ (r : RegionId) (s : State) (v : State), (s.domIsOn (domRgn r.val) = true) ∧ (s.rb (aPol r.val 0x140) 31 = false) ∧ (v = s.cntSettle s.cyc) :=
  ⟨1, { upDom (domRgn 0) (upDom (domRgn 1) z) with polCnt := [(65536 + 5, (3, 4))], cntAdds := [(0, 65541, 64)] }, _, by decide, by decide, rfl⟩

theorem wit_policyAndWriteLockCommandsComplete_8 : ∃ (r : RegionId) (s : State) (v : State), (s.domIsOn (domRgn r.val) = true) ∧ (s.rb (aPol r.val 0x140) 31 = false) ∧ (v = s.cntSettle s.cyc) :=
  ⟨1, { upDom (domRgn 0) (upDom (domRgn 1) z) with polCnt := [(65536 + 5, (3, 4))], cntAdds := [(0, 65541, 64)] }, _, by decide, by decide, rfl⟩

theorem wit_policyAndWriteLockCommandsComplete_9 : ∃ (r : RegionId) (s : State) (v : State), (s.domIsOn (domRgn r.val) = true) ∧ (s.rb (aPol r.val 0x140) 31 = false) ∧ (v = s.cntSettle s.cyc) :=
  ⟨1, { upDom (domRgn 0) (upDom (domRgn 1) z) with polCnt := [(65536 + 5, (3, 4))], cntAdds := [(0, 65541, 64)] }, _, by decide, by decide, rfl⟩

theorem wit_policyAndWriteLockCommandsComplete_10 : ∃ (l : LockTable) (s : State), (s.rb (aWlock l) 31 = false) :=
  ⟨.cls 0, z, by decide⟩

theorem wit_policyAndWriteLockCommandsComplete_11 : ∃ (l : LockTable) (s : State), (s.rb (aWlock l) 31 = true) :=
  ⟨.sat 0, z.setRb (aWlock (.sat 0)) 31 true, by decide⟩

theorem wit_policyAndWriteLockCommandsComplete_13 : ∃ (l : LockTable) (t : Nat) (s : State), (tFind s.wlocks (aWlock l) = some t) :=
  ⟨.pol 3, 88, { z.setRb (aWlock (.pol 3)) 31 true with wlocks := [(aWlock (.pol 3), 88)] }, by decide⟩

theorem wit_timebaseCommandsComplete_1 : ∃ (v : Word) (s : State), (bit v 31 = true) ∧ (s.epcOn = false) ∧ (s.rf (aEpc 0x108) 25 0 < s.af (aEpc 0x104) 25 0) :=
  ⟨0x80000000, z, by decide⟩

theorem wit_timebaseCommandsComplete_2 : ∃ (v : Word) (s : State), (bit v 31 = false) ∧ (s.epcOn = true) ∧ (s.pgState (mPage 0) < 4) :=
  ⟨0, epcZ id, by decide⟩

theorem wit_timebaseCommandsComplete_3 : ∃ (hi : Word) (d : Int) (s : State), (d = toSigned 64 ((s.reg (aEpc 0x15C)).toNat + 2 ^ 32 * hi.toNat)) :=
  ⟨5, _, z.setReg (aEpc 0x15C) 9, rfl⟩

theorem wit_timebaseCommandsComplete_6 : ∃ (s : State), (s.rb (aEpc 0x100) 28 = true) ∧ (s.tbAt ≤ s.now) :=
  ⟨epcZ id, by decide⟩

theorem wit_timebaseCommandsComplete_7 : ∃ (d : Int) (s : State), (s.epcOn = true) ∧ (s.syncEn = true) ∧ (s.epc.corr = none) ∧ (tbDiff s.tb s.epc.target ≤ (s.epc.len / 8 : Nat)) ∧ (d = tbDiff s.tb s.epc.target - toSigned 16 (s.rf (aEpc 0x10C) 15 0)) ∧ (d ≤ (s.epc.len / 8 : Nat)) ∧ (-((s.epc.len / 8 : Nat) : Int) ≤ d) ∧ (d ≤ 100000000) ∧ (-100000000 ≤ d) :=
  ⟨_, epcZ fun e => { e with target := 0 }, by decide, by decide, by decide, by decide, rfl, by decide⟩

theorem wit_timebaseCommandsComplete_8 : ∃ (d : Int) (s : State), (s.epcOn = true) ∧ (s.syncEn = true) ∧ (tbDiff s.tb s.epc.target ≤ (s.epc.len / 8 : Nat)) ∧ (d = tbDiff s.tb s.epc.target - toSigned 16 (s.rf (aEpc 0x10C) 15 0)) ∧ ((s.epc.len / 8 : Nat) < d ∨ s.epc.corr.isSome = true) :=
  ⟨_, epcZ fun e => { e with target := 0, corr := some 3 }, by decide, by decide, by decide, rfl, by decide⟩

theorem wit_timebaseCommandsComplete_9 : ∃ (s : State), (s.epcOn = true) ∧ (s.epc.cleared = true) :=
  ⟨epcZ fun e => { e with cleared := true }, by decide⟩

theorem wit_epochCommandsComplete_1 : ∃ (s : State), (s.epcOn = true) ∧ (s.epc.cleared = false) ∧ (s.epc.noticed = false) ∧ (s.commitOpen = false) :=
  ⟨(epcZ fun e => { e with noticed := false }), by decide⟩

theorem wit_epochCommandsComplete_2 : ∃ (s : State) (v : State) (w : State), (s.epcOn = true) ∧ (s.epc.cleared = false) ∧ (s.epc.noticed = false) ∧ (s.commitOpen = true) ∧ (s.epc.latch = none) ∧ (w = (s.upTo (s.tbTick (tbMove s.epc.target (-16000)))).modEpc (fun e => { e with noticed := true, notReady := [] })) ∧ (v = w.tierTakers.foldl (fun s x => s.saveAll x) w) ∧ (reached ((s.reg (aEpc 0x110)).toNat + 1) s.epc.notBefore = true) ∧ (v.slipCause = 0) :=
  ⟨(epcZ fun e => { e with noticed := false }).setRb aCommit 31 true, _, _, by decide, by decide, by decide, by decide, by decide, rfl, rfl, by decide⟩

theorem wit_epochCommandsComplete_3 : ∃ (s : State) (v : State) (w : State), (s.epcOn = true) ∧ (s.epc.cleared = false) ∧ (s.epc.noticed = false) ∧ (s.commitOpen = true) ∧ (s.epc.latch = none) ∧ (w = (s.upTo (s.tbTick (tbMove s.epc.target (-16000)))).modEpc (fun e => { e with noticed := true, notReady := [] })) ∧ (v = w.tierTakers.foldl (fun s x => s.saveAll x) w) ∧ (reached ((s.reg (aEpc 0x110)).toNat + 1) s.epc.notBefore = true) ∧ (v.slipCause ≠ 0) :=
  ⟨{ (epcZ fun e => { e with noticed := false }).setRb aCommit 31 true with oldLive := true }, _, _, by decide, by decide, by decide, by decide, by decide, rfl, rfl, by decide⟩

theorem wit_epochCommandsComplete_4 : ∃ (s : State), (s.epcOn = true) ∧ (s.epc.cleared = false) ∧ (s.epc.noticed = true) ∧ (s.epc.latch = none) ∧ (s.fmg.detached = []) :=
  ⟨(epcZ fun e => { e with noticed := true }), by decide⟩

theorem wit_epochCommandsComplete_5 : ∃ (l : Tbl Word × Tbl (Word × Word)) (s : State), (s.epcOn = true) ∧ (s.epc.cleared = false) ∧ (s.epc.noticed = true) ∧ (s.epc.latch = some l) ∧ (s.fmg.detached = []) ∧ (s.fmg.reqs = []) ∧ (s.fmg.applied ≠ s.boundary.1) ∧ (s.epc.prof = none) ∧ (s.af aEpcCal 1 0 = s.prof.tier) ∧ (tGet regReset l.1 aEpcCal = nw s.prof.tier) :=
  ⟨([], []), (epcZ fun e => { e with noticed := true, latch := some ([], []) }), by decide⟩

theorem wit_epochCommandsComplete_6 : ∃ (l : Tbl Word × Tbl (Word × Word)) (s : State), (s.epcOn = true) ∧ (s.epc.cleared = false) ∧ (s.epc.noticed = true) ∧ (s.epc.latch = some l) ∧ (s.fmg.detached = []) ∧ (s.epc.prof.isSome = true ∨ fld (tGet regReset l.1 aEpcCal) 1 0 ≠ s.fmg.tierWas) ∧ (s.fmg.applied = s.boundary.1) :=
  ⟨([], []), { (epcZ fun e => { e with noticed := true, latch := some ([], []), prof := some (1, noProfile) }) with fmg := { FmgState.fresh with applied := (epcZ fun e => { e with noticed := true, latch := some ([], []), prof := some (1, noProfile) }).boundary.1 } }, by decide⟩

theorem wit_epochCommandsComplete_7 : ∃ (l : Tbl Word × Tbl (Word × Word)) (s : State), (s.epcOn = true) ∧ (s.epc.cleared = false) ∧ (s.epc.noticed = true) ∧ (s.epc.latch = some l) ∧ (s.fmg.detached = []) ∧ (s.epc.prof = none) ∧ (s.fmg.applied = s.boundary.1) ∧ (fld (tGet regReset l.1 aEpcCal) 1 0 = s.fmg.tierWas) ∧ (s.af aEpcCal 1 0 = s.prof.tier) :=
  ⟨([], []), { (epcZ fun e => { e with noticed := true, latch := some ([], []) }) with fmg := { FmgState.fresh with applied := (epcZ fun e => { e with noticed := true, latch := some ([], []) }).boundary.1 } }, by decide⟩

theorem wit_epochCommandsComplete_8 : ∃ (s : State), (s.oldLive = true) :=
  ⟨{ z with oldLive := true, gen := 1 }, by decide⟩

theorem wit_epochCommandsComplete_9 : ∃ (s : State), (s.mbxBusy = false) ∧ (s.commitOpen = false) ∧ (s.shadowTier = s.af aEpcCal 1 0) :=
  ⟨z, by decide⟩

theorem wit_epochCommandsComplete_10 : ∃ (s : State), (s.mbxBusy = false) ∧ (s.commitOpen = true) :=
  ⟨z.setRb aCommit 31 true, by decide⟩

theorem wit_epochCommandsComplete_11 : ∃ (s : State), (s.mbxBusy = false) :=
  ⟨z, by decide⟩

theorem wit_calendarCommandsComplete_1 : ∃ (arg : Word) (s : State) (v : State), (v = s.setReg (aMbx 0x100) 0x80000000) ∧ (s.mbxBusy = false) ∧ (s.fmg.crossed = false) ∧ (∀ c : Fin 4, v.calArg arg c.val = (some (2, 0), false) ∨ v.calArg arg c.val = (none, false)) :=
  ⟨0xC0C0C0C0, z, _, rfl, by decide⟩

theorem wit_calendarCommandsComplete_2 : ∃ (s : State), (s.mbxBusy = false) ∧ (s.fmg.crossed = true) :=
  ⟨fmgZ fun f => { f with crossed := true }, by decide⟩

theorem wit_calendarCommandsComplete_3 : ∃ (q : CalReq) (r : List CalReq) (c : Fin 4) (s : State), (s.fmg.reqs = q :: r) ∧ (q.sets = (List.range 4).map (fun i => if i = c.val then some (2, 0) else none)) ∧ (q.mbx = false) ∧ (s.mlinkBusy = false) ∧ (s.prof.tier = 0) ∧ (s.prof.sets.length = 4) ∧ (s.setOf c.val ≠ (2, 0)) ∧ (s.takers c.val (2, 0) = []) :=
  ⟨{ sets := [none, some (2, 0), none, none], due := 5000, mbx := false }, [], 1, fmgZ fun f => { f with reqs := [{ sets := [none, some (2, 0), none, none], due := 5000, mbx := false }] }, by decide⟩

theorem wit_calendarCommandsComplete_4 : ∃ (q : CalReq) (r : List CalReq) (c : Fin 4) (s : State), (s.fmg.reqs = q :: r) ∧ (q.sets = (List.range 4).map (fun i => if i = c.val then some (s.setOf c.val) else none)) ∧ (q.mbx = false) ∧ (s.mlinkBusy = false) ∧ (s.prof.tier = 0) :=
  ⟨{ sets := [none, some (0, 0), none, none], due := 5000, mbx := false }, [], 1, fmgZ fun f => { f with reqs := [{ sets := [none, some (0, 0), none, none], due := 5000, mbx := false }] }, by decide⟩

theorem wit_calendarCommandsComplete_5 : ∃ (q : CalReq) (r : List CalReq) (c : Fin 4) (s : State), (s.fmg.reqs = q :: r) ∧ (q.sets = (List.range 4).map (fun i => if i = c.val then some (2, 0) else none)) ∧ (q.mbx = false) ∧ (s.mlinkBusy = false) ∧ (s.prof.tier = 0) ∧ (s.prof.sets.length = 4) ∧ (s.setOf c.val ≠ (2, 0)) ∧ (s.takers c.val (2, 0) = [s.spareOf c.val]) ∧ (∀ i : Fin 64, (s.th (64 * s.spareOf c.val + i.val)).saveReq = none) :=
  ⟨{ sets := [none, some (2, 0), none, none], due := 5000, mbx := false }, [], 1, { z.setClu 31 (fun k => { k with claimed := true, st := .live }) with fmg := { FmgState.fresh with reqs := [{ sets := [none, some (2, 0), none, none], due := 5000, mbx := false }] } }, by decide⟩

theorem wit_calendarCommandsComplete_6 : ∃ (d : PDie) (e : Nat) (s : State), ((s.pd d.val).seamEnd = some e) ∧ ((s.pd (1 - d.val)).seamEnd.isSome = true) :=
  ⟨0, 99, (z.modPd 0 fun x => { x with seamEnd := some 99 }).modPd 1 fun x => { x with seamEnd := some 99 }, by decide⟩

theorem wit_calendarCommandsComplete_7 : ∃ (d : PDie) (e : Nat) (c : Nat) (s : State), ((s.pd d.val).seamEnd = some e) ∧ ((s.pd (1 - d.val)).seamEnd = none) ∧ (c ∈ s.fmg.leaving) :=
  ⟨0, 99, 3, { z.modPd 0 fun x => { x with seamEnd := some 99 } with fmg := { FmgState.fresh with leaving := [3] } }, by decide⟩

theorem wit_calendarCommandsComplete_8 : ∃ (c : ClusterId) (s : State), ((s.clu? c.val).st = .live) ∧ ((s.clu? c.val).detached = false) ∧ ((s.clu? c.val).packet = false) ∧ ((s.clu? c.val).claimed = false) ∧ (s.pgState (cluPage c.val 0) = 2) :=
  ⟨0, runPg (cluPage 0 0) z, by decide⟩

theorem wit_calendarCommandsComplete_9 : ∃ (c : ClusterId) (s : State), ((s.clu? c.val).st = .lost) :=
  ⟨0, cluS fun k => { k with st := .lost }, by decide⟩

theorem wit_calendarCommandsComplete_10 : ∃ (c : Fin 4) (lost : Nat) (s : State), (tFind s.fmg.claims c.val = some lost) ∧ (∀ i : Fin 64, (s.th (64 * s.spareOf c.val + i.val)).saveReq = none) :=
  ⟨0, 5, fmgZ fun f => { f with claims := [(0, 5)] }, by decide⟩

theorem wit_calendarCommandsComplete_11 : ∃ (c : Fin 4) (i : Fin 64) (lost : Nat) (s : State), (tFind s.fmg.claims c.val = some lost) ∧ ((s.th (64 * s.spareOf c.val + i.val)).saveReq.isSome = true) ∧ ((s.th (64 * s.spareOf c.val + i.val)).sbOwned ≠ 0) ∧ (∀ j : Fin 64, j ≠ i → (s.th (64 * s.spareOf c.val + j.val)).saveReq = none) :=
  ⟨0, 0, 5, { z.modTh 960 (fun x => { x with st := .running, tcb := some 7, saveReq := some (1, 0), sbOwned := 1 }) with fmg := { FmgState.fresh with claims := [(0, 5)] } }, by decide⟩

theorem wit_calendarCommandsComplete_12 : ∃ (c : ClusterId) (s : State), ((s.clu? c.val).st = .lost) ∧ ((s.clu? c.val).packet = true → s.replaced c.val = true) :=
  ⟨0, cluS fun k => { k with st := .lost }, by decide⟩

theorem wit_calendarCommandsComplete_13 : ∃ (c : ClusterId) (e : Nat) (s : State), ((s.clu? c.val).resetEnd = some e) :=
  ⟨0, 500, cluS fun k => { k with st := .resetting, resetEnd := some 500 }, by decide⟩

theorem wit_profileCommandsComplete_2 : ∃ (s : State), (s.mbxBusy = false) ∧ (s.commitOpen = true) :=
  ⟨z.setRb aCommit 31 true, by decide⟩

theorem wit_profileCommandsComplete_3 : ∃ (s : State), (s.mbxBusy = false) ∧ (s.commitOpen = true) :=
  ⟨z.setRb aCommit 31 true, by decide⟩

theorem wit_profileCommandsComplete_9 : ∃ (s : State), (s.sec.hostWait = 0) :=
  ⟨z, by decide⟩

theorem wit_keyCommandsComplete_1 : ∃ (s : State), (s.sec.ownerLock = false) ∧ (∀ i, i < 64 → s.ownerHash.getD i 0 &&& ~~~ s.otpWords.getD i 0 = 0) :=
  ⟨secZ fun x => { x with owner := [] }, by decide⟩

theorem wit_keyCommandsComplete_2 : ∃ (s : State), (s.sec.ownerLock = true) :=
  ⟨secZ fun x => { x with ownerLock := true }, by decide⟩

theorem wit_keyCommandsComplete_3 : ∃ (i : Nat) (s : State), (s.sec.ownerLock = false) ∧ (i < 64) ∧ (s.ownerHash.getD i 0 &&& ~~~ s.otpWords.getD i 0 ≠ 0) :=
  ⟨0, secZ fun x => { x with owner := [1] }, by decide⟩

theorem wit_keyCommandsComplete_5 : ∃ (t : SecTask) (slot : Nat) (kw : Nat) (mask : Nat) (key : List Byte) (s : State) (u : State), (s.secDone = some t) ∧ (t.kek = some (slot, kw, mask, key)) ∧ (kw < 16) ∧ (u = s.secDue) :=
  ⟨{ due := 0, parts := [], size := 0, kek := some (1, 3, 5, [1, 2]) }, 1, 3, 5, [1, 2], { ((secZ fun x => { x with task := some { due := 0, parts := [], size := 0, kek := some (1, 3, 5, [1, 2]) } }).setReg (aMbx 0x100) 0x80000000) with mbxJob := 6 }, _, by decide, by decide, by decide, rfl⟩

theorem wit_keyCommandsComplete_6 : ∃ (s : State) (v : State), (s.mbxBusy = false) ∧ (v = s.setReg (aMbx 0x100) 0x80000000) ∧ (v.keyGate ≠ 0) :=
  ⟨z.setRb (aSec 0x100) 31 true, _, by decide, rfl, by decide⟩

theorem wit_keyCommandsComplete_7 : ∃ (slot : BitVec 6) (key : List Byte) (s : State) (v : State), (s.mbxBusy = false) ∧ (v = s.setReg (aMbx 0x100) 0x80000000) ∧ (v.keyGate = 0) ∧ (tFind s.sec.keks slot.toNat = some key) :=
  ⟨1, [1, 2], secZ fun x => { x with keks := [(1, [1, 2])] }, _, by decide, rfl, by decide⟩

theorem wit_keyCommandsComplete_8 : ∃ (slot : BitVec 6) (s : State) (v : State), (s.mbxBusy = false) ∧ (v = s.setReg (aMbx 0x100) 0x80000000) ∧ (v.keyGate = 0) ∧ (tFind s.sec.keks slot.toNat = none) :=
  ⟨1, secZ fun x => { x with keks := [(2, [1, 2])] }, _, by decide, rfl, by decide⟩

theorem wit_keyCommandsComplete_9 : ∃ (s : State) (v : State), (s.mbxBusy = false) ∧ (v = s.setReg (aMbx 0x100) 0x80000000) ∧ (v.keyGate = 0) :=
  ⟨secZ fun x => { x with keks := [(1, [1, 2])], kekFrom := [(0, 1), (1, 2)] }, _, by decide, rfl, by decide⟩

theorem wit_keyCommandsComplete_10 : ∃ (n : BitVec 7) (s : State) (v : State), (s.mbxBusy = false) ∧ (v = s.setReg (aMbx 0x100) 0x80000000) ∧ (1 ≤ n.toNat) ∧ (n.toNat ≤ 64) ∧ (v.mbxDram = false) :=
  ⟨1, z, _, by decide, rfl, by decide⟩

theorem wit_keyCommandsComplete_11 : ∃ (t : SecTask) (rep : List Byte) (s : State) (u : State), (s.secDone = some t) ∧ (t.kek = none) ∧ (t.parts = [(0, rep)]) ∧ (rep.length ≤ 2048) ∧ (s.mbxDram = false) ∧ (u = s.secDue) :=
  ⟨{ due := 0, parts := [(0, [7, 8, 9])], size := 3, kek := none }, [7, 8, 9], { ((secZ fun x => { x with task := some { due := 0, parts := [(0, [7, 8, 9])], size := 3, kek := none } }).setReg (aMbx 0x100) 0x80000000) with mbxJob := 6 }, _, by decide, by decide, by decide, by decide, by decide, rfl⟩

theorem wit_keyCommandsComplete_12 : ∃ (s : State), (s.rb (ra (mPage 4) 0x020) 31 = false) :=
  ⟨z, by decide⟩

theorem wit_keyCommandsComplete_13 : ∃ (s : State), (2 ^ 20 ≤ s.sec.draws) :=
  ⟨secZ fun x => { x with draws := 1048576 }, by decide⟩

theorem wit_securityCommandsComplete_1 : ∃ (s : State), (s.mbxBusy = false) ∧ (s.sec.zeroEnd = none) :=
  ⟨secZ fun x => { x with keks := [(1, [1, 2])], kekFrom := [(0, 1), (1, 2)] }, by decide⟩

theorem wit_securityCommandsComplete_2 : ∃ (s : State) (v : State), (v = s.secDue) ∧ (v.mbxBusy = true) ∧ (v.sec.zeroEnd.isSome = true) :=
  ⟨{ (secZ fun x => { x with zeroEnd := some 9 }).setRb (aMbx 0x100) 31 true with mbxJob := 4 }, _, rfl, by decide⟩

theorem wit_securityCommandsComplete_3 : ∃ (t : SecTask) (s : State), (s.mbxBusy = true) ∧ (s.mbxJob = 6) ∧ (s.sec.task = some t) ∧ (s.now < t.due) ∧ (s.sec.zeroEnd = none) :=
  ⟨{ due := 5, parts := [], size := 0, kek := none }, { ((secZ fun x => { x with task := some { due := 5, parts := [], size := 0, kek := none } }).setReg (aMbx 0x100) 0x80000000) with mbxJob := 6 }, by decide⟩

theorem wit_securityCommandsComplete_4 : ∃ (n : Nat) (s : State), (100 ≤ n) ∧ (s.sec.zeroEnd = none) :=
  ⟨100, z, by decide⟩

theorem wit_securityCommandsComplete_5 : ∃ (n : Nat) (s : State), (100 ≤ n) ∧ (s.sec.zeroEnd = none) :=
  ⟨10001, z, by decide⟩

theorem wit_securityCommandsComplete_6 : ∃ (n : Nat), (n < 20) :=
  ⟨19, by decide⟩

theorem wit_securityCommandsComplete_7 : ∃ (n : Nat), (n < 20) :=
  ⟨0, by decide⟩

theorem wit_securityCommandsComplete_8 : ∃ (s : State), (s.sec.pins = 1) ∧ (s.sec.zeroEnd = none) :=
  ⟨secZ fun x => { x with pins := 1 }, by decide⟩

theorem wit_securityCommandsComplete_9 : ∃ (s : State), (s.sec.pins = 2) ∧ (s.sec.zeroEnd = none) :=
  ⟨secZ fun x => { x with pins := 2 }, by decide⟩

theorem wit_securityCommandsComplete_10 : ∃ (e : Nat) (s : State), (s.sec.zeroEnd = some e) ∧ (s.sec.pins = 0) :=
  ⟨9, secZ fun x => { x with zeroEnd := some 9 }, by decide⟩

theorem wit_securityCommandsComplete_11 : ∃ (s : State) (v : State), (s.mbxBusy = false) ∧ (s.tampered = false) ∧ (s.rb (aSec 0x100) 25 = false) ∧ (s.rngFailed = false) ∧ (v = s.upTo s.rngAt) :=
  ⟨z, _, by decide, by decide, by decide, by decide, rfl⟩

theorem wit_securityCommandsComplete_14 : ∃ (s : State), (s.mbxBusy = false) ∧ (s.tampered = false) :=
  ⟨z, by decide⟩

theorem wit_securityCommandsComplete_15 : ∃ (s : State) (v : State), (s.tampered = false) ∧ (s.rb (aSec 0x100) 25 = false) ∧ (s.rngFailed = false) ∧ (v = s.upTo s.rngAt) :=
  ⟨z, _, by decide, by decide, by decide, rfl⟩

theorem wit_securityCommandsComplete_18 : ∃ (t : List Byte) (c : TapScan) (s : State), (s.tampered = true) ∧ (c = .challenge ∨ c = .unlock t ∨ c = .lock) :=
  ⟨[], .lock, z.setRb (aSec 0x100) 29 true, by decide⟩

theorem wit_securityCommandsComplete_19 : ∃ (s : State), (s.tampered = false) :=
  ⟨z, by decide⟩

theorem wit_securityCommandsComplete_20 : ∃ (b : List Byte) (e : Nat) (s : State), (s.sec.chal = some (b, e)) :=
  ⟨[1, 2], 99, secZ fun x => { x with chal := some ([1, 2], 99) }, by decide⟩

theorem wit_feedCommandsComplete_1 : ∃ (s : State), (s.pwr.main = true) ∧ (s.pwr.bkp = true) ∧ (s.pwr.carrier = 1) :=
  ⟨pwrZ fun x => { x with main := true, bkp := true, carrier := 1 }, by decide⟩

theorem wit_feedCommandsComplete_2 : ∃ (s : State), (s.pwr.main = true) ∧ (s.pwr.bkp = true) ∧ (s.pwr.carrier = 2) :=
  ⟨pwrZ fun x => { x with main := true, bkp := true, carrier := 2 }, by decide⟩

theorem wit_feedCommandsComplete_3 : ∃ (s : State), (s.pwr.main = true) ∧ (s.pwr.bkp = true) ∧ (s.pwr.carrier = 2) :=
  ⟨pwrZ fun x => { x with main := true, bkp := true, carrier := 2 }, by decide⟩

theorem wit_feedCommandsComplete_4 : ∃ (s : State), (s.pwr.main = true) ∧ (s.pwr.bkp = true) ∧ (s.pwr.carrier = 1) :=
  ⟨pwrZ fun x => { x with main := true, bkp := true, carrier := 1 }, by decide⟩

theorem wit_feedCommandsComplete_5 : ∃ (s : State), (s.pwr.main = true) ∧ (s.pwr.bkp = false) :=
  ⟨pwrZ fun x => { x with main := true, carrier := 1 }, by decide⟩

theorem wit_feedCommandsComplete_6 : ∃ (s : State), (s.pwr.main = false) ∧ (s.pwr.bkp = true) :=
  ⟨pwrZ fun x => { x with bkp := true, carrier := 2 }, by decide⟩

theorem wit_feedCommandsComplete_7 : ∃ (s : State), (s.pwr.main = false) :=
  ⟨z, by decide⟩

theorem wit_feedCommandsComplete_8 : ∃ (s : State), (s.pwr.bkp = false) :=
  ⟨z, by decide⟩

theorem wit_feedCommandsComplete_9 : ∃ (s : State), (s.pwr.main = true) ∧ (s.pwr.carrier ≠ 2 ∨ s.pwr.defEnd.isSome = true) :=
  ⟨pwrZ fun x => { x with main := true, carrier := 1 }, by decide⟩

theorem wit_feedCommandsComplete_10 : ∃ (s : State), (s.pwr.main = true) ∧ (s.pwr.carrier = 2) ∧ (s.pwr.defEnd = none) :=
  ⟨pwrZ fun x => { x with main := true, bkp := true, carrier := 2 }, by decide⟩

theorem wit_feedCommandsComplete_11 : ∃ (s : State), (s.pwr.bkp = true) :=
  ⟨pwrZ fun x => { x with bkp := true }, by decide⟩

theorem wit_feedCommandsComplete_12 : ∃ (s : State), (s.pwr.main = false) ∧ (s.pwr.bkp = false) ∧ (s.pwr.carrier = 0) ∧ (s.pwr.upEnd = none) :=
  ⟨z, by decide⟩

theorem wit_feedCommandsComplete_13 : ∃ (s : State), (s.pwr.main = false) ∧ (s.pwr.bkp = false) ∧ (s.pwr.carrier = 0) ∧ (s.pwr.upEnd = none) :=
  ⟨z, by decide⟩

theorem wit_feedCommandsComplete_14 : ∃ (t : Nat) (s : State), (s.pwr.main = false) ∧ (s.pwr.bkp = false) ∧ (s.pwr.carrier = 0) ∧ (s.pwr.upEnd = some t) :=
  ⟨9, pwrZ fun x => { x with upEnd := some 9 }, by decide⟩

theorem wit_feedCommandsComplete_15 : ∃ (t : Nat) (s : State), (s.pwr.main = false) ∧ (s.pwr.bkp = false) ∧ (s.pwr.carrier = 0) ∧ (s.pwr.upEnd = some t) :=
  ⟨9, pwrZ fun x => { x with upEnd := some 9 }, by decide⟩

theorem wit_feedCommandsComplete_16 : ∃ (s : State), (s.pwr.main = false) ∧ (s.pwr.carrier = 2) :=
  ⟨pwrZ fun x => { x with bkp := true, carrier := 2 }, by decide⟩

theorem wit_feedCommandsComplete_17 : ∃ (s : State), (s.pwr.bkp = false) ∧ (s.pwr.carrier = 1) :=
  ⟨pwrZ fun x => { x with main := true, carrier := 1 }, by decide⟩

theorem wit_feedCommandsComplete_18 : ∃ (t : Nat) (s : State), (s.pwr.holdEnd = some t) ∧ (s.rb (aPwr 0x104) 31 = false) :=
  ⟨9, (pwrZ fun x => { x with main := true, bkp := true, carrier := 2, holdEnd := some 9 }).setRb (aPwr 0x104) 31 false, by decide⟩

theorem wit_feedCommandsComplete_19 : ∃ (t : Nat) (v : Nat) (s : State) (s1 : State), (s.pwr.holdEnd = some t) ∧ (s.rb (aPwr 0x104) 31 = true) ∧ (s1 = s.upTo t) ∧ (s1.nearTarget = some v) :=
  ⟨9, 0, { (pwrZ fun x => { x with main := true, bkp := true, carrier := 2, holdEnd := some 9 }).setRb (aPwr 0x104) 31 true with regs := ((epcZ id).setRb (aPwr 0x104) 31 true).regs, epc := { Epc.fresh with target := 0, len := 100000 } }, _, by decide, by decide, rfl, by decide⟩

theorem wit_feedCommandsComplete_20 : ∃ (t : Nat) (s : State), (s.pwr.defEnd = some t) :=
  ⟨9, pwrZ fun x => { x with main := true, bkp := true, carrier := 2, defEnd := some 9 }, by decide⟩

theorem wit_feedCommandsComplete_21 : ∃ (t : Nat) (s : State), (s.pwr.upEnd = some t) :=
  ⟨9, pwrZ fun x => { x with upEnd := some 9 }, by decide⟩

theorem wit_feedCommandsComplete_22 : ∃ (s : State), (s.pwr.holdEnd = none) :=
  ⟨z, by decide⟩

theorem wit_feedCommandsComplete_23 : ∃ (s : State), (s.pwr.defEnd = none) :=
  ⟨z, by decide⟩

theorem wit_feedCommandsComplete_24 : ∃ (s : State), (s.pwr.upEnd = none) :=
  ⟨z, by decide⟩

theorem wit_feedCommandsComplete_26 : ∃ (l : List (BitVec 10)) (warn : Int) (s : State), (l.length = 46) ∧ (warn = toSigned 8 (s.rf (aPwr 0x160) 7 0)) :=
  ⟨(List.range 46).map (fun i => BitVec.ofNat 10 (1000 + i)), _, z, by decide, rfl⟩

theorem wit_powerCommandsComplete_1 : ∃ (v : Word) (s : State), (s.pwr.dvfs = none) ∧ (fld v 1 0 ≠ s.rf (aPwr 0x120) 5 4) :=
  ⟨1, z.setRf (aPwr 0x120) 5 4 2, by decide⟩

theorem wit_powerCommandsComplete_2 : ∃ (v : Word) (s : State), (s.pwr.dvfs.isSome = true ∨ fld v 1 0 = s.rf (aPwr 0x120) 5 4) :=
  ⟨2, z.setRf (aPwr 0x120) 5 4 2, by decide⟩

theorem wit_powerCommandsComplete_3 : ∃ (t : Nat) (b : Nat) (s : State), (s.pwr.dvfs = some (t, 0, b)) :=
  ⟨2, 5, pwrZ fun x => { x with dvfs := some (2, 0, 5) }, by decide⟩

theorem wit_powerCommandsComplete_4 : ∃ (t : Nat) (b : Nat) (s : State), (s.pwr.dvfs = some (t, 3, b)) ∧ (s.rf (aPwr 0x120) 1 0 = s.rf (aPwr 0x120) 5 4) :=
  ⟨2, 5, (pwrZ fun x => { x with dvfs := some (2, 3, 5) }).setReg (aPwr 0x120) 0x80000022, by decide⟩

theorem wit_powerCommandsComplete_5 : ∃ (t : Nat) (b : Nat) (s : State), (s.pwr.dvfs = some (t, 3, b)) ∧ (s.rf (aPwr 0x120) 1 0 ≠ s.rf (aPwr 0x120) 5 4) :=
  ⟨2, 5, (pwrZ fun x => { x with dvfs := some (2, 3, 5) }).setReg (aPwr 0x120) 0x80000021, by decide⟩

theorem wit_powerCommandsComplete_6 : ∃ (t : Nat) (b : Nat) (c : Nat) (s : State), (t < 4) ∧ (s.pwr.dvfs = some (t, 1, b)) ∧ (c = roundCeil s.cycCeil) ∧ (s.rf (aPwr 0x120) 1 0 = t) :=
  ⟨2, 5, _, (pwrZ fun x => { x with dvfs := some (2, 1, 5) }).setReg (aPwr 0x120) 0x80000012, by decide, by decide, rfl, by decide⟩

theorem wit_powerCommandsComplete_7 : ∃ (t : Nat) (b : Nat) (c : Nat) (s : State), (t < 4) ∧ (s.pwr.dvfs = some (t, 2, b)) ∧ (c = roundCeil s.cycCeil) :=
  ⟨1, 5, _, (pwrZ fun x => { x with dvfs := some (1, 2, 5) }).setReg (aPwr 0x120) 0x80000021, by decide, by decide, rfl⟩

theorem wit_powerCommandsComplete_8 : ∃ (s : State), (s.pwr.dvfs = none) :=
  ⟨z, by decide⟩

theorem wit_powerCommandsComplete_9 : ∃ (s : State), (s.pwr.dvfs = none) :=
  ⟨z, by decide⟩

theorem wit_powerCommandsComplete_10 : ∃ (s : State), (s.pwr.domCmd.isSome = true ∨ s.railsOff = true) :=
  ⟨pwrZ fun x => { x with domCmd := some 5 }, by decide⟩

theorem wit_powerCommandsComplete_11 : ∃ (s : State), (s.pwr.domCmd.isSome = true ∨ s.railsOff = true) :=
  ⟨pwrZ fun x => { x with domCmd := some 5 }, by decide⟩

theorem wit_powerCommandsComplete_12 : ∃ (s : State), (s.pwr.domCmd.isSome = true ∨ s.railsOff = true) :=
  ⟨pwrZ fun x => { x with domCmd := some 5 }, by decide⟩

theorem wit_powerCommandsComplete_13 : ∃ (n : Fin 128) (i : Instr) (s : State), (i ∈ [.domainOn n, .domainIdle n, .domainOff n]) ∧ (s.pwr.domCmd = none) ∧ (s.railsOff = false) ∧ (110 ≤ n.val) :=
  ⟨127, .domainIdle 127, z, by decide⟩

theorem wit_powerCommandsComplete_14 : ∃ (n : Fin 128) (s : State), (s.pwr.domCmd = none) ∧ (s.railsOff = false) ∧ (n.val < 110) ∧ (s.domRefused n.val 0 = true) :=
  ⟨88, runPg (slicePage 0 0 0) (upDom 88 (portZ)), by decide⟩

theorem wit_powerCommandsComplete_15 : ∃ (n : Fin 128) (s : State), (s.pwr.domCmd = none) ∧ (s.railsOff = false) ∧ (n.val < 110) ∧ (s.domRefused n.val 2 = true) :=
  ⟨100, z, by decide⟩

theorem wit_powerCommandsComplete_16 : ∃ (n : Fin 128) (s : State), (s.pwr.domCmd = none) ∧ (s.railsOff = false) ∧ (n.val < 110) ∧ (s.dom n.val ≠ 1) ∧ (s.domChanging n.val = false) :=
  ⟨5, z, by decide⟩

theorem wit_powerCommandsComplete_17 : ∃ (n : Fin 128) (s : State), (s.pwr.domCmd = none) ∧ (s.railsOff = false) ∧ (n.val < 110) ∧ (s.dom n.val ≠ 0) ∧ (s.offOk (domOf n.val) = true) ∧ (s.domChanging n.val = false) :=
  ⟨88, upDom 88 z, by decide⟩

theorem wit_powerCommandsComplete_18 : ∃ (n : Fin 128) (s : State), (s.pwr.domCmd = none) ∧ (s.railsOff = false) ∧ (n.val < 110) ∧ (s.dom n.val ≠ 2) ∧ (s.domRefused n.val 2 = false) ∧ (s.domChanging n.val = false) :=
  ⟨5, upDom 5 z, by decide⟩

theorem wit_powerCommandsComplete_19 : ∃ (n : Nat) (st : Nat) (t : Nat) (s : State), (nextSwitch s.pwr.domSw = some (n, st, t)) ∧ (s.pwr.domCmd = some n) ∧ (st < 3) :=
  ⟨5, 1, 9, pwrZ fun x => { x with domCmd := some 5, domSw := [(5, 1, 9)] }, by decide⟩

theorem wit_powerCommandsComplete_20 : ∃ (n : Nat) (st : Nat) (t : Nat) (s : State), (nextSwitch s.pwr.domSw = some (n, st, t)) ∧ (s.pwr.domCmd = some n) ∧ (st < 3) :=
  ⟨5, 1, 9, pwrZ fun x => { x with domCmd := some 5, domSw := [(5, 1, 9)] }, by decide⟩

theorem wit_powerCommandsComplete_21 : ∃ (s : State), (s.pwr.domSw = []) :=
  ⟨z, by decide⟩

theorem wit_resetCommandsComplete_1 : ∃ (n : Nat), (1000 ≤ n) :=
  ⟨1000, by decide⟩

theorem wit_resetCommandsComplete_2 : ∃ (n : Nat), (n < 100) :=
  ⟨99, by decide⟩

theorem wit_resetCommandsComplete_3 : ∃ (n : Nat), (100 ≤ n) ∧ (n < 1000) :=
  ⟨100, by decide⟩

theorem wit_resetCommandsComplete_8 : ∃ (k : Fin 8) (j : Nat) (s : State) (u : State), (u = s.strike (13, k.val, j)) :=
  ⟨1, 0, portZ, _, rfl⟩

theorem wit_resetCommandsComplete_9 : ∃ (i : Nat) (j : Nat) (s : State) (u : State), (u = s.strike (14, i, j)) :=
  ⟨0, 0, z, _, rfl⟩

theorem wit_channelsOutsideTheirTrainingFault_1 : ∃ (ch : ChannelId) (s : State), (s.rb (aDmcStat ch.val) 28 = true) :=
  ⟨3, z.setRb (aDmcStat 3) 28 true, by decide⟩

theorem wit_channelCommandsComplete_1 : ∃ (ch : ChannelId) (s : State) (v : State), (v = s.upTo (s.tbTick (nextCongr (s.tb + 1) (ch.val * 3125000) 100000000))) ∧ (s.faulted ch.val = true) :=
  ⟨3, z.setRb (aDmcStat 3) 30 true, _, rfl, by decide⟩

theorem wit_channelCommandsComplete_2 : ∃ (ch : ChannelId) (s : State) (v : State), (v = s.upTo (s.tbTick (nextCongr (s.tb + 1) (ch.val * 3125000) 100000000))) ∧ (s.faulted ch.val = false) ∧ (s.retire = none) :=
  ⟨3, z, _, rfl, by decide⟩

theorem wit_channelCommandsComplete_3 : ∃ (ch : ChannelId) (p : Nat) (s : State), (s.faulted ch.val = false) ∧ (s.retire = some (ch.val, p)) ∧ (s.mbxJob = 3) :=
  ⟨3, 77, { z with retire := some (3, 77), mbxJob := 3 }, by decide⟩

theorem wit_channelCommandsComplete_4 : ∃ (k : Fin 4), (k.val ≠ 3) :=
  ⟨2, by decide⟩

theorem wit_channelCommandsComplete_7 : ∃ (ch : ChannelId) (s : State), (s.domIsOn (domStack (ch.val / 16) (ch.val % 16 / 8)) = true) ∧ (s.rb (aDmcStat ch.val) 28 = false) :=
  ⟨3, upDom (domStack 0 0) z, by decide⟩

theorem wit_channelCommandsComplete_8 : ∃ (ch : ChannelId) (s : State), (s.domIsOn (domStack (ch.val / 16) (ch.val % 16 / 8)) = true) ∧ (s.rb (aDmcStat ch.val) 28 = true) :=
  ⟨3, upDom (domStack 0 0) (z.setRb (aDmcStat 3) 28 true), by decide⟩

theorem wit_channelCommandsComplete_9 : ∃ (ch : ChannelId) (d : PDie) (w : Fin 4) (i : Instr) (s : State), ((i = .channelReset ch ∧ s.domIsOn (domStack (ch.val / 16) (ch.val % 16 / 8)) = false) ∨ (i = .mirrorResync d w ∧ s.domIsOn (domStack d.val 0) = false)) :=
  ⟨3, 0, 1, .channelReset 3, z, by decide⟩

theorem wit_channelCommandsComplete_10 : ∃ (ch : ChannelId) (s : State), (s.rb (aDmcStat ch.val) 28 = true) :=
  ⟨3, { z.setReg (aDmcStat 3) 0x50000000 with dram := { cells := [(64, 1), (3 * 64 + 2 ^ 30, 2)], poison := [], hurt := [] } }, by decide⟩

theorem wit_channelCommandsComplete_11 : ∃ (ch : ChannelId) (s : State), (s.rb (aDmcStat ch.val) 28 = true) :=
  ⟨3, { z.setReg (aDmcStat 3) 0x50000000 with dram := { cells := [(64, 1), (3 * 64 + 2 ^ 30, 2)], poison := [], hurt := [] } }, by decide⟩

theorem wit_channelCommandsComplete_12 : ∃ (ch : ChannelId) (s : State), (s.rb (aDmcStat ch.val) 28 = false) :=
  ⟨3, z, by decide⟩

theorem wit_channelCommandsComplete_13 : ∃ (d : PDie) (w : Fin 4) (k : Fin 16) (s : State), (s.rb (aMir d.val w.val) 31 = true) ∧ (tFind s.resync ((4 * d.val + w.val) * 16 + k.val) = some 0) ∧ (s.faulted (16 * d.val + k.val) = false) ∧ (s.domIsOn (domStack d.val 0) = true) :=
  ⟨0, 1, 3, upDom (domStack 0 0) { z.setReg (aMir 0 1) 0xC0000000 with resync := [(19, 0)] }, by decide⟩

theorem wit_channelCommandsComplete_14 : ∃ (d : PDie) (w : Fin 4) (s : State), (s.domIsOn (domStack d.val 0) = true) ∧ (s.rb (aMir d.val w.val) 31 = false) :=
  ⟨0, 1, upDom (domStack 0 0) z, by decide⟩

theorem wit_channelCommandsComplete_15 : ∃ (d : PDie) (w : Fin 4) (k : Fin 16) (s : State), (tFind s.resync ((4 * d.val + w.val) * 16 + k.val) = some 1) :=
  ⟨0, 1, 3, { z.setReg (aMir 0 1) 0xE0000000 with resync := [(19, 1)] }, by decide⟩

theorem wit_channelCommandsComplete_16 : ∃ (d : PDie) (w : Fin 4) (s : State), (s.resyncing d.val w.val 1 = []) :=
  ⟨0, 1, z, by decide⟩

theorem wit_channelCommandsComplete_17 : ∃ (ch : ChannelId) (n : Nat) (p : Nat) (s : State), (n = s.rf (aRef ch.val) 3 0) ∧ (p = tGet (fun _ => 0) s.pulled ch.val) :=
  ⟨3, _, _, z.setReg (aRef 3) 4, rfl, rfl⟩

theorem wit_channelCommandsComplete_18 : ∃ (ch : ChannelId) (m : Byte) (rate : Nat) (n : Nat) (s : State), (rate = Config.mr4Rate m.toNat) ∧ (n = s.rf (aRef ch.val) 3 0) :=
  ⟨3, 0x85, _, _, z.setReg (aRef 3) 4, rfl, rfl⟩

theorem wit_memoryServiceCommandsComplete_1 : ∃ (ch : ChannelId) (s : State), (s.domIsOn (domStack (ch.val / 16) (ch.val % 16 / 8)) = false) :=
  ⟨3, z, by decide⟩

theorem wit_memoryServiceCommandsComplete_2 : ∃ (ch : ChannelId) (p : Nat) (n : Nat) (s : State), (s.domIsOn (domStack (ch.val / 16) (ch.val % 16 / 8)) = true) ∧ (p = s.rf (ra (dmcPage ch.val) 0x130) 19 0) ∧ (n = s.rf (ra (dmcPage ch.val) 0x134) 20 0) ∧ (s.filling ch.val = true) :=
  ⟨3, _, _, upDom (domStack 0 0) (z.setReg (aFill 3) 0x80000000), by decide, rfl, rfl, by decide⟩

theorem wit_memoryServiceCommandsComplete_3 : ∃ (ch : ChannelId) (p : Nat) (n : Nat) (s : State), (s.domIsOn (domStack (ch.val / 16) (ch.val % 16 / 8)) = true) ∧ (p = s.rf (ra (dmcPage ch.val) 0x130) 19 0) ∧ (n = s.rf (ra (dmcPage ch.val) 0x134) 20 0) ∧ (s.filling ch.val = false) ∧ (s.fillOk ch.val p n = false) :=
  ⟨3, _, _, upDom (domStack 0 0) (z.setReg (ra (dmcPage 3) 0x130) 0xFFFFF), by decide, rfl, rfl, by decide⟩

theorem wit_memoryServiceCommandsComplete_4 : ∃ (ch : ChannelId) (p : Nat) (n : Nat) (s : State), (s.domIsOn (domStack (ch.val / 16) (ch.val % 16 / 8)) = true) ∧ (p = s.rf (ra (dmcPage ch.val) 0x130) 19 0) ∧ (n = s.rf (ra (dmcPage ch.val) 0x134) 20 0) ∧ (s.filling ch.val = false) ∧ (s.fillOk ch.val p n = true) :=
  ⟨3, _, _, upDom (domStack 0 0) (z.setReg (ra (dmcPage 3) 0x134) 2), by decide, rfl, rfl, by decide⟩

theorem wit_memoryServiceCommandsComplete_5 : ∃ (ch : ChannelId) (p : Nat) (n : Nat) (pat : Nat) (s : State), (tFind s.fills ch.val = some (p, n, pat)) ∧ (p + n ≤ 1048512) :=
  ⟨3, 5, 2, 0x1122334455667788, { z with fills := [(3, (5, 2, 0x1122334455667788))] }, by decide⟩

theorem wit_memoryServiceCommandsComplete_6 : ∃ (ch : ChannelId) (s : State), (tFind s.fills ch.val = none) :=
  ⟨3, z, by decide⟩

theorem wit_memoryServiceCommandsComplete_7 : ∃ (d : Nat) (p : Nat) (n : Nat) (s : State), (d = s.rf (aHst 0x140) 0 0) ∧ (p = s.rf (aHst 0x144) 19 0) ∧ (n = s.rf (aHst 0x148) 20 0) ∧ (s.hstFill.isSome = true) :=
  ⟨_, _, _, { z with hstFill := some 0 }, rfl, rfl, rfl, by decide⟩

theorem wit_memoryServiceCommandsComplete_8 : ∃ (d : Nat) (p : Nat) (n : Nat) (s : State), (d = s.rf (aHst 0x140) 0 0) ∧ (p = s.rf (aHst 0x144) 19 0) ∧ (n = s.rf (aHst 0x148) 20 0) ∧ (s.hstFill = none) ∧ (∃ k, k < 16 ∧ (s.filling (16 * d + k) = true ∨ s.fillOk (16 * d + k) p n = false)) :=
  ⟨_, _, _, z.setReg (aHst 0x144) 0xFFFFF, rfl, rfl, rfl, by decide⟩

theorem wit_memoryServiceCommandsComplete_9 : ∃ (d : Nat) (p : Nat) (n : Nat) (s : State), (d = s.rf (aHst 0x140) 0 0) ∧ (p = s.rf (aHst 0x144) 19 0) ∧ (n = s.rf (aHst 0x148) 20 0) ∧ (s.hstFill = none) ∧ (∀ k, k < 16 → s.filling (16 * d + k) = false ∧ s.fillOk (16 * d + k) p n = true) :=
  ⟨_, _, _, z.setReg (aHst 0x148) 2, rfl, rfl, rfl, by decide⟩

theorem wit_memoryServiceCommandsComplete_10 : ∃ (d : Nat) (s : State), (s.hstFill = some d) ∧ (∀ k, k < 16 → s.filling (16 * d + k) = false) :=
  ⟨1, { z with hstFill := some 1 }, by decide⟩

theorem wit_memoryServiceCommandsComplete_11 : ∃ (s : State), (s.hstFill = none) :=
  ⟨z, by decide⟩

theorem wit_memoryServiceCommandsComplete_12 : ∃ (k : BitVec 4) (i : BitVec 6) (a : BitVec 36) (n : Word) (s : State), (s.mbxBusy = false) ∧ (k.toNat ∈ [3, 5, 6, 7]) ∧ (i.toNat < 2) ∧ (a.toNat % 8 = 0) ∧ (n.toNat % 8 = 0) ∧ (a.toNat + n.toNat ≤ arrayBytes k.toNat) ∧ (∀ j, j < n.toNat / 8 → s.recFlaw k.toNat i.toNat (a.toNat + 8 * j) = none) :=
  ⟨5, 1, 64, 128, z, by decide⟩

theorem wit_memoryServiceCommandsComplete_13 : ∃ (k : BitVec 4) (i : BitVec 6) (a : BitVec 36) (f : Flaw) (s : State), (s.mbxBusy = false) ∧ (k.toNat ∈ [3, 5, 6, 7]) ∧ (i.toNat < 2) ∧ (a.toNat % 8 = 0) ∧ (a.toNat + 8 ≤ arrayBytes k.toNat) ∧ (s.recFlaw k.toNat i.toNat a.toNat = some f) :=
  ⟨3, 0, 0, { ue := true, word := 0, bit := 0, synd := 0 }, { z with ftBad := [(ftKey 0 false 0, { ue := true, word := 0, bit := 0, synd := 0 })] }, by decide⟩

theorem wit_memoryServiceCommandsComplete_14 : ∃ (i : BitVec 6) (a : BitVec 36) (w : Nat) (s : State), (s.mbxBusy = false) ∧ (a.toNat % 8 = 0) ∧ (a.toNat + 8 ≤ 2 ^ 20) ∧ (w = (i.toNat * 2 ^ 20 + a.toNat) / 8) :=
  ⟨2, 64, _, { z with cmem := { cells := [(2 * 2 ^ 20 + 64, 3)], poison := [], hurt := [] } }, by decide, by decide, by decide, rfl⟩

theorem wit_memoryServiceCommandsComplete_15 : ∃ (k : BitVec 4) (a : BitVec 36) (n : Word) (s : State), (s.mbxBusy = false) ∧ (8 < k.toNat ∨ a.toNat % 8 ≠ 0 ∨ n.toNat % 8 ≠ 0) :=
  ⟨9, 0, 8, z, by decide⟩

theorem wit_memoryServiceCommandsComplete_16 : ∃ (k : BitVec 4) (ch : BitVec 5) (p : BitVec 20) (m : Nat) (s : State), (s.mbxBusy = false) ∧ (k.toNat = ch.toNat / 16) ∧ (p.toNat < 1048512) ∧ (∀ n, n < 64 → s.rb (aRemap ch.toNat n) 31 = true → s.rf (aRemap ch.toNat n) 19 0 ≠ p.toNat) ∧ (m < 64) ∧ (s.rb (aRemap ch.toNat m) 31 = false) ∧ (∀ n, n < m → s.rb (aRemap ch.toNat n) 31 = true) :=
  ⟨0, 3, 77, 0, z, by decide⟩

theorem wit_memoryServiceCommandsComplete_17 : ∃ (k : BitVec 4) (ch : BitVec 5) (p : BitVec 20) (n : Nat) (s : State), (s.mbxBusy = false) ∧ (k.toNat = ch.toNat / 16) ∧ (p.toNat < 1048512) ∧ (n < 64) ∧ (s.rb (aRemap ch.toNat n) 31 = true) ∧ (s.rf (aRemap ch.toNat n) 19 0 = p.toNat) :=
  ⟨0, 3, 77, 5, z.setReg (aRemap 3 5) 0x8000004D, by decide⟩

theorem wit_memoryServiceCommandsComplete_18 : ∃ (k : BitVec 4) (i : BitVec 6) (b : Word) (s : State), (s.mbxBusy = false) ∧ (2 ≤ k.toNat) ∧ (k.toNat ≤ 8) ∧ (i.toNat < arrayInsts k.toNat) ∧ (b.toNat * 32768 < arrayBytes k.toNat) ∧ (s.sparesUsed k.toNat i.toNat < 2) :=
  ⟨5, 1, 0, z, by decide⟩

theorem wit_memoryServiceCommandsComplete_19 : ∃ (k : BitVec 4) (i : BitVec 6) (b : Word) (s : State), (s.mbxBusy = false) ∧ (2 ≤ k.toNat) ∧ (k.toNat ≤ 8) ∧ (i.toNat < arrayInsts k.toNat) ∧ (b.toNat * 32768 < arrayBytes k.toNat) ∧ (arraySpares k.toNat ≤ s.sparesUsed k.toNat i.toNat) :=
  ⟨5, 1, 0, { z with banks := [(321 * 4, 7), (321 * 4 + 1, 8)] }, by decide⟩

theorem wit_memoryServiceCommandsComplete_20 : ∃ (k : BitVec 4) (i : BitVec 6) (b : Nat) (s : State), (s.retire = some (k.toNat * 64 + i.toNat, b)) ∧ (s.mbxJob = 4) :=
  ⟨5, 1, 7, { z with retire := some (321, 7), mbxJob := 4 }, by decide⟩

theorem wit_memoryServiceCommandsComplete_21 : ∃ (s : State), (s.mbxJob ≠ 4) :=
  ⟨z, by decide⟩

theorem wit_faultCommandsComplete_1 : ∃ (a : List FmgEntry) (b : List FmgEntry) (e : FmgEntry) (s : State), (s.fmgq = a ++ e :: b) ∧ (∀ x ∈ a, x.cls < e.cls) ∧ (∀ x ∈ b, x.cls ≤ e.cls) :=
  ⟨[({ cls := 1, source := 1, cause := 2, page := 3, tb := 4 } : FmgEntry)], [({ cls := 2, source := 1, cause := 2, page := 3, tb := 4 } : FmgEntry)], ({ cls := 3, source := 1, cause := 2, page := 3, tb := 4 } : FmgEntry), { z with fmgq := [({ cls := 1, source := 1, cause := 2, page := 3, tb := 4 } : FmgEntry), ({ cls := 3, source := 1, cause := 2, page := 3, tb := 4 } : FmgEntry), ({ cls := 2, source := 1, cause := 2, page := 3, tb := 4 } : FmgEntry)] }, by decide⟩

theorem wit_faultCommandsComplete_2 : ∃ (s : State), (s.fmgq = []) :=
  ⟨z, by decide⟩

theorem wit_faultCommandsComplete_5 : ∃ (l : Link) (s : State), (tFind s.repairs (linkNo l) = some 1) :=
  ⟨.cp 1 0, { z with repairs := [(linkNo (.cp 1 0), 1)] }, by decide⟩

theorem wit_faultCommandsComplete_6 : ∃ (l : Link) (s : State), (tFind s.repairs (linkNo l) = some 1) :=
  ⟨.cp 1 0, { z with repairs := [(linkNo (.cp 1 0), 1)] }, by decide⟩

theorem wit_faultCommandsComplete_7 : ∃ (l : Link) (s : State), (tFind s.repairs (linkNo l) ≠ some 1) :=
  ⟨.mdie 2, z, by decide⟩

theorem wit_hostDataCommandsComplete_1 : ∃ (s : State), (s.perst = true) :=
  ⟨{ z with perst := true }, by decide⟩

theorem wit_hostDataCommandsComplete_2 : ∃ (s : State), (s.perst = true) :=
  ⟨{ z with perst := true }, by decide⟩

theorem wit_hostDataCommandsComplete_3 : ∃ (a : BitVec 36) (n : Nat) (s : State), (s.perst = false) ∧ (s.dramRange a.toNat n = true) ∧ (∀ x, a.toNat / 8 ≤ x → x < (a.toNat + n + 7) / 8 → s.mirOf (8 * x) = none ∧ s.faulted (dramChan (8 * x)) = false ∧ s.dram.code arrDram x = 0 ∧ tFind s.linkErr (dramChan (8 * x)) = none) :=
  ⟨64, 16, { dramW 64 [1, 2, 3, 4, 5] z with perst := false }, by decide, by decide, all_range (by decide)⟩

theorem wit_hostDataCommandsComplete_4 : ∃ (a : BitVec 36) (s : State), (s.perst = false) ∧ (s.dramRange a.toNat 8 = true) ∧ (a.toNat % 8 = 0) ∧ (s.mirOf a.toNat = none) ∧ (s.faulted (dramChan a.toNat) = false) ∧ (s.dram.code arrDram (a.toNat / 8) = 2) ∧ (tFind s.linkErr (dramChan a.toNat) = none) :=
  ⟨64, { z with perst := false, dram := { cells := [], poison := [(8, ())], hurt := [] } }, by decide⟩

theorem wit_hostDataCommandsComplete_5 : ∃ (a : BitVec 36) (n : Nat) (s : State), (s.perst = false) ∧ (s.dramRange a.toNat n = false) :=
  ⟨0xFFFFFFFFF, 8, { z with perst := false }, by decide⟩

theorem wit_hostDataCommandsComplete_6 : ∃ (a : BitVec 36) (b : List Byte) (s : State), (s.perst = false) ∧ (s.dramRange a.toNat b.length = false) :=
  ⟨0xFFFFFFFFF, [1], { z with perst := false }, by decide⟩

theorem wit_hostDataCommandsComplete_7 : ∃ (a : BitVec 36) (b : List Byte) (s : State), (s.perst = false) ∧ (s.dramRange a.toNat b.length = true) ∧ (a.toNat % 8 = 0) ∧ (b.length % 8 = 0) ∧ (∀ x, a.toNat ≤ x → x < a.toNat + b.length → s.mirOf x = none ∧ s.faulted (dramChan x) = false) :=
  ⟨64, [1, 2, 3, 4, 5, 6, 7, 8], { dramW 64 [1, 2, 3, 4, 5] z with perst := false }, by decide, by decide, by decide, by decide, all_range (by decide)⟩

theorem wit_hostDataCommandsComplete_8 : ∃ (q : Fin 16) (s : State), (s.dmaOn q.val = true) :=
  ⟨3, upDom 110 z, by decide⟩

theorem wit_hostDataCommandsComplete_9 : ∃ (q : Fin 16) (s : State), (s.dmaOn q.val = true) :=
  ⟨3, upDom 110 z, by decide⟩

theorem wit_hostDataCommandsComplete_10 : ∃ (q : Fin 16) (i : BitVec 16) (c : Instr) (s : State), (c ∈ [.dmaPuntTail q i, .dmaInjectTail q i]) ∧ (s.dmaOn q.val = false) :=
  ⟨3, 9, .dmaInjectTail 3 9, z, by decide⟩

theorem wit_hostDataCommandsComplete_11 : ∃ (q : Fin 16) (s : State), (tGet (fun _ => []) s.punts q.val = []) :=
  ⟨3, z, by decide⟩

theorem wit_hostDataCommandsComplete_12 : ∃ (q : Fin 16) (p : Punt) (r : List Punt) (s : State), (tGet (fun _ => []) s.punts q.val = p :: r) ∧ (s.dmaPosted q.val 0x110 = false) :=
  ⟨3, { pkt := pk, cause := 0, copy := false }, [], puntZ (upDom 110 z), by decide⟩

theorem wit_hostDataCommandsComplete_13 : ∃ (q : Fin 16) (p : Punt) (r : List Punt) (e : Nat) (len : Nat) (w : List Byte) (f : List Byte × Bool × State) (s : State), (tGet (fun _ => []) s.punts q.val = p :: r) ∧ (s.dmaPosted q.val 0x110 = true) ∧ (s.dmaDest q.val = false) ∧ (e = s.dmaHead q.val 0x110 64) ∧ (w = s.hostRead e 12) ∧ (len = leAt w 8 2) ∧ (p.pkt.len ≤ len) ∧ (f = State.readFrame { s with punts := tSet (fun _ => []) s.punts q.val r } (p.pkt.port / 64 % 2) p.pkt.handle) ∧ (f.2.1 = false) :=
  ⟨3, { pkt := pk, cause := 0, copy := false }, [], _, _, _, _, puntZ (withBuf 5 (hostRingZ [0x1000, 0, 64] (ringsZ poolZ))), by decide, by decide, by decide, rfl, rfl, rfl, by decide, rfl, by decide⟩

theorem wit_hostDataCommandsComplete_14 : ∃ (q : Fin 16) (p : Punt) (r : List Punt) (e : Nat) (w : List Byte) (s : State), (tGet (fun _ => []) s.punts q.val = p :: r) ∧ (s.dmaPosted q.val 0x110 = true) ∧ (s.dmaDest q.val = false) ∧ (e = s.dmaHead q.val 0x110 64) ∧ (w = s.hostRead e 12) ∧ (leAt w 8 2 < p.pkt.len) :=
  ⟨3, { pkt := pk, cause := 0, copy := false }, [], _, _, puntZ (hostRingZ [0x1000, 0, 63] (ringsZ z)), by decide, by decide, by decide, rfl, rfl, by decide⟩

theorem wit_hostDataCommandsComplete_15 : ∃ (q : Fin 16) (t : Nat) (s : State), ((tGet (fun _ => Pair.idle) s.dpairs q.val).due = some t) :=
  ⟨3, 77, { z with dpairs := [(3, { last := none, due := some 77 })] }, by decide⟩

theorem wit_hostDataCommandsComplete_16 : ∃ (q : Fin 16) (s : State), ((tGet (fun _ => Pair.idle) s.dpairs q.val).due = none) :=
  ⟨3, z, by decide⟩

theorem wit_hostDataCommandsComplete_17 : ∃ (q : Fin 16) (s : State), (s.pairOpen q.val = false ∨ s.dmaPosted q.val 0x130 = false) :=
  ⟨3, z, by decide⟩

theorem wit_hostDataCommandsComplete_18 : ∃ (q : Fin 16) (e : Nat) (len : Nat) (w : List Byte) (s : State), (s.pairOpen q.val = true) ∧ (s.dmaPosted q.val 0x130 = true) ∧ (s.dmaDest q.val = false) ∧ (e = s.dmaHead q.val 0x130 32) ∧ (w = s.hostRead e 24) ∧ (len = leAt w 8 4 % 2 ^ 14) ∧ (len < 60 ∨ 10236 < len ∨ 2 ≤ bitsOf (leAt w 12 4) 27 26) :=
  ⟨3, _, _, _, hostRingZ [0x1000, 0, 59, 0, 0, 0] (ringsZ z), by decide, by decide, by decide, rfl, rfl, rfl, by decide⟩

theorem wit_flashCommandsComplete_1 : ∃ (a : Nat) (d : Nat) (n : Nat) (s : State), (s.xspiArgs = (a, d, n)) ∧ (a % 65536 = 0) ∧ (n % 65536 = 0) ∧ (s.dramRange d n = true) ∧ (d % 8 = 0) ∧ (∀ x, d ≤ x → x < d + n → s.mirOf x = none ∧ s.faulted (dramChan x) = false) :=
  ⟨0x10000, 0x100, 0x10000, ((z.setReg (aHst 0x164) 0x10000).setReg (aHst 0x168) 0x100).setReg (aHst 0x170) 0x10000, by decide, by decide, by decide, dramRange_of (by decide) (by decide), by decide, fun x _ _ => clean_of (by decide) (by decide) x⟩

theorem wit_flashCommandsComplete_2 : ∃ (a : Nat) (d : Nat) (n : Nat) (s : State), (s.xspiArgs = (a, d, n)) ∧ (a % 65536 ≠ 0 ∨ n % 65536 ≠ 0 ∨ s.dramRange d n = false) :=
  ⟨0x10001, 0, 0x10000, ((z.setReg (aHst 0x164) 0x10001).setReg (aHst 0x168) 0).setReg (aHst 0x170) 0x10000, by decide⟩

theorem wit_flashCommandsComplete_3 : ∃ (a : Nat) (d : Nat) (n : Nat) (s : State), (s.xspiArgs = (a, d, n)) ∧ (a % 65536 ≠ 0 ∨ n % 65536 ≠ 0 ∨ s.dramRange d n = false) :=
  ⟨0x10001, 0, 0x10000, ((z.setReg (aHst 0x164) 0x10001).setReg (aHst 0x168) 0).setReg (aHst 0x170) 0x10000, by decide⟩

theorem wit_flashCommandsComplete_4 : ∃ (a : Nat) (d : Nat) (n : Nat) (s : State), (s.xspiArgs = (a, d, n)) ∧ (a % 65536 = 0) ∧ (n % 65536 = 0) ∧ (s.dramRange d n = true) ∧ (touchesBoth a n = false) :=
  ⟨0x10000, 0x100, 0x10000, ((z.setReg (aHst 0x164) 0x10000).setReg (aHst 0x168) 0x100).setReg (aHst 0x170) 0x10000, by decide, by decide, by decide, dramRange_of (by decide) (by decide), by decide⟩

theorem wit_flashCommandsComplete_5 : ∃ (a : Nat) (d : Nat) (n : Nat) (s : State), (s.xspiArgs = (a, d, n)) ∧ (a % 65536 = 0) ∧ (n % 65536 = 0) ∧ (touchesBoth a n = false) :=
  ⟨0x10000, 0x100, 0x10000, ((z.setReg (aHst 0x164) 0x10000).setReg (aHst 0x168) 0x100).setReg (aHst 0x170) 0x10000, by decide⟩

theorem wit_flashCommandsComplete_6 : ∃ (a : Nat) (d : Nat) (n : Nat) (s : State), (s.xspiArgs = (a, d, n)) ∧ (a % 65536 ≠ 0 ∨ n % 65536 ≠ 0 ∨ touchesBoth a n = true) :=
  ⟨0x10001, 0, 0x10000, ((z.setReg (aHst 0x164) 0x10001).setReg (aHst 0x168) 0).setReg (aHst 0x170) 0x10000, by decide⟩

theorem wit_debugCommandsComplete_1 : ∃ (o : OwnerId) (c : Instr) (s : State), (c ∈ [.dbgStop o, .dbgResume o, .dbgStep o, .dbgKill o, .runRecord o]) ∧ (s.perm 2 = false) :=
  ⟨16, .dbgKill 16, z, by decide⟩

theorem wit_debugCommandsComplete_2 : ∃ (o : OwnerId) (c : Instr) (s : State), (c ∈ [.dbgStop o, .dbgResume o, .dbgStep o, .dbgKill o, .runRecord o]) ∧ (s.perm 2 = true) ∧ (threadOf o.toNat = none) :=
  ⟨8192, .runRecord 8192, dbgZ 8 id z, by decide⟩

theorem wit_debugCommandsComplete_3 : ∃ (o : OwnerId) (t : Nat) (s : State), (s.perm 2 = true) ∧ (threadOf o.toNat = some t) ∧ (s.dbgLive t = true) ∧ ((s.th t).stopped = false) ∧ ((s.clu? (cluOf t)).packet = false) :=
  ⟨16, 8, dbgZ 8 (fun x => { x with st := .running }) (z), by decide⟩

theorem wit_debugCommandsComplete_4 : ∃ (o : OwnerId) (t : Nat) (s : State), (s.perm 2 = true) ∧ (threadOf o.toNat = some t) ∧ (s.dbgLive t = true) ∧ ((s.th t).stopped = false) ∧ ((s.clu? (cluOf t)).packet = false) :=
  ⟨16, 8, dbgZ 8 (fun x => { x with st := .running }) (z), by decide⟩

theorem wit_debugCommandsComplete_5 : ∃ (o : OwnerId) (t : Nat) (s : State), (s.perm 2 = true) ∧ (threadOf o.toNat = some t) ∧ (s.dbgLive t = true) ∧ ((s.th t).stopped = false) ∧ ((s.clu? (cluOf t)).packet = false) :=
  ⟨16, 8, dbgZ 8 (fun x => { x with st := .running }) (z), by decide⟩

theorem wit_debugCommandsComplete_6 : ∃ (o : OwnerId) (t : Nat) (s : State), (s.perm 2 = true) ∧ (threadOf o.toNat = some t) ∧ (s.dbgLive t = true) ∧ ((s.th t).stopped = false) ∧ ((s.clu? (cluOf t)).packet = true) ∧ ((s.clu? (cluOf t)).detached = false) ∧ ((s.clu? (cluOf t)).st = .live) :=
  ⟨16, 8, dbgZ 8 (fun x => { x with st := .running }) (pktLive), by decide⟩

theorem wit_debugCommandsComplete_7 : ∃ (o : OwnerId) (t : Nat) (s : State), (s.perm 2 = true) ∧ (threadOf o.toNat = some t) ∧ (s.dbgLive t = true) ∧ ((s.th t).stopped = true) :=
  ⟨16, 8, dbgZ 8 (fun x => { x with st := .running, stopped := true }) (z), by decide⟩

theorem wit_debugCommandsComplete_8 : ∃ (o : OwnerId) (t : Nat) (s : State), (s.perm 2 = true) ∧ (threadOf o.toNat = some t) ∧ (s.dbgLive t = true) ∧ ((s.th t).stopped = true) ∧ (∀ e ∈ s.ctxWr, e.1 / 128 ≠ t) ∧ (tFind s.fmg.detached (cluOf t) = none) :=
  ⟨16, 8, dbgZ 8 (fun x => { x with st := .running, stopped := true }) (z), by decide⟩

theorem wit_debugCommandsComplete_9 : ∃ (o : OwnerId) (t : Nat) (s : State), (s.perm 2 = true) ∧ (threadOf o.toNat = some t) ∧ (s.dbgLive t = true) ∧ ((s.th t).stopped = true) ∧ ((s.th t).ended = true) :=
  ⟨16, 8, dbgZ 8 (fun x => { x with st := .running, stopped := true, ended := true }) (z), by decide⟩

theorem wit_debugCommandsComplete_10 : ∃ (o : OwnerId) (t : Nat) (s : State), (s.perm 2 = true) ∧ (threadOf o.toNat = some t) ∧ (s.dbgLive t = true) ∧ ((s.th t).stopped = true) ∧ ((s.th t).st = .running) ∧ ((s.th t).ended = false) ∧ ((s.clu? (cluOf t)).packet = false ∨ s.isDetached (cluOf t) = true) :=
  ⟨16, 8, dbgZ 8 (fun x => { x with st := .running, stopped := true }) (z), by decide⟩

theorem wit_debugCommandsComplete_11 : ∃ (o : OwnerId) (t : Nat) (v : Word) (s : State), (s.perm 2 = true) ∧ (threadOf o.toNat = some t) ∧ (s.dbgLive t = true) ∧ ((s.th t).stopped = true) ∧ (s.ctxWr = [(ctxKey t (8 + 5), v)]) ∧ ((s.th t).waitAt = none) :=
  ⟨16, 8, 77, { dbgZ 8 (fun x => { x with st := .running, stopped := true }) (z) with ctxWr := [(ctxKey 8 (8 + 5), 77)] }, by decide⟩

theorem wit_debugCommandsComplete_12 : ∃ (o : OwnerId) (t : Nat) (s : State), (s.perm 2 = true) ∧ (threadOf o.toNat = some t) ∧ (s.dbgLive t = true) :=
  ⟨16, 8, dbgZ 8 (fun x => { x with st := .running }) (z), by decide⟩

theorem wit_debugCommandsComplete_13 : ∃ (o : OwnerId) (t : Nat) (c : Nat) (s : State), (s.perm 2 = true) ∧ (threadOf o.toNat = some t) ∧ (s.dbgLive t = true) ∧ (s.isDetached (cluOf t) = true) ∧ ((s.th t).st = .idle ∨ s.pktDone t = true) ∧ ((s.th t).stopped = false) ∧ (∀ f ∈ s.flights, f.thread = t → f.buf ≠ 0) ∧ (c = s.cycCeil) :=
  ⟨16, 8, _, dbgZ 8 (fun x => { x with st := .idle }) (pktLive.setClu 0 fun k => { k with detached := true }), by decide, by decide, by decide, by decide, by decide, by decide, by decide, rfl⟩

theorem wit_managementPortCommandsComplete_1 : ∃ (a : BitVec 28) (s : State), (s.perm 0 = false) ∧ (isOpenPage (a.toNat / 4096) = false) :=
  ⟨0x1000000, z, by decide⟩

theorem wit_managementPortCommandsComplete_2 : ∃ (a : BitVec 28) (k : Kind) (i : Nat) (pg : Nat) (s : State) (v : State), (s.perm 0 = true ∨ isOpenPage pg = true) ∧ (a.toNat = pg * 4096 + 0x010) ∧ (pageKind pg = some (k, i)) ∧ (pg / 4096 ≠ 7) ∧ (v = s.secLook pg) :=
  ⟨BitVec.ofNat 28 ((cluPage 3 0) * 4096 + 0x010), .clu, 3, cluPage 3 0, (z.setReg (ra (mPage 4) 0x10C) 7).setReg (ra (cluPage 3 0) 0x010) 5, _, by decide, by decide, by decide, by decide, rfl⟩

theorem wit_managementPortCommandsComplete_3 : ∃ (s : State), (s.perm 1 = false) :=
  ⟨z, by decide⟩

theorem wit_managementPortCommandsComplete_4 : ∃ (a : BitVec 28) (k : Kind) (i : Nat) (pg : Nat) (s : State) (w : State), (s.perm 1 = true) ∧ (a.toNat = pg * 4096 + 0x018) ∧ (pageKind pg = some (k, i)) ∧ (pg / 4096 ≠ 7) ∧ (w = s.secLook pg) :=
  ⟨BitVec.ofNat 28 ((cluPage 3 0) * 4096 + 0x018), .clu, 3, cluPage 3 0, (z.setReg (ra (mPage 4) 0x10C) 7), _, by decide, by decide, by decide, by decide, rfl⟩

theorem wit_managementPortCommandsComplete_12 : ∃ (s : State), (s.perm 0 = false) :=
  ⟨z, by decide⟩

theorem wit_managementPortCommandsComplete_13 : ∃ (s : State), (s.perm 1 = false) :=
  ⟨z, by decide⟩

theorem wit_managementPortCommandsComplete_14 : ∃ (a : BitVec 28) (k : Kind) (i : Nat) (pg : Nat) (s : State) (w : State), (a.toNat = pg * 4096 + 0x018) ∧ (pageKind pg = some (k, i)) ∧ (pg / 4096 ≠ 7) ∧ (s.perm 1 = true) ∧ (w = s.secLook pg) :=
  ⟨BitVec.ofNat 28 ((cluPage 3 0) * 4096 + 0x018), .clu, 3, cluPage 3 0, (z.setReg (ra (mPage 4) 0x10C) 7), _, by decide, by decide, by decide, by decide, rfl⟩

theorem wit_managementPortCommandsComplete_15 : ∃ (a : BitVec 28) (k : Kind) (i : Nat) (pg : Nat) (s : State) (v : State), (a.toNat = pg * 4096 + 0x010) ∧ (pageKind pg = some (k, i)) ∧ (pg / 4096 ≠ 7) ∧ (s.perm 0 = true) ∧ (v = s.secLook pg) :=
  ⟨BitVec.ofNat 28 ((cluPage 3 0) * 4096 + 0x010), .clu, 3, cluPage 3 0, (z.setReg (ra (mPage 4) 0x10C) 7), _, by decide, by decide, by decide, by decide, rfl⟩

theorem wit_pageCommandsComplete_1 : ∃ (pg : Nat) (k : Kind) (i : Nat) (s : State), (pageKind pg = some (k, i)) ∧ (k.hasCtrl = true) ∧ (s.pgState pg ≤ 1) :=
  ⟨cluPage 3 0, .clu, 3, z.setReg (ra (cluPage 3 0) 0x100) 5, by decide⟩

theorem wit_pageCommandsComplete_2 : ∃ (pg : Nat) (k : Kind) (i : Nat) (s : State), (pageKind pg = some (k, i)) ∧ (k.hasCtrl = true) ∧ (2 ≤ s.pgState pg) :=
  ⟨cluPage 3 0, .clu, 3, z.setRf (ra (cluPage 3 0) 0x00C) 3 0 2, by decide⟩

theorem wit_pageCommandsComplete_3 : ∃ (pg : Nat) (c : Instr) (k : Kind) (i : Nat) (b : Bool), (c ∈ [.softRst pg, .pageEnable pg b, .pageStop pg b]) ∧ (pageKind pg = some (k, i)) ∧ (k.hasCtrl = false) :=
  ⟨(cluPage 0 8), .pageStop (cluPage 0 8) true, .kw, 0, true, by decide⟩

theorem wit_pageCommandsComplete_4 : ∃ (pg : Nat) (k : Kind) (i : Nat) (s : State), (pageKind pg = some (k, i)) ∧ (k.hasCtrl = true) ∧ (k ≠ .mac) ∧ (k ≠ .epc) ∧ (s.pgState pg = 0) :=
  ⟨cluPage 3 0, .clu, 3, z, by decide⟩

theorem wit_pageCommandsComplete_5 : ∃ (d : PDie) (sl : Slice) (pg : Nat) (s : State), (pg = macPage d.val sl.val) ∧ (s.pgState pg = 0) ∧ (s.rb (ra pg 0x008) 1 = false) ∧ (quadsOk (s.quads d.val (sl.val / 2 * 2)) (s.quads d.val (sl.val / 2 * 2 + 1)) = true) :=
  ⟨0, 2, _, z, rfl, by decide⟩

theorem wit_pageCommandsComplete_6 : ∃ (d : PDie) (sl : Slice) (pg : Nat) (s : State), (pg = macPage d.val sl.val) ∧ (s.pgState pg = 0) ∧ (s.rb (ra pg 0x008) 1 = false) ∧ (quadsOk (s.quads d.val (sl.val / 2 * 2)) (s.quads d.val (sl.val / 2 * 2 + 1)) = false) :=
  ⟨0, 2, _, (z.setRf (ra (macPage 0 3) 0x100) 1 0 1), rfl, by decide⟩

theorem wit_pageCommandsComplete_7 : ∃ (pg : Nat) (k : Kind) (i : Nat) (s : State), (pageKind pg = some (k, i)) ∧ (k.hasCtrl = true) ∧ (k ≠ .epc) ∧ (s.pgState pg = 2) :=
  ⟨cluPage 3 0, .clu, 3, z.setRf (ra (cluPage 3 0) 0x00C) 3 0 2, by decide⟩

theorem wit_pageCommandsComplete_8 : ∃ (pg : Nat) (k : Kind) (i : Nat) (s : State), (pageKind pg = some (k, i)) ∧ (k.hasCtrl = true) ∧ (k ≠ .epc) ∧ (s.pgState pg = 2) :=
  ⟨cluPage 3 0, .clu, 3, z.setRf (ra (cluPage 3 0) 0x00C) 3 0 2, by decide⟩

theorem wit_pageCommandsComplete_9 : ∃ (pg : Nat) (k : Kind) (i : Nat) (s : State), (pageKind pg = some (k, i)) ∧ (k.hasCtrl = true) ∧ (k ≠ .mac) ∧ (k ≠ .epc) ∧ (s.pgState pg = 1) ∧ (s.rb (ra pg 0x008) 0 = true) :=
  ⟨cluPage 3 0, .clu, 3, (z.setRf (ra (cluPage 3 0) 0x00C) 3 0 1).setReg (ra (cluPage 3 0) 0x008) 3, by decide⟩

theorem wit_pageCommandsComplete_10 : ∃ (pg : Nat) (k : Kind) (i : Nat) (s : State), (pageKind pg = some (k, i)) ∧ (k.hasCtrl = true) ∧ (k ≠ .mac) ∧ (k ≠ .epc) ∧ (s.pgState pg = 1) :=
  ⟨cluPage 3 0, .clu, 3, z.setRf (ra (cluPage 3 0) 0x00C) 3 0 1, by decide⟩

theorem wit_pageCommandsComplete_11 : ∃ (pg : Nat) (k : Kind) (i : Nat) (s : State), (pageKind pg = some (k, i)) ∧ (k ≠ .mac) ∧ (k ≠ .epc) ∧ (s.pgState pg = 3) :=
  ⟨cluPage 3 0, .clu, 3, z.setRf (ra (cluPage 3 0) 0x00C) 3 0 3, by decide⟩

theorem wit_pageCommandsComplete_12 : ∃ (d : PDie) (sl : Slice) (pg : Nat) (ok : Bool) (s : State), (pg = macPage d.val sl.val) ∧ (s.pgState pg = 3) ∧ (ok = quadsOk (s.quads d.val (sl.val / 2 * 2)) (s.quads d.val (sl.val / 2 * 2 + 1))) :=
  ⟨0, 2, _, _, (z.setRf (ra (macPage 0 2) 0x00C) 3 0 3).setReg (ra (macPage 0 2) 0x008) 1, rfl, by decide, rfl⟩

theorem wit_pageCommandsComplete_13 : ∃ (b : Bool) (s : State) (c : Instr), (s.rb (aEpc 0x100) 31 = false) ∧ (s.pgState (mPage 0) ≤ 1) ∧ (c ∈ [Instr.pageEnable (mPage 0) b, .pageStop (mPage 0) b]) :=
  ⟨true, z, .pageEnable (mPage 0) true, by decide⟩

theorem wit_pageCommandsComplete_14 : ∃ (s : State), (s.rb (aEpc 0x100) 31 = true) ∧ (s.pgState (mPage 0) ≤ 1) :=
  ⟨(z.setRb (aEpc 0x100) 31 true).setRf (ra (mPage 0) 0x00C) 3 0 1, by decide⟩

theorem wit_pageCommandsComplete_15 : ∃ (s : State), (s.rb (aEpc 0x100) 31 = true) ∧ (s.pgState (mPage 0) = 2) :=
  ⟨(z.setRb (aEpc 0x100) 31 true).setRf (ra (mPage 0) 0x00C) 3 0 2, by decide⟩

theorem wit_pageCommandsComplete_16 : ∃ (s : State), (s.pgState (mPage 0) = 3) :=
  ⟨(z.setRb (aEpc 0x100) 31 true).setRf (ra (mPage 0) 0x00C) 3 0 3, by decide⟩

theorem wit_pageCommandsComplete_17 : ∃ (pg : Nat) (s : State), (s.pgState pg ≠ 3) :=
  ⟨cluPage 3 0, z.setRf (ra (cluPage 3 0) 0x00C) 3 0 2, by decide⟩

theorem wit_pageCommandsComplete_18 : ∃ (pg : Nat) (i : Nat) (k : Kind) (w : Word) (b : Word), (pageKind pg = some (k, i)) ∧ (b = w &&& k.evtBits) :=
  ⟨cluPage 3 0, 3, .clu, 5, _, by decide, rfl⟩

theorem wit_pageCommandsComplete_19 : ∃ (pg : Nat) (w : Word) (b : Word) (z : State) (s : State), ((pageKind pg).isSome = true) ∧ (s = z.secLook pg) ∧ (b = w &&& ~~~ (s.hwActs (ra pg 0x010)).2) :=
  ⟨cluPage 3 0, 1, _, ((z.setReg (ra (cluPage 3 0) 0x014) 4).setReg (ra (cluPage 3 0) 0x010) 5), ((z.setReg (ra (cluPage 3 0) 0x014) 4).setReg (ra (cluPage 3 0) 0x010) 5).secLook (cluPage 3 0), by decide, by decide, rfl⟩

theorem wit_pageCommandsComplete_20 : ∃ (pg : Nat) (n : Nat) (w : List Word) (s : State), ((pageKind pg).isSome = true) ∧ (s.errsNow pg = some (n, w)) :=
  ⟨cluPage 3 0, 1, [0x80000001, 8, 0, 0], z.err (cluPage 3 0) 0 1 8 0, by decide⟩

theorem wit_pageCommandsComplete_21 : ∃ (pg : Nat) (s : State), ((pageKind pg).isSome = true) ∧ (s.errsNow pg = none) :=
  ⟨cluPage 3 0, z, by decide⟩

theorem wit_registerCommandsComplete_1 : ∃ (a : BitVec 28) (s : State), (s.bar0Shut (a.toNat / 4096) = true) :=
  ⟨5, secZ fun x => { x with hostWait := 1 }, by decide⟩

theorem wit_registerCommandsComplete_2 : ∃ (a : BitVec 28) (s : State), (s.bar0Shut (a.toNat / 4096) = true) :=
  ⟨5, secZ fun x => { x with hostWait := 1 }, by decide⟩

theorem wit_registerCommandsComplete_3 : ∃ (a : BitVec 28) (b : BitVec 4) (s : State), (s.bar0Shut (a.toNat / 4096) = false) ∧ (b.toNat ≠ 15) :=
  ⟨5, 7, z, by decide⟩

theorem wit_registerCommandsComplete_4 : ∃ (a : BitVec 28) (s : State), (s.bar0Shut (a.toNat / 4096) = false) ∧ (pageKind (a.toNat / 4096) = none) ∧ (a.toNat / 4096 / 4096 ≠ 7) :=
  ⟨0x9000, z, by decide⟩

theorem wit_registerCommandsComplete_5 : ∃ (a : BitVec 28) (s : State), (s.bar0Shut (a.toNat / 4096) = false) ∧ (pageKind (a.toNat / 4096) = none) ∧ (a.toNat / 4096 / 4096 ≠ 7) :=
  ⟨0x9000, z, by decide⟩

theorem wit_registerCommandsComplete_6 : ∃ (a : BitVec 28) (k : Kind) (i : Nat) (pg : Nat) (off : Nat) (d : RegDef) (z : State) (s : State), (z.bar0Shut pg = false) ∧ (a.toNat = pg * 4096 + off) ∧ (off < 4096) ∧ (off % 4 = 0) ∧ (0x100 ≤ off) ∧ (pageKind pg = some (k, i)) ∧ (k ∈ [.clu, .cpx, .lx, .sp, .ec, .kw, .rsw, .dsv, .cph, .sds, .frg, .lrn, .xlk, .clk, .sec]) ∧ (s.pageOn k pg = true) ∧ (pg / 4096 ≠ 7) ∧ (regDef? (ra pg off) = some d) ∧ (s = z.secLook pg) :=
  ⟨BitVec.ofNat 28 ((cluPage 3 0) * 4096 + 0x180), .clu, 3, cluPage 3 0, 0x180, (regDef? (ra (cluPage 3 0) 0x180)).getD ⟨0, 0, 0, 0, 0, 0, 0, 0, 0, 0⟩, (upDom (domClu 3) z), (upDom (domClu 3) z).secLook (cluPage 3 0), by decide⟩

theorem wit_registerCommandsComplete_7 : ∃ (a : BitVec 28) (k : Kind) (i : Nat) (pg : Nat) (off : Nat) (s : State), (s.bar0Shut pg = false) ∧ (a.toNat = pg * 4096 + off) ∧ (off < 4096) ∧ (off % 4 = 0) ∧ (0x100 ≤ off) ∧ (pageKind pg = some (k, i)) ∧ (s.pageOn k pg = false) ∧ (pg / 4096 ≠ 7) :=
  ⟨BitVec.ofNat 28 ((cluPage 3 0) * 4096 + 0x100), .clu, 3, cluPage 3 0, 0x100, z, by decide⟩

theorem wit_registerCommandsComplete_8 : ∃ (a : BitVec 28) (k : Kind) (i : Nat) (pg : Nat) (off : Nat) (s : State), (s.bar0Shut pg = false) ∧ (a.toNat = pg * 4096 + off) ∧ (off < 4096) ∧ (off % 4 = 0) ∧ (0x100 ≤ off) ∧ (pageKind pg = some (k, i)) ∧ (s.pageOn k pg = false) ∧ (pg / 4096 ≠ 7) :=
  ⟨BitVec.ofNat 28 ((cluPage 3 0) * 4096 + 0x100), .clu, 3, cluPage 3 0, 0x100, z, by decide⟩

theorem wit_registerCommandsComplete_9 : ∃ (a : BitVec 28) (k : Kind) (i : Nat) (pg : Nat) (off : Nat) (m : Word) (old : Word) (new : Word) (z : State) (s : State), (z.bar0Shut pg = false) ∧ (a.toNat = pg * 4096 + off) ∧ (off < 4096) ∧ (off % 4 = 0) ∧ (0x100 ≤ off) ∧ (pageKind pg = some (k, i)) ∧ (k ∉ [.epc, .mac, .sat, .cmem]) ∧ (s.pageOn k pg = true) ∧ (pg / 4096 ≠ 7) ∧ (m = rcMask (ra pg off)) ∧ (s = z.secLook pg) ∧ (s.hwActs (ra pg off) = (old, new)) :=
  ⟨BitVec.ofNat 28 ((cluPage 3 0) * 4096 + 0x100), .clu, 3, cluPage 3 0, 0x100, _, 0, 0, (upDom (domClu 3) z), (upDom (domClu 3) z).secLook (cluPage 3 0), by decide, by decide, by decide, by decide, by decide, by decide, by decide, by decide, by decide, rfl, by decide⟩

def kek0 : List Byte := (List.range 16).map (BitVec.ofNat 8)
theorem kekOf_idle {s : State} {c : Nat} {b : List Byte} (h : s.mbxJob ≠ 6) : s.kekOf c b = tGet (fun _ => []) s.kek (c * 16 + blkParam b 0 % 16) := by
  simp [State.kekOf, State.kekAt, State.secDone, h]
def unwBlk (opc : Nat) : List Nat := [opc, 0, 24, 0, 0x100, 0xC8000, 0, 0, 0, 0, 0, 0, 0, 0, 0, 0]
/-- The commands that unwrap: for every wrapped key of 24 bytes, which unwraps (clauses 5 and 7) or does not (clause 6), a state holds it. -/
theorem wit_keyWrapCommandsComplete_5 (p q : List Byte) (hp : p.length = 24) (hq : kwUnwrapOk kek0 p = some q) :
    ∃ (c : ClusterId) (k : CopCmd) (b : List Byte) (s s1 : State), s.copNext s1 c.val 3 0x03 k b ∧ blkVar b = 0 ∧ blkLen b 0 % 8 = 0 ∧ 24 ≤ blkLen b 0 ∧
      s1.kekOf c.val b ≠ [] ∧ kwUnwrapOk (s1.kekOf c.val b) p = some q ∧ s1.copMay c.val 3 k [arg b 0 (blkLen b 0) false] [arg b 1 (blkLen b 0 - 8) true] [p] := by
  have hk : ((copZ 3 (ptrF (unwBlk 3) p) id).upToCyc (max 9 ((copZ 3 (ptrF (unwBlk 3) p) id).cop 0 3).freeAt)).kekOf 0 (blk (unwBlk 3)) = kek0 := (kekOf_idle (show (0 : Nat) ≠ 6 by decide)).trans rfl
  refine ⟨0, cmd 0, blk (unwBlk 3), copZ 3 (ptrF (unwBlk 3) p) id, _, copNext_of rfl rfl rfl (by decide), by decide, by decide, by decide, fun e => absurd (hk.symm.trans e) (by decide),
    (congrArg (kwUnwrapOk · p) hk).trans hq, ?_⟩
  have h := copMay_of (s := (copZ 3 (ptrF (unwBlk 3) p) id).upToCyc (max 9 ((copZ 3 (ptrF (unwBlk 3) p) id).cop 0 3).freeAt)) (n := 0x2000) (m := 0x1000)
    (f := ptrF (unwBlk 3) p) (args := [arg (blk (unwBlk 3)) 0 (blkLen (blk (unwBlk 3)) 0) false])
    (dests := [arg (blk (unwBlk 3)) 1 (blkLen (blk (unwBlk 3)) 0 - 8) true]) (x := 3) (k := cmd 0) rfl rfl (by decide)
  rwa [List.map_singleton, operand_ptr (by decide) (by rw [hp]; decide)] at h
theorem wit_keyWrapCommandsComplete_6 (p : List Byte) (hp : p.length = 24) (hq : kwUnwrapOk kek0 p = none) :
    ∃ (c : ClusterId) (k : CopCmd) (b : List Byte) (s s1 : State), s.copNext s1 c.val 3 0x03 k b ∧ blkVar b = 0 ∧ blkLen b 0 % 8 = 0 ∧ 24 ≤ blkLen b 0 ∧
      s1.kekOf c.val b ≠ [] ∧ kwUnwrapOk (s1.kekOf c.val b) p = none ∧ s1.copMay c.val 3 k [arg b 0 (blkLen b 0) false] [arg b 1 (blkLen b 0 - 8) true] [p] := by
  have hk : ((copZ 3 (ptrF (unwBlk 3) p) id).upToCyc (max 9 ((copZ 3 (ptrF (unwBlk 3) p) id).cop 0 3).freeAt)).kekOf 0 (blk (unwBlk 3)) = kek0 := (kekOf_idle (show (0 : Nat) ≠ 6 by decide)).trans rfl
  refine ⟨0, cmd 0, blk (unwBlk 3), copZ 3 (ptrF (unwBlk 3) p) id, _, copNext_of rfl rfl rfl (by decide), by decide, by decide, by decide, fun e => absurd (hk.symm.trans e) (by decide),
    (congrArg (kwUnwrapOk · p) hk).trans hq, ?_⟩
  have h := copMay_of (s := (copZ 3 (ptrF (unwBlk 3) p) id).upToCyc (max 9 ((copZ 3 (ptrF (unwBlk 3) p) id).cop 0 3).freeAt)) (n := 0x2000) (m := 0x1000)
    (f := ptrF (unwBlk 3) p) (args := [arg (blk (unwBlk 3)) 0 (blkLen (blk (unwBlk 3)) 0) false])
    (dests := [arg (blk (unwBlk 3)) 1 (blkLen (blk (unwBlk 3)) 0 - 8) true]) (x := 3) (k := cmd 0) rfl rfl (by decide)
  rwa [List.map_singleton, operand_ptr (by decide) (by rw [hp]; decide)] at h
theorem wit_keyWrapCommandsComplete_7 (p q : List Byte) (hp : p.length = 24) (hq : kwUnwrapOk kek0 p = some q) (hl : q.length = 16 ∨ q.length = 32) :
    ∃ (c : ClusterId) (k : CopCmd) (b : List Byte) (s s1 : State), s.copNext s1 c.val 3 0x04 k b ∧ blkVar b = 0 ∧ blkLen b 0 % 8 = 0 ∧ 24 ≤ blkLen b 0 ∧
      s1.kekOf c.val b ≠ [] ∧ kwUnwrapOk (s1.kekOf c.val b) p = some q ∧ (q.length = 16 ∨ q.length = 32) ∧ s1.copMay c.val 3 k [arg b 0 (blkLen b 0) false] [] [p] := by
  have hk : ((copZ 3 (ptrF (unwBlk 4) p) id).upToCyc (max 9 ((copZ 3 (ptrF (unwBlk 4) p) id).cop 0 3).freeAt)).kekOf 0 (blk (unwBlk 4)) = kek0 := (kekOf_idle (show (0 : Nat) ≠ 6 by decide)).trans rfl
  refine ⟨0, cmd 0, blk (unwBlk 4), copZ 3 (ptrF (unwBlk 4) p) id, _, copNext_of rfl rfl rfl (by decide), by decide, by decide, by decide, fun e => absurd (hk.symm.trans e) (by decide),
    (congrArg (kwUnwrapOk · p) hk).trans hq, hl, ?_⟩
  have h := copMay_of (s := (copZ 3 (ptrF (unwBlk 4) p) id).upToCyc (max 9 ((copZ 3 (ptrF (unwBlk 4) p) id).cop 0 3).freeAt)) (n := 0x2000) (m := 0x1000)
    (f := ptrF (unwBlk 4) p) (args := [arg (blk (unwBlk 4)) 0 (blkLen (blk (unwBlk 4)) 0) false])
    (dests := []) (x := 3) (k := cmd 0) rfl rfl (by decide)
  rwa [List.map_singleton, operand_ptr (by decide) (by rw [hp]; decide)] at h
/-- A context that a save image at 0x100 holds, and an image that is no save image. -/
def restZ (p : List Byte) : State :=
  { z with cmem := flatMem 0x2000 0 (ptrF [] p), cops := [(0, { Cop.idle with queue := [{ cmd 2 with ptr := 0x100 }] })] }
theorem rest_may (p : List Byte) (h : p.length = 256) : ((restZ p).upToCyc 9).copMay 0 0 { cmd 2 with ptr := 0x100 } [saveArg 0 0x100] [] [p] := by
  have h1 := copMay_of (s := (restZ p).upToCyc 9) (n := 0x2000) (m := 0) (f := ptrF [] p) (args := [saveArg 0 0x100]) (dests := []) (x := 0) (k := { cmd 2 with ptr := 0x100 }) rfl rfl (by decide)
  rwa [List.map_singleton, operand_ptr rfl h] at h1
theorem wit_coprocessorContextCommandsComplete_2 : ∃ (c : ClusterId) (n : Fin 4) (k : CopCmd) (x : Cop) (s s1 : State),
    (s.cop c.val n.val).run = none ∧ (s.cop c.val n.val).queue.head? = some k ∧ k.kind = 2 ∧ s1 = s.upToCyc (max k.at_ (s.cop c.val n.val).freeAt) ∧
      s1.copMay c.val n.val k [saveArg n.val k.ptr] [] [saveImage n.val x] ∧ x.state.length ≤ 250 ∧ s.rb (ra (cluPage c.val 4) 0x110) n.val = false :=
  ⟨0, 0, { cmd 2 with ptr := 0x100 }, { Cop.idle with state := [1, 2, 3], valid := true }, restZ (saveImage 0 { Cop.idle with state := [1, 2, 3], valid := true }), _,
    by rfl, by rfl, by decide, rfl, rest_may _ (by rw [saveImage, List.length_append, leBytes_length, saveMasked, List.length_map, List.length_range]), by decide, by rfl⟩
theorem wit_coprocessorContextCommandsComplete_3 : ∃ (c : ClusterId) (n : Fin 4) (k : CopCmd) (p : List Byte) (s s1 : State),
    (s.cop c.val n.val).run = none ∧ (s.cop c.val n.val).queue.head? = some k ∧ k.kind = 2 ∧ s1 = s.upToCyc (max k.at_ (s.cop c.val n.val).freeAt) ∧
      s1.copMay c.val n.val k [saveArg n.val k.ptr] [] [p] ∧ leAt p 0 4 ≠ saveWord0 n.val (p.drop 4) := by
  refine ⟨0, 0, { cmd 2 with ptr := 0x100 }, List.replicate 256 0, restZ (List.replicate 256 0), _, by rfl, by rfl, by decide, rfl, rest_may _ List.length_replicate, ?_⟩
  rw [leAt, bytesAt_zero fun y hy => (List.mem_replicate.1 hy).2, leNat_zero fun y hy => (List.mem_replicate.1 hy).2]
  unfold saveWord0
  omega
/-- Commands that need signed images, wrapped keys or a signed token: for every such content, a state holds it. -/
def flashZ (f : Tbl Byte) : State := { z with flash := f }
theorem wit_profileCommandsComplete_1 (f : Tbl Byte) (p : Profile) (hp hs : List Byte)
    (hv : ((flashZ f).setReg (aMbx 0x100) 0x80000000).verifyProfile 0 = .ok (p, hp, hs)) (hc : calOk p = true) (hn : needsCold noProfile p = false) :
    ∃ (n : Fin 4) (s v : State), s.mbxBusy = false ∧ v = s.setReg (aMbx 0x100) 0x80000000 ∧ s.commitOpen = false ∧ s.fmg.reqs = [] ∧
      v.verifyProfile n.val = .ok (p, hp, hs) ∧ calOk p = true ∧ needsCold s.prof.img p = false :=
  ⟨0, flashZ f, _, show z.mbxBusy = false by decide, rfl, show z.commitOpen = false by decide, rfl, hv, hc, hn⟩
theorem wit_profileCommandsComplete_4 (f : Tbl Byte) (p : Profile) (hp hs : List Byte)
    (hv : ((flashZ f).setReg (aMbx 0x100) 0x80000000).verifyProfile 0 = .ok (p, hp, hs)) (hc : calOk p = true) :
    ∃ (n : Fin 4) (s v : State), s.mbxBusy = false ∧ v = s.setReg (aMbx 0x100) 0x80000000 ∧ s.commitOpen = false ∧ s.fmg.reqs = [] ∧
      v.verifyProfile n.val = .ok (p, hp, hs) ∧ calOk p = true :=
  ⟨0, flashZ f, _, show z.mbxBusy = false by decide, rfl, show z.commitOpen = false by decide, rfl, hv, hc⟩
def hostZ (f : Tbl Byte) (n : Word) : State :=
  { (secZ fun x => { x with hostWait := 1, hostBoot := true }).setReg (ra (mPage 5) 0x128) n with host := f }
theorem imageCode_bad {s : State} {t : Nat} {h b sc : List Byte} (e : leAt h 0 4 = 0) : s.imageCode t h b sc ≠ 0 := by
  unfold State.imageCode
  simp [e]
theorem wit_profileCommandsComplete_10 : ∃ (h b : List Byte) (c : Nat) (s : State),
    s.sec.hostWait = 1 ∧ s.hostImage 1 = (h, b) ∧ c = s.imageCode 1 h b [] ∧ c ≠ 0 ∧ s.sec.profWait = none := by
  have hn : ((hostZ [] 0).reg (ra (mPage 5) 0x128)).toNat = 0 := by decide
  refine ⟨_, _, _, hostZ [] 0, rfl, rfl, rfl, imageCode_bad ?_, rfl⟩
  simp only [hn, Nat.zero_min, State.hostRead, tRange, List.range_zero, List.map_nil, padTo]
  rw [leAt, bytesAt_zero, leNat_zero fun y hy => (List.mem_replicate.1 hy).2]
  intro y hy
  rw [bytesAt_zero (by simp)] at hy
  exact (List.mem_replicate.1 hy).2
theorem wit_profileCommandsComplete_11 (f : Tbl Byte) (n : Word)
    (hv : (hostZ f n).imageCode 1 ((hostZ f n).hostImage 1).1 ((hostZ f n).hostImage 1).2 [] = 0) :
    ∃ (h b : List Byte) (s : State), s.sec.hostWait = 1 ∧ s.hostImage 1 = (h, b) ∧ s.imageCode 1 h b [] = 0 ∧ s.sec.profWait = none ∧ s.sec.hostBoot = true :=
  ⟨((hostZ f n).hostImage 1).1, ((hostZ f n).hostImage 1).2, hostZ f n, rfl, (Prod.eta _).symm, hv, rfl, rfl⟩
theorem wit_keyCommandsComplete_4 (ek dk b w key : List Byte) (v : State) (hv : v = (secZ fun x => { x with tkey := some (ek, dk) }).setReg (aMbx 0x100) 0x80000000)
    (hb : v.mbxIn 0 (0x620 + 24) = (b, false, v)) (he : w = (shake64 (kemDecaps dk (b.take 1568) ++ otpSerial ++ Config.slotBytes 1)).take 32)
    (hk : kwUnwrapOk w (b.drop 0x620) = some key) :
    ∃ (slot : BitVec 6) (long : Bool) (s v : State), s.mbxBusy = false ∧ v = s.setReg (aMbx 0x100) 0x80000000 ∧ v.keyGate = 0 ∧
      v.mbxFits 0 (0x620 + if long then 40 else 24) = true ∧ s.sec.tkey = some (ek, dk) ∧ v.mbxIn 0 (0x620 + if long then 40 else 24) = (b, false, v) ∧
      w = (shake64 (kemDecaps dk (b.take 1568) ++ otpSerial ++ Config.slotBytes slot.toNat)).take 32 ∧ kwUnwrapOk w (b.drop 0x620) = some key := by
  subst hv
  exact ⟨1, false, secZ fun x => { x with tkey := some (ek, dk) }, _, show z.mbxBusy = false by decide, rfl, show (z.setReg (aMbx 0x100) 0x80000000).keyGate = 0 by decide,
    show (z.setReg (aMbx 0x100) 0x80000000).mbxFits 0 (0x620 + if false then 40 else 24) = true by decide, rfl, hb, he, hk⟩
def tokZ (f : Tbl Byte) (c : List Byte) : State :=
  { (secZ fun x => { x with chal := some (c, 1000) }).setRb (aMbx 0x104) 0 true |>.setRf (aMbx 0x110) 15 0 0xC48 with dram := { cells := f, poison := [], hurt := [] } }
theorem wit_securityCommandsComplete_12 (f : Tbl Byte) (c t : List Byte) (v : State) (hv : v = (tokZ f c).setReg (aMbx 0x100) 0x80000000)
    (hb : v.mbxIn 0 0xC48 = (t, false, v)) (ht : v.tokenOk t = true) :
    ∃ (t : List Byte) (s v : State), s.mbxBusy = false ∧ v = s.setReg (aMbx 0x100) 0x80000000 ∧ v.mbxDram = true ∧ v.mbxFits 0 0xC48 = true ∧
      s.tampered = false ∧ v.mbxIn 0 0xC48 = (t, false, v) ∧ v.tokenOk t = true := by
  subst hv
  exact ⟨t, tokZ f c, _, show (tokZ [] []).mbxBusy = false by decide, rfl, show ((tokZ [] []).setReg (aMbx 0x100) 0x80000000).mbxDram = true by decide,
    show ((tokZ [] []).setReg (aMbx 0x100) 0x80000000).mbxFits 0 0xC48 = true by decide, show (tokZ [] []).tampered = false by decide, hb, ht⟩
/-- The token is bytes of 0: DRAM holds them, with no error on a link and no channel that has failed. -/
def zeroCells (n : Nat) : Tbl Byte := (List.range n).map fun i => (0 + i, 0)
theorem zeroCells_find {n i : Nat} (h : i < n) : tFind (zeroCells n) i = some 0 := by
  have e := tFind_map (List.range n) 0 i fun _ => (0 : Byte)
  rw [if_pos (List.mem_range.2 h), Nat.zero_add] at e
  exact e
theorem dramWord_zero {s : State} {n a : Nat} (hc : s.dram = { cells := zeroCells n, poison := [], hurt := [] }) (hm : ∀ x, s.mirOf x = none ∧ s.faulted (dramChan x) = false)
    (hl : s.linkErr = []) (ha : a % 8 = 0) (hn : a + 8 ≤ n) : s.dramWord a = (List.replicate 8 0, false, s) := by
  have h0 : s.dram.read arrDram a 8 = List.replicate 8 0 := by
    rw [List.eq_replicate_iff]
    refine ⟨by simp [Arr.read], fun y hy => ?_⟩
    obtain ⟨j, hj, rfl⟩ := List.mem_map.1 hy
    simp [Arr.byte, hc, zeroCells_find (show a + j < n by have := List.mem_range.1 hj; omega)]
  have h1 : s.dram.code arrDram (a / 8) = 0 := by
    unfold Arr.code
    rw [hc, show 8 * (a / 8) = a by omega]
    simp [tFind, zeroCells_find (show a < n by omega)]
  simp [State.dramWord, hm a, State.dramPlain, State.dramWord1, State.linkRead, hl, tFind, h0, h1]
theorem dramWords_zero {s : State} {n : Nat} (hc : s.dram = { cells := zeroCells n, poison := [], hurt := [] }) (hm : ∀ x, s.mirOf x = none ∧ s.faulted (dramChan x) = false)
    (hl : s.linkErr = []) : ∀ k a, a % 8 = 0 → a + 8 * k ≤ n → State.dramWords k s a = (List.replicate (8 * k) 0, false, s)
  | 0, _, _, _ => rfl
  | k + 1, a, ha, hn => by
    rw [State.dramWords]
    simp only [dramWord_zero hc hm hl ha (by omega), dramWords_zero hc hm hl k (a + 8) (by omega) (by omega), Bool.or_false, List.replicate_append_replicate,
      show 8 + 8 * k = 8 * (k + 1) by omega]
theorem dramRead_zero {s : State} {n : Nat} (hc : s.dram = { cells := zeroCells n, poison := [], hurt := [] }) (hm : ∀ x, s.mirOf x = none ∧ s.faulted (dramChan x) = false)
    (hl : s.linkErr = []) (k : Nat) (hn : 8 * k ≤ n) : s.dramRead 0 (8 * k) = (List.replicate (8 * k) 0, false, s) := by
  have h := dramWords_zero hc hm hl k 0 (by decide) (by omega)
  simp [State.dramRead, show (8 * k + 7) / 8 = k by omega, h]
theorem tokenOk_version {s : State} {t : List Byte} (h : leAt t 0 4 ≠ 1) : s.tokenOk t = false := by
  simp [State.tokenOk, h]
theorem tok_ready (f : Tbl Byte) (c : List Byte) (v : State) (hv : v = (tokZ f c).setReg (aMbx 0x100) 0x80000000) :
    (tokZ f c).mbxBusy = false ∧ v.mbxDram = true ∧ v.mbxFits 0 0xC48 = true ∧ (tokZ f c).tampered = false ∧ v.pair (aMbx 0x108) = 0 ∧
      (∀ x, v.mirOf x = none ∧ v.faulted (dramChan x) = false) ∧ v.linkErr = [] := by
  subst hv
  exact ⟨show (tokZ [] []).mbxBusy = false by decide, show ((tokZ [] []).setReg (aMbx 0x100) 0x80000000).mbxDram = true by decide,
    show ((tokZ [] []).setReg (aMbx 0x100) 0x80000000).mbxFits 0 0xC48 = true by decide, show (tokZ [] []).tampered = false by decide,
    show ((tokZ [] []).setReg (aMbx 0x100) 0x80000000).pair (aMbx 0x108) = 0 by decide,
    fun x => clean_of (s := (tokZ [] []).setReg (aMbx 0x100) 0x80000000) (by decide) (by decide) x, rfl⟩
theorem wit_securityCommandsComplete_13 : ∃ (t : List Byte) (s v : State), s.mbxBusy = false ∧ v = s.setReg (aMbx 0x100) 0x80000000 ∧ v.mbxDram = true ∧
    v.mbxFits 0 0xC48 = true ∧ s.tampered = false ∧ v.mbxIn 0 0xC48 = (t, false, v) ∧ v.tokenOk t = false := by
  obtain ⟨v, hv⟩ : ∃ v, v = (tokZ (zeroCells 0xC48) []).setReg (aMbx 0x100) 0x80000000 := ⟨_, rfl⟩
  have hd : v.dram = { cells := zeroCells 0xC48, poison := [], hurt := [] } := hv ▸ rfl
  obtain ⟨h0, h1, h2, h3, h4, h5, h6⟩ := tok_ready _ _ v hv
  refine ⟨List.replicate 0xC48 0, _, v, h0, hv, h1, h2, h3, ?_, ?_⟩
  · rw [State.mbxIn, if_pos h1, h4]
    exact dramRead_zero hd h5 h6 393 (by decide)
  · refine tokenOk_version ?_
    rw [leAt, bytesAt_const 0 (by decide)]
    decide
set_option maxRecDepth 20000 in
theorem injStore : injZ.storeFrame 0 136 (engine 2 0 3) (injZ.hostRead 0x1000 60) = (some (mkHandle 0 2), injS2) := Prod.ext (by decide +kernel) rfl
set_option maxRecDepth 20000 in
theorem injPass : injS2.tmStep2 0 (injectTx (injZ.hostRead 0 24) (mkHandle 0 2) 60 injS2.gen injS2.tb (if injS2.rb (aDma 3 0x100) 30 then 3 else 2)) = (true, injS3) :=
  Prod.ext (by decide) rfl
set_option maxRecDepth 20000 in
theorem wit_hostDataCommandsComplete_19 : ∃ (q : Fin 16) (e : Nat) (len : Nat) (d : Nat) (h : Nat) (w : List Byte) (f : List Byte) (s : State) (s2 : State) (s3 : State), (s.pairOpen q.val = true) ∧ (s.dmaPosted q.val 0x130 = true) ∧ (s.dmaDest q.val = false) ∧ (e = s.dmaHead q.val 0x130 32) ∧ (w = s.hostRead e 24) ∧ (len = leAt w 8 4 % 2 ^ 14) ∧ (60 ≤ len) ∧ (len ≤ 10236) ∧ (bitsOf (leAt w 12 4) 27 26 < 2) ∧ (d = leAt w 12 4 / 2 ^ 31) ∧ (f = s.hostRead (leAt w 0 8) len) ∧ (s.storeFrame d 136 (engine 2 0 q.val) f = (some h, s2)) ∧ (s2.tmStep2 d (injectTx w h len s2.gen s2.tb (if s2.rb (aDma q.val 0x100) 30 then 3 else 2)) = (true, s3)) :=
  ⟨3, 0, 60, 0, mkHandle 0 2, injZ.hostRead 0 24, injZ.hostRead 0x1000 60, injZ, injS2, injS3, by decide, by decide, by decide, by decide, by decide, by decide, by decide, by decide, by decide, by decide, by decide, injStore, injPass⟩
theorem wit_profileCommandsComplete_8 (f : Tbl Byte) (n : Fin 4) (b1 b2 : Bool) (p : Profile) (hp hs : List Byte) (s1 s2 : State)
    (h1 : (((flashZ f).restart.porstUp n.val).modSec fun x => { x with hostBoot := false }).bootCopies 1 0 0x40000 = (some b1, s1))
    (h2 : (s1.setRb (aSec 0x104) 29 b1).bootCopies 2 0x80000 0x1080000 = (some b2, s2))
    (h3 : (s2.setRb (aSec 0x104) 28 b2).firmware.verifyProfile n.val = .ok (p, hp, hs)) (h4 : calOk p = true) :
    ∃ (s s1 s2 v : State), ((s.restart.porstUp n.val).modSec fun x => { x with hostBoot := false }).bootCopies 1 0 0x40000 = (some b1, s1) ∧
      (s1.setRb (aSec 0x104) 29 b1).bootCopies 2 0x80000 0x1080000 = (some b2, s2) ∧ v = (s2.setRb (aSec 0x104) 28 b2).firmware ∧
      v.verifyProfile n.val = .ok (p, hp, hs) ∧ calOk p = true :=
  ⟨flashZ f, s1, s2, _, h1, h2, rfl, h3, h4⟩
theorem wit_profileCommandsComplete_5 (f : Tbl Byte) (p : Profile) (hp hs : List Byte) (e : CalFault) (l : List CalFault)
    (hv : ((flashZ f).setReg (aMbx 0x100) 0x80000000).verifyProfile 0 = .ok (p, hp, hs)) (hc : calFaults p = e :: l) :
    ∃ (n : Fin 4) (s v : State), s.mbxBusy = false ∧ v = s.setReg (aMbx 0x100) 0x80000000 ∧ s.commitOpen = false ∧ s.fmg.reqs = [] ∧
      v.verifyProfile n.val = .ok (p, hp, hs) ∧ calFaults p = e :: l :=
  ⟨0, flashZ f, _, show z.mbxBusy = false by decide, rfl, show z.commitOpen = false by decide, rfl, hv, hc⟩
/-- The write lock of region 0 is held by an owner that is not the one whom a command is taken to come from. -/
def polLockZ (o : Nat) : State := ((upDom (domRgn 0) z).setRb (aPol 0 0x140) 31 true).setRf (aPol 0 0x140) 13 0 o
theorem wit_policyAndWriteLockCommandsComplete_6 : ∃ (r : RegionId) (s : State), s.domIsOn (domRgn r.val) = true ∧ s.rb (aPol r.val 0x140) 31 = true ∧
    s.rf (aPol r.val 0x140) 13 0 ≠ (Config.polOwner s.draw).toNat := by
  by_cases h : (Config.polOwner 0).toNat = 0
  · exact ⟨0, polLockZ 1, by decide, by decide, fun e => absurd (show (1 : Nat) = (Config.polOwner 0).toNat from e) (by omega)⟩
  · exact ⟨0, polLockZ 0, by decide, by decide, fun e => h (show (Config.polOwner 0).toNat = 0 from e.symm)⟩
/-- A thread's quantum is over, where a head of its priority finds no context: what the two clauses on QUANTUM_EXPIRY bind to `due`. -/
def dueIn (r : RegionId) (s v : State) (j : Nat) (y : Thread) : Prop :=
  ∃ n, ∃ p ∈ (s.teller r.val).ready, y.tcb = some n ∧ rgnOf j = r.val ∧ (s.tcb r.val n).quantum ≠ 0 ∧
    (s.tcb r.val n).since + 4096 * (s.tcb r.val n).quantum ≤ v.cyc ∧ y.st ≠ .idle ∧ y.st ≠ .resetting ∧ y.stopped = false ∧ y.forked = false ∧
    y.saveReq = none ∧ s.hasKid j = false ∧ p.1 = (s.tcb r.val n).prio ∧ v.findPlace r.val (s.tcb r.val p.2).place = none
def quantZ : State := State.setTeller (busyZ { z with now := 100000000 }) 0 fun k => { k with ready := [(30, 9)] }
/-- Context 8 runs TCB 7, and no thread is ready. -/
def runTcb : State := z.modTh 8 fun x => { x with st := .running, tcb := some 7 }
theorem wit_tellerDispatchComplete_7 : ∃ (r : RegionId) (due : Nat → Thread → Prop) (s v : State), v = s.upToCyc (roundCeil s.cycCeil) ∧
    (∀ j y, due j y ↔ ∃ n, ∃ p ∈ (s.teller r.val).ready, y.tcb = some n ∧ rgnOf j = r.val ∧ (s.tcb r.val n).quantum ≠ 0 ∧
      (s.tcb r.val n).since + 4096 * (s.tcb r.val n).quantum ≤ v.cyc ∧ y.st ≠ .idle ∧ y.st ≠ .resetting ∧ y.stopped = false ∧ y.forked = false ∧
      y.saveReq = none ∧ s.hasKid j = false ∧ p.1 = (s.tcb r.val n).prio ∧ v.findPlace r.val (s.tcb r.val p.2).place = none) ∧
    ∀ e ∈ s.thr, ¬due e.1 e.2 :=
  ⟨0, dueIn 0 (runTcb) ((runTcb).upToCyc (roundCeil (runTcb).cycCeil)), runTcb, _, rfl, fun _ _ => Iff.rfl, by
    intro e _ ⟨n, p, hp, _⟩
    exact List.not_mem_nil (show p ∈ ([] : List (Nat × Nat)) from hp)⟩
theorem wit_tellerDispatchComplete_8 : ∃ (r : RegionId) (due : Nat → Thread → Prop) (s v : State) (t : Nat) (x : Thread) (a l : Tbl Thread),
    v = s.upToCyc (roundCeil s.cycCeil) ∧
    (∀ j y, due j y ↔ ∃ n, ∃ p ∈ (s.teller r.val).ready, y.tcb = some n ∧ rgnOf j = r.val ∧ (s.tcb r.val n).quantum ≠ 0 ∧
      (s.tcb r.val n).since + 4096 * (s.tcb r.val n).quantum ≤ v.cyc ∧ y.st ≠ .idle ∧ y.st ≠ .resetting ∧ y.stopped = false ∧ y.forked = false ∧
      y.saveReq = none ∧ s.hasKid j = false ∧ p.1 = (s.tcb r.val n).prio ∧ v.findPlace r.val (s.tcb r.val p.2).place = none) ∧
    s.thr = a ++ (t, x) :: l ∧ (∀ e ∈ a, e.1 ≠ t ∧ ¬due e.1 e.2) ∧ due t x :=
  ⟨0, dueIn 0 quantZ (quantZ.upToCyc (roundCeil quantZ.cycCeil)), quantZ, _, 0, { Thread.fresh with st := .running, tcb := some 7 }, [],
    (List.range 63).map (fun i => (i + 1, { Thread.fresh with st := .running, tcb := some 7 })), rfl, fun _ _ => Iff.rfl, by decide,
    fun _ h => absurd h (List.not_mem_nil), 7, (30, 9), by decide, by decide, by decide, by decide, by decide, by decide, by decide, by decide, by decide,
    by decide, by decide, by decide, by decide⟩
/-- A flash whose profile 0 has a schedule image that begins with the byte 0. -/
def badF : Tbl Byte := [(profAt 0 + 0x100000, 0)]
theorem tRange_head {d : Nat → Byte} {c : Tbl Byte} {i n : Nat} (h : 0 < n) : (tRange d c i n).getD 0 0 = tGet d c i := by
  match n, h with
  | n + 1, _ => simp [tRange, List.range_succ_eq_map]
theorem leAt_zero {l : List Byte} (h : l.getD 0 0 = 0) : leAt l 0 4 % 256 = 0 := by
  have e : leAt l 0 4 = leNat [l.getD 0 0, l.getD 1 0, l.getD 2 0, l.getD 3 0] := rfl
  rw [e, h]
  exact Nat.mod_eq_zero_of_dvd ⟨_, Nat.zero_add _⟩
theorem flashImage_zero {f : Tbl Byte} {a : Nat} (h : tGet flashByte f a = 0) (n : Nat) : leAt ((flashZ f).flashImage n a).1 0 4 % 256 = 0 := by
  simp only [State.flashImage, State.flashRead]
  exact leAt_zero ((tRange_head (by decide)).trans h)
theorem wit_profileCommandsComplete_6 : ∃ (n : Fin 4) (t c : Nat) (s v : State) (i : Instr), i ∈ [Instr.profileSelectWarm n, .profileSelectCold n] ∧
    s.mbxBusy = false ∧ v = s.setReg (aMbx 0x100) 0x80000000 ∧ s.commitOpen = false ∧ s.fmg.reqs = [] ∧
      v.verifyProfile n.val = .error (t, c) ∧ t < 16 ∧ c < 16 := by
  have hm := flashImage_zero (f := badF) (a := profAt 0 + 0x100000) (by decide) 3
  generalize hi : (flashZ badF).flashImage 3 (profAt 0 + 0x100000) = i at hm
  have h4 : leAt i.1 0 4 ≠ 0x4D495742 := by omega
  have hc : ∀ s : State, s.imageCode 3 i.1 i.2 [] = 1 := fun s => by
    unfold State.imageCode
    exact if_pos (.inl h4)
  have hv : ∀ s : State, s.flashImage 3 (profAt 0 + 0x100000) = i → s.verifyProfile 0 = .error (3, 1) := fun s h => by
    simp [State.verifyProfile, h, hc]
  refine ⟨0, 3, 1, flashZ badF, _, .profileSelectWarm 0, List.mem_cons_self .., show z.mbxBusy = false by decide, rfl, show z.commitOpen = false by decide, rfl, ?_, by decide, by decide⟩
  exact hv _ hi
theorem wit_securityCommandsComplete_16 (t c : List Byte) (s : State) (hs : s = secZ fun x => { x with chal := some (c, 1000) }) (ht : s.tokenOk (padTo 0xC48 t) = true) :
    ∃ (t : List Byte) (s : State), s.tampered = false ∧ s.tokenOk (padTo 0xC48 t) = true :=
  ⟨t, s, by subst hs; exact show z.tampered = false by decide, ht⟩
theorem wit_securityCommandsComplete_17 : ∃ (t : List Byte) (s : State), s.tampered = false ∧ s.tokenOk (padTo 0xC48 t) = false := by
  refine ⟨[], z, by decide, tokenOk_version ?_⟩
  rw [padTo, bytesAt_zero (l := []) (fun _ h => absurd h List.not_mem_nil), leAt, bytesAt_const 0 (by decide)]
  decide
theorem place_or (a b : CdcOp) (ha : a.thread / 8 % 8 = 0) (hb : b.thread / 8 % 8 = 1) : a.place 0 < b.place 0 ∨ b.place 0 < a.place 0 := by
  simp only [CdcOp.place, rotRank]; omega
theorem follows_of {u : CdcTurn} {t : Nat} {v : CdcView} {o : CdcOp} (h : u = turnAt t v) (hp : o.place 0 < (opAt t).place 0) (ho : o.addr / 64 = 1 ∨ (opAt t).meets o = true) :
    u.follows o = true := by
  subst h
  simp only [CdcTurn.follows, turnAt, List.any_cons, List.any_nil, Bool.or_false, Bool.and_eq_true]
  exact ⟨by rcases ho with ho | ho <;> simp_all [CdcOp.meets, opAt], decide_eq_true hp⟩
theorem turnOf_of {s : State} {c cyc : Nat} {u : CdcTurn} (h : (s.clu? c).turn = some u) (h1 : u.cyc = cyc) (h2 : u.left.stands (s.cdcView c) = true)
    (h3 : (u.ops.all fun o => !o.isAccess || decide (s.dramLine o.mem = o.left)) = true) : s.turnOf c cyc = u := by
  simp only [State.turnOf, h]
  exact if_pos ⟨h1, h2, h3⟩
theorem wit_memoryTriggersComplete_13 : ∃ (t : ThreadId) (f : MoveForm) (st : Bool) (sb : Fin 16) (v : Word) (a : Nat) (o : CdcOp) (s u0 : State) (w : IssueWord),
    (w = formWord f (if st then 0x0E2 else 0x0E1) sb.val) ∧ (s.fires t.val w { dst := if st then 0x0E2 else 0x0E1, x := sb.val, v := v }) ∧
    (u0 = s.wordDone t.val w) ∧ (u0.dmDecode (cluOf t.val) v.toNat = .mem a) ∧
    (o = { thread := t.val, sb := sb.val, what := if st then .store ((u0.th t.val).opv 0x0E0) else .load, addr := v.toNat, mem := a, was := (Arr.empty, Arr.empty), left := (Arr.empty, Arr.empty) }) ∧
    ((u0.turnOf (cluOf t.val) (s.slotOf t.val)).follows o = true) := by
  rcases place_or { opAt 0 with sb := 3 } (opAt 8) rfl rfl with h | h
  · exact ⟨0, lf 0x40, false, 3, 0x40, 0x40, _, runW 0 (formWord (lf 0x40) 0x0E1 3) (fun x => x) (turnZ 8 (view0 [] [] []) dmZ), _, _, rfl, fires_of (by decide), rfl, by decide, rfl,
      follows_of (t := 8) (v := view0 [] [] []) (turnOf_of (by rfl) (by decide) (by decide +kernel) (by decide)) h (.inl rfl)⟩
  · exact ⟨8, lf 0x40, true, 3, 0x40, 0x40, _, runW 8 (formWord (lf 0x40) 0x0E2 3) (fun x => x) (turnZ 0 (view0 [] [] []) dmZ), _, _, rfl, fires_of (by decide), rfl, by decide, rfl,
      follows_of (t := 0) (v := view0 [] [] []) (turnOf_of (by rfl) (by decide) (by decide +kernel) (by decide)) h (.inl rfl)⟩
theorem wit_cacheMaintenanceComplete_9 : ∃ (c : ClusterId) (t : ThreadId) (k : Fin 5) (i : Nat) (m : Maint) (s : State),
    (maintNext (s.clu? c.val).maint (some t.val) (k.val + 1) = some i) ∧ ((s.clu? c.val).maint[i]? = some m) ∧
    (k = 4 → s.pgHalted (cluPage c.val 2) = true) ∧ ((s.turnOf c.val s.cyc).follows (m.op i t.val (k.val + 1)) = true) := by
  rcases place_or (opAt 0) (opAt 8) rfl rfl with h | h
  · exact ⟨0, 5, 1, 0, { mtc 2 with thread := some 5, off := 0x40 }, turnZ 8 (view0 [{ mtc 2 with thread := some 5, off := 0x40 }] [] []) (z.setClu 0 fun k => { k with maint := [{ mtc 2 with thread := some 5, off := 0x40 }] }),
      by decide, by decide, by decide, follows_of (t := 8) (v := view0 [{ mtc 2 with thread := some 5, off := 0x40 }] [] []) (turnOf_of (by rfl) (by decide) (by decide +kernel) (by decide)) h (.inl rfl)⟩
  · exact ⟨0, 8, 1, 0, { mtc 2 with thread := some 8, off := 0x40 }, turnZ 0 (view0 [{ mtc 2 with thread := some 8, off := 0x40 }] [] []) (z.setClu 0 fun k => { k with maint := [{ mtc 2 with thread := some 8, off := 0x40 }] }),
      by decide, by decide, by decide, follows_of (t := 0) (v := view0 [{ mtc 2 with thread := some 8, off := 0x40 }] [] []) (turnOf_of (by rfl) (by decide) (by decide +kernel) (by decide)) h (.inl rfl)⟩

/-! ## The spec's worked cases, and ill-formed commands

The expected values stand in the worked case of the file named. -/

/-- 00_scope.md: thread 5 of core 3 in cluster 2 of region 1 on C-die 3. -/
theorem test_owner_of_a_thread : ownerOf ((((3 * 4 + 1) * 4 + 2) * 8 + 3) * 8 + 5) = 0x1B3A := by decide
/-- 19_register_pages.md: the CORE page of core 5 of cluster 3 of region 3 of C-die 1. -/
theorem test_core_page : ra (corePage (1 * 128 + 3 * 32 + 3 * 8 + 5)) 0x104 = 0x01375104 ∧ eventSource 0x1375 = 109 := by decide
theorem test_core_page_id : pageKind 0x1375 = some (.core, 125) ∧ z.viewHead .core 125 0x1375 0 0 = 0x01017D01 := by decide
/-- 08_cluster_memory_cache.md: the aperture of Varrick Sound's spare cluster. -/
def aperZ : State := ((((z.setReg (aCdc 0 0x108) 0x80000).setReg (aCdc 0 0x10C) 0x4000).setReg (aCdc 0 0x110) 4).setRf (aCdc 0 0x100) 6 4 2)
theorem test_aperture_way : aperZ.dmDecode 0 0x00040200 = .spm 7 0x0200 ∧ aperZ.dmDecode 0 0x000513C4 = .spm 6 0x13C4 := by decide
theorem test_aperture_cached : aperZ.dmDecode 0 0x12345678 = .mem 0x812345678 ∧ aperZ.dmDecode 0 0x40000000 = .range := by decide
theorem test_aperture_maintenance : aperZ.dmDecode 0 0xFFFFE00C = .maint 3 ∧ aperZ.lineAddr 0 345 0x1234 = 0x812345640 := by decide
/-- 04_function_units.md: the 64-bit byte count of Pelmora Transit. -/
theorem test_add_then_addc : aluOp 0 0xFFFFFF80 0x5EE false = { r := 0x56E, carry := some true, ov := false } ∧ aluAdd 2 0 true = { r := 3, carry := some false, ov := false } := by decide
/-- 03_move_set.md: the TTL and checksum edit of Ostrander Rail. -/
theorem test_word_of_slot_17 :
    wordKind 0xCC158B1500240050 =
      .pair { g := 9, imm := some 86, src := 86, dst := 0x0B1, x := 5 } { g := 0, imm := none, src := 0x009 * 16, dst := 0x005, x := 0 } := by decide
theorem test_word_of_slot_13 : (wordKind 0x800084110480_0D00).moves.map (·.dst) = [0x041, 0x0D0] := by decide
theorem test_ttl_checksum : aluOp 1 0x4006 0x100 false = { r := 0x3F06, carry := some false, ov := false } ∧ guOp 2 0x4006 0x200 = false ∧ ckOp 0 0x3F06 0xB1E6 0x4006 = 0xB2E6 := by decide
/-- 11_cipher_datapath.md: the inbound window of Harth Bridge. Word 0 holds ESN, REPLAY_EN and WIN_M1. -/
def saW0 : Nat := 2 ^ 31 + 2 ^ 30 + 2 ^ 24 + 2 ^ 16 + 255 * 2 ^ 8
def saZ (t w : Nat) : List Nat := [saW0, 0, 0, 0, 0, 0, 0, 0, t % 2 ^ 32, t / 2 ^ 32, w] ++ List.replicate 13 0
theorem test_pn_recover :
    pnRecover (saZ 0x100000010 0x3F) 0x12 = some 0x100000012 ∧ pnRecover (saZ 0x100000012 0xFD) 0xFFFFFFF5 = some 0xFFFFFFF5 ∧
      pnRecover (saZ 0x100000012 0x200000FD) 0xFFFFFE00 = some 0x1FFFFFE00 := by decide
theorem test_window :
    pnUpdate (saZ 0x100000010 0x3F) 0x100000012 0 = saZ 0x100000012 0xFD ∧ pnUpdate (saZ 0x100000012 0xFD) 0xFFFFFFF5 0 = saZ 0x100000012 0x200000FD ∧
      pnUpdate (saZ 0x100000012 0x200000FD) 0x100000011 0 = saZ 0x100000012 0x200000FF := by decide +kernel
theorem test_replay : pnCheck (saZ 0x100000012 0x200000FD) 0xFFFFFFF5 = 0x130 ∧ pnCheck (saZ 0x100000012 0x200000FD) 0x100000011 = 0 := by decide
/-- 15_dram_ecc.md: the failing word of Harwick Spur. -/
theorem test_dram_page : dramChan 0x812345678 = 22 ∧ dramL 0x812345678 = 287524216 ∧ dramPageOf 0x812345678 = 160448 := by decide
/-- 12_till_buffers.md (R369): a sweep of cluster 37 has OWNER 0x1280 and MASK 0x3F80. -/
theorem test_cluster_owner : ownerOf (37 * 64) = 0x1280 ∧ (ownerOf (37 * 64 + 63) &&& 0x3F80) = 0x1280 := by decide
/-- FIPS 197: {57} times {83} is {c1}; the S-box of {53} is {ed}. -/
theorem test_aes_field : gfMul 0x57 0x83 = 0xC1 ∧ aesSub 0x53 = 0xED ∧ aesInvSub 0xED = 0x53 := by decide +kernel
/-- An unpopulated page, a page that is no Escrow page, too few sensors, and accesses of no byte. -/
theorem test_ill_formed_page : (Instr.softRst 0x9).wellFormed = false ∧ (Instr.tallyRead 0x7000 0).wellFormed = false := by decide
theorem test_ill_formed_escrow : (Instr.escForceRel (cluPage 0 2) 5).wellFormed = false ∧ (Instr.escForceRel (cluPage 0 3) 5).wellFormed = true := by decide
theorem test_ill_formed_lists :
    (Instr.tempSample [300]).wellFormed = false ∧ (Instr.bar2Read 0 0).wellFormed = false ∧ (Instr.bar2Write 0 []).wellFormed = false := by decide
theorem test_well_formed : (Instr.softRst (cluPage 3 0)).wellFormed = true ∧ (Instr.tempSample (List.replicate 46 300)).wellFormed = true := by decide
/-- No row of the table has bits, so a word spells no command and the queue stays as it is. -/
theorem test_no_word_decodes (n w : Nat) : decodeTableWord n w = none ∧ z.withFetchWord n w = z := ⟨rfl, rfl⟩
theorem test_idle_step : (step z) = .next { z.upset with now := z.now + coreTicks z.clk.point }.secDue := rfl
/-- 13_traffic_manager.md: Ullswick Fold. At t = 20 ns queue B (2) follows A (1) and its shaper 40 is overdrawn by B1. -/
def drrTx (q l : Nat) : Tx := { tx with queue := q, ctx := 32, len := l, charge := l }
def drrQ (quantum sh q : Nat) (l : List Nat) (defi : Nat) : TmQueue :=
  { TmQueue.fresh with w0 := nw (2 ^ 31 + 32 * 2 ^ 21), w1 := nw (quantum + if sh = 0 then 0 else 2 ^ 31 + sh * 2 ^ 16), frames := l.map (drrTx q), bytes := l.sum, defi := defi }
def drrZ : State :=
  { runPg (pdPage 0 6) z with
    tports := [(32, { active := [1, 2, 3], pos := 0, visit := true, cover := 0 })]
    queues := [(1, drrQ 24 0 1 [1000, 1000] 536), (2, drrQ 48 40 2 [1600, 1600] 0), (3, drrQ 12 0 3 [900, 200] 0)]
    shapers := [(40, { Bucket.fresh with w0 := 5000, w1 := 1000, bal := 1000 * 65536, last := z.tb })] }
theorem test_drr_overdraft :
    ((drrZ.portSelect 0 32).queue 0 1).defi = 536 ∧ ((drrZ.portSelect 0 32).queue 0 2).defi = 1472 ∧ ((drrZ.portSelect 0 32).shaper 0 40).coins = nw (2 ^ 32 - 600) := by
  decide +kernel
/-- 15_dram_ecc.md: RETIRE of page 160,448 of channel 22 takes remap entry 0. -/
theorem test_retire_remap : (match exec (.retireDram 1 22 160448) z with | .next u => u.reg (aRemap 22 0) | _ => 0) = 0x800272C0 := by decide +kernel
/-- 14_epochs_generations_profiles.md: the first edge that package B of Kilnworth Relay sees is 111,999,960 ns early and is clamped to 100 ms. -/
def syncZ : State :=
  ((z.setReg (aEpc 0x100) 0xF0000000).setReg (aEpc 0x10C) 40)
theorem test_sync_clamp :
    (match exec .syncEdge ({ syncZ with epc := { Epc.fresh with target := syncZ.tb + 111999960, len := 1000000000 } }) with | .next u => (u.epc.corr, u.reg (aEpc 0x138)) | _ => (none, 0)) =
      (some (-100000000), 1) := by decide +kernel

end Sys2Proof.Tests
end

section
/-! PROOFS. A word without a trigger leaves the context with its writes done; what a write to a guard and a read of one give (R88). -/

namespace Sys2Proof.Machine

/-! ## The context at the start of its slot -/

theorem Thread.foldl_setRes_frame (l : List Pend) (x : Thread) :
    ∃ r, l.foldl (fun x p => x.setRes p.sock p.value) x = { x with res := r } := by
  induction l generalizing x with
  | nil => exact ⟨x.res, rfl⟩
  | cons p l ih => exact ih (x.setRes p.sock p.value)

/-- The results that arrive change result sockets, and what is still on its way. -/
theorem Thread.arrive_frame (x : Thread) (c : Nat) : ∃ r q, x.arrive c = { x with res := r, pend := q } := by
  obtain ⟨r, hr⟩ := Thread.foldl_setRes_frame (x.pend.filter fun p => decide (p.at_ ≤ c)) x
  exact ⟨r, pendLeft c x.pend, by simp only [Thread.arrive, hr]⟩

@[simp] theorem Thread.arrive_st (x : Thread) (c : Nat) : (x.arrive c).st = x.st := by
  obtain ⟨_, _, h⟩ := x.arrive_frame c
  rw [h]

@[simp] theorem Thread.arrive_lateTrap (x : Thread) (c : Nat) : (x.arrive c).lateTrap = x.lateTrap := by
  obtain ⟨_, _, h⟩ := x.arrive_frame c
  rw [h]

theorem State.th_atSlot (s : State) (t c : Nat) :
    (s.atSlot t c).th t = { (s.th t).arrive c with nextCyc := c + 8, stepping := false } :=
  State.th_putTh_same (s.upToCyc c) t _

@[simp] theorem State.wordStart_st (s : State) (t : Nat) : (s.wordStart t).st = (s.th t).st := by
  simp [State.wordStart, State.slotStart, State.th_atSlot]

@[simp] theorem State.wordStart_lateTrap (s : State) (t : Nat) : (s.wordStart t).lateTrap = (s.th t).lateTrap := by
  simp [State.wordStart, State.slotStart, State.th_atSlot]

/-! ## The writes of a word -/

/-- A write reaches registers, guards and operands alone (R103 to R105). -/
theorem Thread.write_frame (x : Thread) (e : Eff) :
    ∃ w p rc vec ctl op, x.write e = { x with w := w, p := p, rc := rc, vec := vec, ctl := ctl, op := op } := by
  unfold Thread.write
  repeat' split
  all_goals exact ⟨_, _, _, _, _, _, rfl⟩

@[simp] theorem Thread.write_st (x : Thread) (e : Eff) : (x.write e).st = x.st := by
  obtain ⟨_, _, _, _, _, _, h⟩ := x.write_frame e
  rw [h]

@[simp] theorem Thread.write_lateTrap (x : Thread) (e : Eff) : (x.write e).lateTrap = x.lateTrap := by
  obtain ⟨_, _, _, _, _, _, h⟩ := x.write_frame e
  rw [h]

/-- One bit of a guard mask is replaced; the others stand. -/
theorem getLsbD_replaceBit (p : BitVec 8) (b : Bool) (n i : Fin 8) :
    ((p &&& ~~~ BitVec.ofNat 8 (2 ^ n.val)) ||| BitVec.ofNat 8 (b2n b * 2 ^ n.val)).getLsbD i.val = if i = n then b else p.getLsbD i.val := by
  have hone : (BitVec.ofNat 8 (2 ^ n.val)).getLsbD i.val = decide (i = n) := by
    rw [BitVec.getLsbD_ofNat, Nat.testBit_two_pow]
    simp [Fin.ext_iff, eq_comm]
  have hbit : (BitVec.ofNat 8 (b2n b * 2 ^ n.val)).getLsbD i.val = (b && decide (i = n)) := by
    cases b
    · simp [b2n]
    · simpa only [b2n, if_true, Nat.one_mul, Bool.true_and] using hone
  rw [BitVec.getLsbD_or, BitVec.getLsbD_and, BitVec.getLsbD_not, hone, hbit]
  by_cases h : i = n <;> simp [h]

/-- R88: the guard written holds whether the value is not zero; every other guard holds what it held. -/
theorem Thread.testBit_write_guard (x : Thread) (k : Nat) (v : Word) (n i : Fin 8) :
    (x.write { dst := 0x020 + n.val, x := k, v := v }).p.toNat.testBit i.val =
      if i = n then decide (v ≠ 0) else x.p.toNat.testBit i.val := by
  have hlo : ¬ 0x020 + n.val < 0x020 := by omega
  have hhi : 0x020 + n.val < 0x028 := by omega
  simp only [Thread.write, hlo, hhi, if_true, if_false, Nat.add_sub_cancel_left]
  exact getLsbD_replaceBit x.p (decide (v ≠ 0)) n i

theorem isTrigger_guard (n : Fin 8) : isTrigger (0x020 + n.val) = false := by
  revert n
  decide

/-! ## A word without a trigger -/

/-- TH.fclr is itself a trigger: without one the sticky flags stand. -/
theorem Thread.fclr_plain (x : Thread) (es : List Eff) (h : ∀ e ∈ es, isTrigger e.dst = false) : x.fclr es = x := by
  have hf : es.find? (fun e => decide (e.dst = 0x3B2)) = none := by
    refine List.find?_eq_none.mpr fun e he hd => ?_
    have ht := h e he
    rw [of_decide_eq_true hd] at ht
    exact absurd ht (by decide)
  simp [Thread.fclr, hf]

/-- A word without a trigger leaves its writes done, the program address moved on, and the timebase sample where it read one. -/
theorem State.th_wordDone_plain (s : State) (t : Nat) (w : IssueWord) (h : ∀ e ∈ s.wordEffects t w, isTrigger e.dst = false) :
    ∃ hi tick, (s.wordDone t w).th t =
      { s.wordRegs t w with
        carry := carryOf (s.wordRegs t w) (s.wordStart t) (s.wordEffects t w), pc := (s.th t).pc + 1, thi := hi, tbTick := tick } := by
  have harith : (s.wordEffects t w).foldl (fun y e => y.arith (s.wordStart t) (s.slotOf t) e) ((s.wordRegs t w).fclr (s.wordEffects t w)) =
      s.wordRegs t w := by
    rw [foldl_plain _ (fun y e => Thread.arith_plain y _ _ e) _ h, Thread.fclr_plain _ _ h]
  simp only [State.wordEffects, State.wordRegs, State.wordStart] at harith ⊢
  simp only [State.wordDone, State.slotDone, harith]
  split
  · exact ⟨_, _, State.th_putTh_same _ t _⟩
  · exact ⟨_, _, State.th_putTh_same _ t _⟩

/-- Nothing follows the word of a context that still runs and has no trap left for a later slot. -/
theorem State.settled_of_running (s u : State) (t : Nat) (hst : (u.th t).st = .running) (hl : (u.th t).lateTrap = []) : s.settled t u = u := by
  have hw : (u.th t).waits = false := by simp [Thread.waits, hst]
  simp [State.settled, hw, State.lateNow, hl]

/-- A word whose one effect is a plain write is done when the write is done. -/
theorem State.issueWord_plain (s : State) (t : Nat) (w : IssueWord) (e : Eff) (hr : s.runs t w) (hf : s.trapFree t w)
    (he : s.wordEffects t w = [e]) (hp : isTrigger e.dst = false) : s.issueWord t w = s.settled t (s.wordDone t w) := by
  obtain ⟨hissues, hlegal, hmoves, -⟩ := hr
  have hfires : s.fires t w e := ⟨hissues, hlegal, hmoves, hf, [], [], he, by simp⟩
  rw [State.issueWord_fires s t w e hfires, State.unit_plain _ _ _ _ _ e hp]

theorem State.wordRegs_of_effect (s : State) (t : Nat) (w : IssueWord) (e : Eff) (he : s.wordEffects t w = [e]) :
    s.wordRegs t w = (s.wordStart t).write e := by
  show (s.wordEffects t w).foldl Thread.write (s.wordStart t) = _
  rw [he]
  rfl

theorem State.issues_running {s : State} {t : Nat} {w : IssueWord} (h : s.issues t w) : (s.th t).st = .running := by
  obtain ⟨hcan, -⟩ := h
  simp only [State.canIssue, Bool.and_eq_true, decide_eq_true_eq] at hcan
  obtain ⟨⟨⟨⟨hrun, -⟩, -⟩, -⟩, -⟩ := hcan
  exact hrun

/-- The guards after a word whose one effect is a plain write: those that the write leaves. -/
theorem State.p_issueWord_plain (s : State) (t : Nat) (w : IssueWord) (e : Eff) (hr : s.runs t w) (hf : s.trapFree t w)
    (he : s.wordEffects t w = [e]) (hp : isTrigger e.dst = false) : ((s.issueWord t w).th t).p = ((s.wordStart t).write e).p := by
  have hissues : s.issues t w := hr.1
  have hrun : (s.th t).st = .running := State.issues_running hissues
  obtain ⟨-, -, -, hlate, -⟩ := hissues
  obtain ⟨_, _, hdone⟩ := s.th_wordDone_plain t w (by simp [he, hp])
  rw [s.wordRegs_of_effect t w e he] at hdone
  rw [s.issueWord_plain t w e hr hf he hp, State.settled_of_running s _ t (by simp [hdone, hrun]) (by simp [hdone, hlate]), hdone]

/-- Reading a guard gives 0 or 1. -/
theorem State.source_guard (s : State) (t c : Nat) (x : Thread) (n : Fin 8) :
    s.source t c x (0x020 + n.val) = if x.p.toNat.testBit n.val then 1 else 0 := by
  have hlo : ¬ 0x020 + n.val < 0x020 := by omega
  have hhi : 0x020 + n.val < 0x028 := by omega
  simp only [State.source, hlo, hhi, if_true, if_false, Nat.add_sub_cancel_left, b2w]

/-- Settles O14: a word whose one effect is the write of a guard leaves the context with that write done; the other guards stand. -/
theorem guardsHoldWhetherTheValueIsNotZero : Obligations.GuardsHoldWhetherTheValueIsNotZero := by
  unfold Obligations.GuardsHoldWhetherTheValueIsNotZero
  refine ⟨fun t w n v s hr hf he => ⟨s.issueWord t.val w, rfl, fun i => ?_⟩, fun t c n x s => s.source_guard t c x n⟩
  rw [s.p_issueWord_plain t.val w _ hr hf he (isTrigger_guard n)]
  exact Thread.testBit_write_guard _ 0 v n i

end Sys2Proof.Machine
end

section
/-! PROOFS. A channel that fails its training, or whose tracking finds its delays outside the trained range, is FAULTED, and its page holds the
channel fatal error (R435). What is needed for it: which registers an error record of a page leaves unchanged. -/

namespace Sys2Proof.Machine

/-! ## Registers that events and error records leave unchanged -/

theorem State.reg_foldl {α : Type} (f : State → α → State) (l : List α) (a : Nat) (h : ∀ s, ∀ x ∈ l, (f s x).reg a = s.reg a) (s : State) :
    (l.foldl f s).reg a = s.reg a :=
  List.foldlRecOn (motive := fun t => t.reg a = s.reg a) l f rfl fun t ht x hx => (h t x hx).trans ht

theorem State.reg_congr {s t : State} (h : t.regs = s.regs) (a : Nat) : t.reg a = s.reg a := by
  rw [State.reg, State.reg, h]

theorem State.reg_ite (c : Prop) [Decidable c] {s t : State} {a : Nat} (h : t.reg a = s.reg a) : (if c then t else s).reg a = s.reg a := by
  split
  · exact h
  · rfl

theorem State.reg_setRb (s : State) (a b i : Nat) (v : Bool) (h : b ≠ a) : (s.setRb a i v).reg b = s.reg b := by
  simp [State.setRb, State.reg_setRf, h]

theorem State.reg_hwSet (s : State) (a b i : Nat) (h : b ≠ a) : (s.hwSet a i).reg b = s.reg b :=
  State.reg_setRb _ a b i true h

theorem ra_div (pg off : Nat) (h : off < 4096) : ra pg off / 4096 = pg := by
  simp only [ra]
  omega

theorem ra_ne (pg : Nat) {off off' : Nat} (h : off ≠ off') : ra pg off ≠ ra pg off' := fun e => h (Nat.add_left_cancel e)

/-- The pages of the regions are pages of the C-dies. -/
theorem rgnPage_lt (r : Nat) (h : r < 16) : rgnPage r 0 < 16384 := by
  simp only [rgnPage, pageNo]
  omega

section
variable {pg a : Nat} (hsrc : eventSource pg < 512) (ha : 16384 ≤ a / 4096)
include hsrc ha

/-- A page's message sets at most the pending bit of an event binding, in a C-die. -/
theorem State.reg_route (s : State) : (s.route pg).reg a = s.reg a := by
  unfold State.route
  dsimp only
  split
  case h_3 =>
    have hr : fld (s.reg (ra pg 0x01C)) 12 9 < 16 := Nat.mod_lt _ (by decide)
    have hbind : a ≠ ra (rgnPage (fld (s.reg (ra pg 0x01C)) 12 9) 0) (0x800 + 4 * eventSource pg) := by
      rintro rfl
      rw [ra_div _ _ (by omega)] at ha
      exact absurd (rgnPage_lt _ hr) (by omega)
    split
    · exact State.reg_setRb _ _ _ _ _ hbind
    · rfl
  all_goals rfl

theorem State.reg_raise (s : State) (b : Nat) (h : a ≠ ra pg 0x010) : (s.raise pg b).reg a = s.reg a := by
  simp only [State.raise, State.putEvt]
  split
  · rw [State.reg_route hsrc ha, State.reg_setReg, if_neg h]; rfl
  · rw [State.reg_setReg, if_neg h]; rfl

theorem State.reg_pgFault (s : State) (h : a ≠ ra pg 0x010) (h' : a ≠ ra pg 0x00C) : (s.pgFault pg).reg a = s.reg a := by
  simp only [State.pgFault, State.setPg]
  split
  · rfl
  · split
    · rfl
    · rw [State.reg_raise hsrc ha _ _ h, State.reg_setRf, if_neg h']

/-- A report reaches registers of the FMG page, and what that page's own message reaches. -/
theorem State.reg_report (s : State) (cls cause : Nat) (h : a / 4096 ≠ mPage 3) : (s.report pg cls cause).reg a = s.reg a := by
  have hne : ∀ off, off < 4096 → a ≠ ra (mPage 3) off := fun off ho e => h (e ▸ ra_div _ off ho)
  have hfmg : eventSource (mPage 3) < 512 := by decide
  have hlost : a ≠ aQLost := hne _ (by decide)
  have hpend : a ≠ ra (mPage 3) (0x140 + 4 * (eventSource pg / 32)) := hne _ (by omega)
  unfold State.report
  extract_lets e r s1 s2 s3 s4
  have h2 : s2.reg a = s.reg a := State.reg_ite _ (State.reg_bumpF s1 _ _ _ _ _ hlost)
  have h3 : s3.reg a = s2.reg a := State.reg_ite _ (State.reg_hwSet s2 _ _ _ hpend)
  rw [State.reg_raise hfmg ha s4 _ (hne _ (by decide)), State.reg_setRf, if_neg (hne _ (by decide)), h3, h2]

/-- After the error is held, the record of an error changes its count, the page's event bits and what a report reaches. -/
theorem State.reg_err (s : State) (cls cause detail addr : Nat) (hfmg : a / 4096 ≠ mPage 3) (h : a ≠ ra pg 0x010) (h' : a ≠ ra pg 0x030) :
    (s.err pg cls cause detail addr).reg a = (s.errHold pg cls cause detail addr).reg a := by
  simp only [State.err]
  split
  · rw [State.reg_report hsrc ha _ _ _ hfmg, State.reg_raise hsrc ha _ _ h, State.reg_bumpF _ _ _ _ _ _ h']
  · rw [State.reg_raise hsrc ha _ _ h, State.reg_bumpF _ _ _ _ _ _ h']

end

/-- Holding an error changes the error registers alone. -/
theorem State.reg_errHold (s : State) (pg a cls cause detail addr : Nat) (h : ∀ off ∈ [0x020, 0x024, 0x028, 0x02C, 0x030], a ≠ ra pg off) :
    (s.errHold pg cls cause detail addr).reg a = s.reg a := by
  simp only [List.forall_mem_cons] at h
  obtain ⟨hfirst, hdetail, hlo, hhi, hcount, -⟩ := h
  simp only [State.errHold]
  split
  · rw [State.reg_setRb _ _ _ _ _ hcount]
    split
    · simp only [State.errPut, State.reg_setReg, hfirst, hdetail, hlo, hhi, if_false]; rfl
    · rfl
  · simp only [State.errPut, State.reg_setReg, hfirst, hdetail, hlo, hhi, if_false]; rfl

/-- R504: a page that holds no error holds the one that it records, with its detail. -/
theorem State.reg_errHold_first (s : State) (pg cls cause detail addr : Nat) (h : s.rb (ra pg 0x020) 31 = false) :
    (s.errHold pg cls cause detail addr).reg (ra pg 0x020) = nw (2 ^ 31 + cls * 2 ^ 28 + cause) ∧
      (s.errHold pg cls cause detail addr).reg (ra pg 0x024) = nw detail := by
  simp [State.errHold, h, State.errPut, State.reg_setReg, errWords, ra_ne]

/-! ## The page of a channel -/

/-- The DMC pages stand above the C-dies and below the FMG page, and report under a source of their own. -/
theorem dmcPage_bounds (ch : ChannelId) : 16384 ≤ dmcPage ch.val ∧ dmcPage ch.val < mPage 3 ∧ eventSource (dmcPage ch.val) < 512 := by
  revert ch
  decide

/-- The error record of a channel reaches, of the registers of its page, what it reaches of any page's. -/
theorem State.reg_err_dmc (s : State) (ch : ChannelId) (off cls cause detail : Nat) (ho : off < 4096) (h : off ≠ 0x010) (h' : off ≠ 0x030) :
    (s.err (dmcPage ch.val) cls cause detail 0).reg (ra (dmcPage ch.val) off) =
      (s.errHold (dmcPage ch.val) cls cause detail 0).reg (ra (dmcPage ch.val) off) := by
  obtain ⟨hlow, hhigh, hsrc⟩ := dmcPage_bounds ch
  have hpage := ra_div (dmcPage ch.val) off ho
  exact State.reg_err hsrc (hpage.symm ▸ hlow) s cls cause detail 0 (hpage.symm ▸ Nat.ne_of_lt hhigh) (ra_ne _ h) (ra_ne _ h')

theorem State.reg_pgFault_dmc (s : State) (ch : ChannelId) (off : Nat) (ho : off < 4096) (h : off ≠ 0x010) (h' : off ≠ 0x00C) :
    (s.pgFault (dmcPage ch.val)).reg (ra (dmcPage ch.val) off) = s.reg (ra (dmcPage ch.val) off) := by
  obtain ⟨hlow, -, hsrc⟩ := dmcPage_bounds ch
  exact State.reg_pgFault hsrc (by rwa [ra_div _ _ ho]) s (ra_ne _ h) (ra_ne _ h')

/-- A training leaves the registers below the mismatch counts of its channel (R433). -/
theorem State.reg_trainCounts (s : State) (ch off : Nat) (h : off < 0x200) :
    (s.trainCounts ch).reg (ra (dmcPage ch) off) = s.reg (ra (dmcPage ch) off) := by
  rw [State.trainCounts, State.reg_congr (State.drawn_regs _)]
  exact State.reg_foldl _ _ _ (fun t l _ => State.reg_bumpF t _ _ 15 0 _ (ra_ne _ (by omega))) s

/-! ## A channel becomes FAULTED -/

/-- The channel once its page holds the error, before its mirror windows degrade. -/
def State.channelErr (s : State) (ch kind : Nat) : State :=
  ((s.setRb (aDmcStat ch) 30 true).pgFault (dmcPage ch)).err (dmcPage ch) 3 0x0D kind 0

theorem State.mirOn_lt {s : State} {d w : Nat} (h : w ∈ s.mirOn d) : w < 4 := by
  have hmem : w ∈ [0, 1, 2, 3] := (List.mem_filter.mp h).1
  simp only [List.mem_cons, List.not_mem_nil, or_false] at hmem
  omega

theorem ra_ne_aMir (pg d : Nat) {off w : Nat} (h : off < 0x400) (hw : w < 4) : ra pg off ≠ aMir d w := by
  simp only [ra, aMir]
  omega

/-- A window of the channel's P-die degrades, and awaits a copy to the channel. -/
def State.degrade (ch : Nat) (s : State) (w : Nat) : State :=
  { s.setRb (aMir (ch / 16) w) 30 true with resync := tPut s.resync ((4 * (ch / 16) + w) * 16 + ch % 16) 0 }

theorem State.reg_degrade (s : State) (pg ch : Nat) {off w : Nat} (h : off < 0x400) (hw : w < 4) :
    (State.degrade ch s w).reg (ra pg off) = s.reg (ra pg off) :=
  State.reg_setRb s _ _ 30 true (ra_ne_aMir pg _ h hw)

/-- The error reaches the header of the channel's page alone. -/
theorem State.reg_channelErr (s : State) (ch : ChannelId) (kind off : Nat) (ho : off < 4096)
    (h : off ∉ [0x00C, 0x010, 0x020, 0x024, 0x028, 0x02C, 0x030]) :
    (s.channelErr ch.val kind).reg (ra (dmcPage ch.val) off) = (s.setRb (aDmcStat ch.val) 30 true).reg (ra (dmcPage ch.val) off) := by
  have hne : ∀ o ∈ [0x00C, 0x010, 0x020, 0x024, 0x028, 0x02C, 0x030], off ≠ o := fun o hmem e => h (e ▸ hmem)
  rw [State.channelErr, State.reg_err_dmc _ ch off _ _ _ ho (hne _ (by decide)) (hne _ (by decide)),
    State.reg_errHold _ _ _ _ _ _ _ fun o hmem => ra_ne _ (hne o (List.mem_cons_of_mem _ (List.mem_cons_of_mem _ hmem))),
    State.reg_pgFault_dmc _ ch off ho (hne _ (by decide)) (hne _ (by decide))]

/-- The fault of a channel is the error, READY cleared after a training (kind 1), and then each enabled window degraded. -/
theorem State.channelFault_eq (s : State) (ch kind : Nat) :
    ∃ v : State, s.channelFault ch kind = (v.mirOn (ch / 16)).foldl (State.degrade ch) v ∧
      v = if kind = 1 then (s.channelErr ch kind).setRb (aDmcStat ch) 31 false else s.channelErr ch kind :=
  ⟨_, rfl, rfl⟩

/-- Windows degrade above the registers that the error and READY stand in. -/
theorem State.reg_channelFault (s : State) (ch kind off : Nat) (h : off < 0x400) :
    (s.channelFault ch kind).reg (ra (dmcPage ch) off) =
      (if kind = 1 then (s.channelErr ch kind).setRb (aDmcStat ch) 31 false else s.channelErr ch kind).reg (ra (dmcPage ch) off) := by
  obtain ⟨v, hv, hready⟩ := s.channelFault_eq ch kind
  rw [hv, ← hready]
  exact State.reg_foldl _ _ _ (fun t _ hw => t.reg_degrade _ ch h (State.mirOn_lt hw)) v

/-- R435, R440: the channel is FAULTED. -/
theorem State.faulted_channelFault (s : State) (ch : ChannelId) (kind : Nat) : (s.channelFault ch.val kind).faulted ch.val = true := by
  have hstat : (s.channelErr ch.val kind).reg (aDmcStat ch.val) = (s.setRb (aDmcStat ch.val) 30 true).reg (aDmcStat ch.val) :=
    s.reg_channelErr ch kind 0x104 (by decide) (by decide)
  have herr : (s.channelErr ch.val kind).rb (aDmcStat ch.val) 30 = true := by
    rw [State.rb, hstat, ← State.rb, State.rb_setRb _ _ _ _ _ _ (by decide), if_pos ⟨rfl, rfl⟩]
  have hfault : (s.channelFault ch.val kind).reg (aDmcStat ch.val) = _ := s.reg_channelFault ch.val kind 0x104 (by decide)
  rw [State.faulted, State.rb, hfault, ← aDmcStat, ← State.rb]
  split
  · rw [State.rb_setRb _ _ _ _ _ _ (by decide), if_neg (by simp), herr]
  · exact herr

/-- R435: the page of a channel that held no error holds the channel fatal error of class 3, with its kind. -/
theorem State.errFirst_channelFault (s : State) (ch : ChannelId) (kind : Nat) (h : s.rb (ra (dmcPage ch.val) 0x020) 31 = false) :
    (s.channelFault ch.val kind).reg (ra (dmcPage ch.val) 0x020) = 0xB000000D ∧
      (s.channelFault ch.val kind).reg (ra (dmcPage ch.val) 0x024) = nw kind := by
  have hstat : ∀ off, off ≠ 0x104 → ra (dmcPage ch.val) off ≠ aDmcStat ch.val := fun off ho => ra_ne _ ho
  have hfree : ((s.setRb (aDmcStat ch.val) 30 true).pgFault (dmcPage ch.val)).rb (ra (dmcPage ch.val) 0x020) 31 = false := by
    rw [State.rb, State.reg_pgFault_dmc _ ch _ (by decide) (by decide) (by decide), State.reg_setRb _ _ _ _ _ (hstat _ (by decide))]
    exact h
  have hheld : ∀ off, off = 0x020 ∨ off = 0x024 → (s.channelFault ch.val kind).reg (ra (dmcPage ch.val) off) =
      (((s.setRb (aDmcStat ch.val) 30 true).pgFault (dmcPage ch.val)).errHold (dmcPage ch.val) 3 0x0D kind 0).reg (ra (dmcPage ch.val) off) := by
    intro off ho
    rw [State.reg_channelFault s ch.val kind off (by omega), State.reg_ite _ (State.reg_setRb _ _ _ _ _ (hstat off (by omega)))]
    exact State.reg_err_dmc _ ch off 3 0x0D kind (by omega) (by omega) (by omega)
  rw [hheld 0x020 (.inl rfl), hheld 0x024 (.inr rfl)]
  exact State.reg_errHold_first _ _ 3 0x0D kind 0 hfree

/-! ## The training and the tracking -/

/-- A training of a channel in reset that fails is a fault of kind 1, in a state whose registers below the mismatch counts are as before, but for
RESETTING. -/
theorem State.channelResetDone_failed (s : State) (ch : Nat) (h : s.rb (aDmcStat ch) 28 = true) :
    ∃ v : State, s.channelResetDone ch false = v.channelFault ch 1 ∧
      ∀ off, off < 0x200 → off ≠ 0x104 → v.reg (ra (dmcPage ch) off) = s.reg (ra (dmcPage ch) off) := by
  refine ⟨{ (s.setRb (aDmcStat ch) 28 false).trainCounts ch with dram := s.dram.lose fun a => decide (dramChan a = ch) }, ?_, fun off ho hne => ?_⟩
  · simp [State.channelResetDone, h]
  · have hstat : ra (dmcPage ch) off ≠ aDmcStat ch := ra_ne _ hne
    have hdram : ∀ (t : State) (m : Arr), State.reg { t with dram := m } (ra (dmcPage ch) off) = t.reg (ra (dmcPage ch) off) := fun _ _ => rfl
    rw [hdram, State.reg_trainCounts _ ch off ho, State.reg_setRb _ _ _ _ _ hstat]

theorem State.retireCopy_of_ne (s : State) (ch : Nat) (h : ∀ p, s.retire ≠ some (ch, p)) : s.retireCopy ch = s := by
  unfold State.retireCopy
  split
  · rfl
  next c p hr => exact if_pos (.inl fun hc => h p (hc ▸ hr))

/-- A tracking that finds the delays of a channel outside the trained range is a fault of kind 2, after the copy of a pending retirement. -/
theorem State.tracking_outside (s : State) (ch : Nat) (h : s.faulted ch = false) :
    ∃ v : State, s.tracking ch false = (v.retireCopy ch).channelFault ch 2 ∧ v.regs = s.regs ∧ v.retire = s.retire := by
  have hup : ∀ t, (s.upTo t).faulted ch = false := fun _ => h
  simp only [State.tracking, hup, Bool.false_eq_true, if_false]
  exact ⟨_, rfl, rfl, rfl⟩

theorem State.faulted_tracking (s : State) (ch : ChannelId) : (s.tracking ch.val false).faulted ch.val = true := by
  cases h : s.faulted ch.val
  case false =>
    obtain ⟨v, hv, -, -⟩ := s.tracking_outside ch.val h
    rw [hv]
    exact State.faulted_channelFault _ ch 2
  case true =>
    have hup : ∀ t, (s.upTo t).faulted ch.val = true := fun t => h
    simp only [State.tracking, hup, if_true]

/-- Settles O51: the failed training and the tracking each end in the fault of the channel, whose page records the error. -/
theorem channelsOutsideTheirTrainingFault : Obligations.ChannelsOutsideTheirTrainingFault := by
  unfold Obligations.ChannelsOutsideTheirTrainingFault
  refine ⟨fun ch s hreset => ⟨s.channelResetDone ch.val false, rfl, ?_⟩, fun ch s => ⟨s.tracking ch.val false, rfl, s.faulted_tracking ch, ?_⟩⟩
  · obtain ⟨v, hv, hregs⟩ := s.channelResetDone_failed ch.val hreset
    rw [hv]
    refine ⟨v.faulted_channelFault ch 1, fun hfree => v.errFirst_channelFault ch 1 ?_⟩
    rw [State.rb, hregs _ (by decide) (by decide)]
    exact hfree
  · intro hup hret hfree
    obtain ⟨v, hv, hregs, hretire⟩ := s.tracking_outside ch.val hup
    rw [hv, v.retireCopy_of_ne ch.val (by rwa [hretire])]
    refine v.errFirst_channelFault ch 2 ?_
    rw [State.rb, State.reg_congr hregs]
    exact hfree

end Sys2Proof.Machine
end
